-- ==== Sys2Proof/Word.lean ====
section
/-! DEFINITION. The bit widths of the HS64's fields (00_scope.md 4.1, 4.3): what the manual treats as bits. Counts,
levels and elapsed times are natural numbers. -/

namespace Sys2Proof

/-- A byte of a serial line. -/
abbrev Byte := BitVec 8
/-- A 16-bit field: order ids, tariff ids, masks, checks. -/
abbrev Half := BitVec 16
/-- A 32-bit field. -/
abbrev Word := BitVec 32

/-- Card id, 32 bits (4.3). -/
abbrev CardId := Word
/-- Bike id, 32 bits, nonzero (4.3). -/
abbrev BikeId := Word
/-- Order id, 1 to 65535 (4.3). -/
abbrev OrderId := Half
/-- Journal sequence number, 1 to 4294967295 (4.3). -/
abbrev SeqNo := Word
/-- Station Clock seconds (4.2). -/
abbrev ClockTime := Word
/-- Dock number, 0 to 63 (4.3). -/
abbrev DockNo := Nat
/-- A point on the elapsed-seconds timebase (4.2). -/
abbrev Elapsed := Nat

end Sys2Proof
end

