-- ==== Sys2Proof/Machine/Names.lean ====
section
/-! DEFINITION. The names of the manual: states, kinds, roles, outcomes, deny reasons and reply codes, each a closed
type, with the numbers that code them on the lines (11.7: 0 for the first value listed where the field is defined). -/

namespace Sys2Proof.Machine

/-! ### Docks (R1) -/

inductive LockState | locked | opened | failed
deriving DecidableEq, Repr

inductive SlotMode | opened | shut
deriving DecidableEq, Repr

inductive LockCommand | none | release | relock
deriving DecidableEq, Repr

inductive Occupancy | unknown | empty | occupied
deriving DecidableEq, Repr

/-- The side a reading is on (R15, R16). -/
inductive Side | occupied | empty
deriving DecidableEq, Repr

inductive BikeClass | standard | electric
deriving DecidableEq, Repr

/-- Where a join began (R6). -/
inductive JoinOrigin | absent | lost | stale
deriving DecidableEq, Repr

inductive LinkState | absent | joining (origin : JoinOrigin) | online | silent | lost | stale
deriving DecidableEq, Repr

inductive Lamp | green | flash | white | amber | red | off
deriving DecidableEq, Repr

/-- Service levels, FULL > RETURN_ONLY > CLOSED (chapter 2). The host service setting has the same values. -/
inductive Level | full | returnOnly | closed
deriving DecidableEq, Repr

/-- Terminals T0 to T3 (4.3). -/
inductive TerminalId | t0 | t1 | t2 | t3
deriving DecidableEq, Repr

/-- Where a tap was made. A terminal's place carries the attempt the session was in, so that a result reaches no later
attempt (R113; log 12). -/
inductive Place | reader (dock : DockNo) | terminal (t : TerminalId) (attempt : Nat)
deriving DecidableEq, Repr

/-- Deny reasons, in the order of 11.2. -/
inductive DenyReason
  | outOfService | role | barred | unknown | expired | noRight | already | credit | claimed | reserved
  | dockLimit | noBike | tight | power | busy | noOrder | limit | lapsed | jammed
deriving DecidableEq, Repr

/-- A reader result waiting at a dock (R12). -/
inductive ReaderResult | allow | deny (r : DenyReason)
deriving DecidableEq, Repr

/-! ### Cards (R45) -/

inductive Role | member | crew | service | pass
deriving DecidableEq, Repr

inductive Standing | good | barred
deriving DecidableEq, Repr

inductive Rights | standard | standardElectric
deriving DecidableEq, Repr

inductive CardOrigin | host | terminal | provisional
deriving DecidableEq, Repr

/-- What a card check or a van action brings to a terminal session (R105). -/
inductive CheckResult
  | deny (r : DenyReason)
  | member (card : CardId) (origin : CardOrigin) (rights : Rights)
  | vanOpened
  | vanClosed
deriving DecidableEq, Repr

/-! ### Claims (R70) -/

inductive ClaimKind | member | van | service
deriving DecidableEq, Repr

inductive ClaimState | reserved | releaseSent | released | relocking | jammedOpen | orphan
deriving DecidableEq, Repr

inductive OrphanCause | reset | link
deriving DecidableEq, Repr

inductive Owner | terminal (t : TerminalId) | reader (dock : DockNo) | order (id : OrderId) | nobody
deriving DecidableEq, Repr

/-- What the booking and the charge of a request were answered (R74). -/
inductive GrantAnswer | tight | credit | charged | free
deriving DecidableEq, Repr

/-- What an owning terminal session is told of its claim (R87, R109). -/
inductive ClaimNews | released (takeWindow : Nat) | taken | lapsed | failed
deriving DecidableEq, Repr

/-- What the Order Unit is told of a VAN claim (R145). -/
inductive VanNews | taken | lapsedOrFailed | droppedAtRequest | droppedByEvent | orphaned
deriving DecidableEq, Repr

/-- What the Order Unit is told of an insertion (R147): a counted insertion with its crew mark, or a reservation
dropped by an insertion with its crew mark. -/
inductive CrewInsertion | inserted (crew : Option OrderId) | dropped (crew : Option OrderId)
deriving DecidableEq, Repr

/-! ### Journal (R117) -/

inductive EntryKind | hireStart | hireVoid | returned | vanOut | vanIn | serviceOut | orderClosed
deriving DecidableEq, Repr

inductive CloseOutcome | done | partly | cancelled | restart
deriving DecidableEq, Repr

/-- A request for an entry (R118): the entry of a pending return, the ending entry of a claim taken, the closing
entry of a van session. -/
inductive EntryRequest
  | pendingReturn (dock : DockNo) (bike : Option BikeId) (late : Bool) (crew : Option OrderId)
  | claimEnding (dock : DockNo) (kind : ClaimKind) (bike : Option BikeId) (card : Option CardId) (reference : Option Word)
      (offline lateTake resetTake : Bool)
  | orderClosed (order : OrderId) (outcome : CloseOutcome) (done quantity : Nat)
deriving DecidableEq, Repr

/-- A change told to the Journal Unit about one dock (R11, R18, R72, R121; log 6). -/
inductive CountChange
  | slot (effectivelyOpen : Bool)
  | occupancy (o : Occupancy)
  | inserted
  | booked (b : Bool)
deriving DecidableEq, Repr

/-! ### Orders (R132, R136) -/

inductive OrderKind | collect | deliver
deriving DecidableEq, Repr

inductive OrderClass | standard | electric | any | held
deriving DecidableEq, Repr

inductive OrderState | queued | active
deriving DecidableEq, Repr

inductive SessionState | opened | closing
deriving DecidableEq, Repr

inductive CloseCause | done | terminal | idle | cancelled
deriving DecidableEq, Repr

inductive Mark | reserved | booked
deriving DecidableEq, Repr

/-! ### Faults (8.1, R154) -/

inductive FaultKind
  | lockJam | sensor | chatter | forcedRemoval | linkLoss | tagUnread | tagConflict | riderReport | batteryLow | lineFailed
deriving DecidableEq, Repr

inductive FaultSubject | dock (d : DockNo) | bike (b : BikeId) | terminal (t : TerminalId)
deriving DecidableEq, Repr

inductive Condition | active | resolved
deriving DecidableEq, Repr

inductive ReportState | new | acked
deriving DecidableEq, Repr

/-- What a raise carries beside its subject and kind (R155): a LOCK_JAM its claim as it stood, a TAG_CONFLICT the
refused bike id. -/
inductive Carried | nothing | claim (kind : ClaimKind) (state : ClaimState) (holder : Option CardId) | tag (bike : BikeId)
deriving DecidableEq, Repr

/-! ### Terminals (R96, R102) -/

inductive LineState | down | up | disabled
deriving DecidableEq, Repr

inductive TerminalState | idle | checking | choosing | offered
deriving DecidableEq, Repr

inductive Screen | welcome | wait | choose | take
deriving DecidableEq, Repr

inductive DoneOutcome | hire | vanOpened | vanClosed
deriving DecidableEq, Repr

/-- Records to a terminal (5.2). -/
inductive TermRecord | show (s : Screen) | offer (dock : DockNo) (seconds : Nat) | refuse (r : DenyReason) | done
    (o : DoneOutcome)
deriving DecidableEq, Repr

/-! ### Power, restart and store (R168, R175, R181) -/

inductive PowerState | mains | battery | reserve
deriving DecidableEq, Repr

inductive ResetCause | cold | line | request | supply
deriving DecidableEq, Repr

inductive StationState | configuring | serving
deriving DecidableEq, Repr

inductive SilenceAction | autonomous | restrict
deriving DecidableEq, Repr

inductive UnknownCardRule | deny | provisional
deriving DecidableEq, Repr

/-- A change told to the Dock Controller that concerns every dock (R30). -/
inductive CapChange
  | station (st : StationState)
  | power (p : PowerState)
  | hostLink (lost : Bool)
  | silenceAction (a : SilenceAction)
deriving DecidableEq, Repr

/-- What the part as a whole is doing (R173, R174, R176, R177, R175): running; stopped by a RESET request whose reply
is not sent; in supply shutdown; in supply reset; held by the reset line; without supply. -/
inductive Phase | running | resetAsked | shutdown | supplyReset | lineLow | pinsDown
deriving DecidableEq, Repr

/-! ### Host link (R192, R194) -/

/-- Reply codes, in the order of R192. -/
inductive ReplyCode
  | ok | replaced | late | unknownKind | badLength | badField | notFound | tableFull | duplicate | badSeq
  | wrongState | notDrained | mismatch | busy
deriving DecidableEq, Repr

/-- Notice kinds, in the bit order of R194. -/
inductive NoticeKind
  | start | clockUnset | journalYellow | journalTight | faultNew | faultOverflow | cardTableFull | orderClosed
  | powerChanged | settingsSwitched | linkResumed | terminalChanged
deriving DecidableEq, Repr

/-! ### Codes -/

namespace Code

def lock : LockState → Nat
  | .locked => 0 | .opened => 1 | .failed => 2
def lock? : Nat → Option LockState
  | 0 => some .locked | 1 => some .opened | 2 => some .failed | _ => none
def slot : SlotMode → Nat
  | .opened => 0 | .shut => 1
def slot? : Nat → Option SlotMode
  | 0 => some .opened | 1 => some .shut | _ => none
def command : LockCommand → Nat
  | .none => 0 | .release => 1 | .relock => 2
def occupancy : Occupancy → Nat
  | .unknown => 0 | .empty => 1 | .occupied => 2
def side : Side → Nat
  | .occupied => 0 | .empty => 1
def bikeClass : BikeClass → Nat
  | .standard => 0 | .electric => 1
def bikeClass? : Nat → Option BikeClass
  | 0 => some .standard | 1 => some .electric | _ => none
def joinOrigin : JoinOrigin → Nat
  | .absent => 0 | .lost => 1 | .stale => 2
def link : LinkState → Nat
  | .absent => 0 | .joining _ => 1 | .online => 2 | .silent => 3 | .lost => 4 | .stale => 5
def lamp : Lamp → Nat
  | .green => 0 | .flash => 1 | .white => 2 | .amber => 3 | .red => 4 | .off => 5
def level : Level → Nat
  | .full => 0 | .returnOnly => 1 | .closed => 2
def level? : Nat → Option Level
  | 0 => some .full | 1 => some .returnOnly | 2 => some .closed | _ => none
def terminal : TerminalId → Nat
  | .t0 => 0 | .t1 => 1 | .t2 => 2 | .t3 => 3
def terminal? : Nat → Option TerminalId
  | 0 => some .t0 | 1 => some .t1 | 2 => some .t2 | 3 => some .t3 | _ => none
def deny : DenyReason → Nat
  | .outOfService => 0 | .role => 1 | .barred => 2 | .unknown => 3 | .expired => 4 | .noRight => 5 | .already => 6
  | .credit => 7 | .claimed => 8 | .reserved => 9 | .dockLimit => 10 | .noBike => 11 | .tight => 12 | .power => 13
  | .busy => 14 | .noOrder => 15 | .limit => 16 | .lapsed => 17 | .jammed => 18
/-- The reader result field of the poll (11.7): 0 none, 1 ALLOW, 2 and up the deny reasons. -/
def readerResult : Option ReaderResult → Nat
  | .none => 0 | some .allow => 1 | some (.deny r) => 2 + deny r
def role : Role → Nat
  | .member => 0 | .crew => 1 | .service => 2 | .pass => 3
def role? : Nat → Option Role
  | 0 => some .member | 1 => some .crew | 2 => some .service | 3 => some .pass | _ => none
def standing : Standing → Nat
  | .good => 0 | .barred => 1
def standing? : Nat → Option Standing
  | 0 => some .good | 1 => some .barred | _ => none
def rights : Rights → Nat
  | .standard => 0 | .standardElectric => 1
def rights? : Nat → Option Rights
  | 0 => some .standard | 1 => some .standardElectric | _ => none
def cardOrigin : CardOrigin → Nat
  | .host => 0 | .terminal => 1 | .provisional => 2
def claimKind : ClaimKind → Nat
  | .member => 0 | .van => 1 | .service => 2
def claimState : ClaimState → Nat
  | .reserved => 0 | .releaseSent => 1 | .released => 2 | .relocking => 3 | .jammedOpen => 4 | .orphan => 5
def entryKind : EntryKind → Nat
  | .hireStart => 0 | .hireVoid => 1 | .returned => 2 | .vanOut => 3 | .vanIn => 4 | .serviceOut => 5 | .orderClosed => 6
def closeOutcome : CloseOutcome → Nat
  | .done => 0 | .partly => 1 | .cancelled => 2 | .restart => 3
def orderKind : OrderKind → Nat
  | .collect => 0 | .deliver => 1
def orderKind? : Nat → Option OrderKind
  | 0 => some .collect | 1 => some .deliver | _ => none
def orderClass : OrderClass → Nat
  | .standard => 0 | .electric => 1 | .any => 2 | .held => 3
def orderClass? : Nat → Option OrderClass
  | 0 => some .standard | 1 => some .electric | 2 => some .any | 3 => some .held | _ => none
def orderState : OrderState → Nat
  | .queued => 0 | .active => 1
def sessionState : SessionState → Nat
  | .opened => 0 | .closing => 1
def closeCause : CloseCause → Nat
  | .done => 0 | .terminal => 1 | .idle => 2 | .cancelled => 3
def mark : Mark → Nat
  | .reserved => 0 | .booked => 1
def faultKind : FaultKind → Nat
  | .lockJam => 0 | .sensor => 1 | .chatter => 2 | .forcedRemoval => 3 | .linkLoss => 4 | .tagUnread => 5
  | .tagConflict => 6 | .riderReport => 7 | .batteryLow => 8 | .lineFailed => 9
def faultKind? : Nat → Option FaultKind
  | 0 => some .lockJam | 1 => some .sensor | 2 => some .chatter | 3 => some .forcedRemoval | 4 => some .linkLoss
  | 5 => some .tagUnread | 6 => some .tagConflict | 7 => some .riderReport | 8 => some .batteryLow
  | 9 => some .lineFailed | _ => none
def condition : Condition → Nat
  | .active => 0 | .resolved => 1
def reportState : ReportState → Nat
  | .new => 0 | .acked => 1
def lineState : LineState → Nat
  | .down => 0 | .up => 1 | .disabled => 2
def terminalState : TerminalState → Nat
  | .idle => 0 | .checking => 1 | .choosing => 2 | .offered => 3
def screen : Screen → Nat
  | .welcome => 0 | .wait => 1 | .choose => 2 | .take => 3
def doneOutcome : DoneOutcome → Nat
  | .hire => 0 | .vanOpened => 1 | .vanClosed => 2
def power : PowerState → Nat
  | .mains => 0 | .battery => 1 | .reserve => 2
def resetCause : ResetCause → Nat
  | .cold => 0 | .line => 1 | .request => 2 | .supply => 3
def station : StationState → Nat
  | .configuring => 0 | .serving => 1
def silenceAction : SilenceAction → Nat
  | .autonomous => 0 | .restrict => 1
def silenceAction? : Nat → Option SilenceAction
  | 0 => some .autonomous | 1 => some .restrict | _ => none
def unknownCardRule : UnknownCardRule → Nat
  | .deny => 0 | .provisional => 1
def unknownCardRule? : Nat → Option UnknownCardRule
  | 0 => some .deny | 1 => some .provisional | _ => none
def reply : ReplyCode → Nat
  | .ok => 0 | .replaced => 1 | .late => 2 | .unknownKind => 3 | .badLength => 4 | .badField => 5 | .notFound => 6
  | .tableFull => 7 | .duplicate => 8 | .badSeq => 9 | .wrongState => 10 | .notDrained => 11 | .mismatch => 12 | .busy => 13
def notice : NoticeKind → Nat
  | .start => 0 | .clockUnset => 1 | .journalYellow => 2 | .journalTight => 3 | .faultNew => 4 | .faultOverflow => 5
  | .cardTableFull => 6 | .orderClosed => 7 | .powerChanged => 8 | .settingsSwitched => 9 | .linkResumed => 10
  | .terminalChanged => 11
/-- The place of a CARD_QUERY body (11.7): the dock number, or 40h to 43h for a terminal. -/
def place : Place → Nat
  | .reader d => d | .terminal t _ => 0x40 + terminal t

end Code

end Sys2Proof.Machine
end

