-- ==== Sys2Proof/Syntax.lean ====
section
/-! DEFINITION. The commands of the HS64: one constructor for each row of spec/opcode_table.json, in the table's
order, with the row's operands. A request of the host carries its frame tag and body bytes (R192, 11.7). -/

namespace Sys2Proof

open Sys2Proof.Machine

inductive Instr
  -- host link (R190 to R193)
  | hostFrameGood (bytes : List Byte)
  | hostFrameBad (bytes : List Byte)
  | frameSent
  | unknownKindRequest (kind tag : Byte)
  -- requests (11.5)
  | status (tag : Byte) (body : List Byte)
  | noticeMask (tag : Byte) (body : List Byte)
  | timeSet (tag : Byte) (body : List Byte)
  | reset (tag : Byte) (body : List Byte)
  | requestReset
  | layoutGet (tag : Byte) (body : List Byte)
  | layoutSet (tag : Byte) (body : List Byte)
  | serviceStart (tag : Byte) (body : List Byte)
  | serviceStop (tag : Byte) (body : List Byte)
  | settingsGet (tag : Byte) (body : List Byte)
  | settingsStage (tag : Byte) (body : List Byte)
  | settingsDrop (tag : Byte) (body : List Byte)
  | settingsSwitch
  | dockGet (tag : Byte) (body : List Byte)
  | dockSetService (tag : Byte) (body : List Byte)
  | cardPut (tag : Byte) (body : List Byte)
  | cardGet (tag : Byte) (body : List Byte)
  | cardDrop (tag : Byte) (body : List Byte)
  | cardVerdict (tag : Byte) (body : List Byte)
  | journalRead (tag : Byte) (body : List Byte)
  | journalRelease (tag : Byte) (body : List Byte)
  | orderAdd (tag : Byte) (body : List Byte)
  | orderCancel (tag : Byte) (body : List Byte)
  | orderList (tag : Byte) (body : List Byte)
  | faultList (tag : Byte) (body : List Byte)
  | faultAck (tag : Byte) (body : List Byte)
  | faultClear (tag : Byte) (body : List Byte)
  | terminalGet (tag : Byte) (body : List Byte)
  | terminalEnable (tag : Byte) (body : List Byte)
  | silenceDeadline
  -- dock bus (chapters 1 and 2)
  | dockPoll
  | dockReport (bytes : List Byte)
  | dockPollMissed
  | reportWindowDeadline (dock : DockNo)
  | crewWindowDeadline (dock : DockNo)
  | dockCapChange (change : CapChange)
  | dockClaimNotice (dock : DockNo)
  -- cards (chapter 3)
  | cardCheck (card : CardId) (place : Place)
  | queryDeadline (queryTag : Byte)
  | passSale (t : TerminalId) (attempt : Nat) (code : CardId) (rights : Byte) (expiry : ClockTime)
  | charge (dock : DockNo) (card : CardId)
  | refund (card : CardId)
  -- claims (chapter 4)
  | claimRequest (dock : DockNo) (kind : ClaimKind) (holder : CardId) (origin : CardOrigin) (owner : Owner)
  | claimGrant (dock : DockNo) (answer : GrantAnswer)
  | reservationRequest (dock : DockNo) (order : OrderId)
  | reservationDrop (dock : DockNo)
  | vanReleaseRequest (dock : DockNo) (order : OrderId) (card : CardId)
  | claimLockChange (dock : DockNo) (lock : LockState) (completed : Bool)
  | claimRemoval (dock : DockNo) (bike : Option BikeId)
  | claimInsertion (dock : DockNo) (crew : Option OrderId)
  | releaseDeadline (dock : DockNo)
  | takeWindowDeadline (dock : DockNo)
  | relockDeadline (dock : DockNo)
  | displacement (dock : DockNo)
  | lockJamCleared (dock : DockNo)
  | orphanReconcile (dock : DockNo) (occupancy : Occupancy) (lock : LockState)
  | allocation (t : TerminalId) (cls : BikeClass) (holder : CardId) (origin : CardOrigin) (exclude : Option DockNo)
  | graceExpiry (bike : BikeId)
  | bikeTakenNotice (bike : BikeId) (entryWritten : Bool)
  -- journal (chapter 6)
  | bookingRequest (dock : DockNo)
  | bookingGivenBack (dock : DockNo)
  | vanBooking (card : CardId) (place : Place)
  | journalEntryWrite (request : EntryRequest)
  | journalWithheldNotice (dock : DockNo) (joins : Bool)
  | journalCountNotice (dock : DockNo) (change : CountChange)
  -- orders (chapter 7)
  | crewTap (card : CardId) (place : Place)
  | placementPass
  | vanClaimNotice (dock : DockNo) (order : OrderId) (news : VanNews)
  | crewInsertionNotice (dock : DockNo) (news : CrewInsertion)
  | vanInNotice (order : OrderId) (dock : DockNo) (seq : SeqNo) (identified : Bool)
  | vanIdleDeadline
  -- faults (chapter 8)
  | faultRaise (subject : FaultSubject) (kind : FaultKind) (dock : Option DockNo) (carried : Carried)
  | faultResolution (subject : FaultSubject) (kind : FaultKind) (dock : Option DockNo)
  | holdClear (dock : DockNo)
  | bikeArrivalNotice (dock : DockNo) (bike : BikeId)
  | faultRemovalNotice (dock : DockNo) (bike : Option BikeId)
  -- terminals (chapter 5)
  | terminalHello (t : TerminalId)
  | terminalTap (t : TerminalId) (card : CardId)
  | terminalPaid (t : TerminalId) (code : CardId) (rights : Byte) (expiry : ClockTime)
  | terminalPick (t : TerminalId) (cls : BikeClass)
  | terminalCancel (t : TerminalId)
  | terminalBadRecord (t : TerminalId)
  | terminalRecordDiscarded (t : TerminalId)
  | lineBreak (t : TerminalId)
  | terminalPowerSet (power : PowerState) (only : Option TerminalId)
  | checkResultAtSession (t : TerminalId) (attempt : Nat) (result : CheckResult)
  | claimNoticeAtSession (t : TerminalId) (dock : DockNo) (news : ClaimNews)
  | choosingDeadline (t : TerminalId)
  | offeredDeadline (t : TerminalId)
  -- supply and resets (chapter 9)
  | supplySample (mainsPresent : Bool) (level : Byte)
  | supplyResetEntry
  | resetLineLow
  | resetLineRelease
  | powerUp
  | supplyPinsFall (midAct : Bool)
  | backupCellFailure
deriving DecidableEq, Repr

end Sys2Proof
end

