-- ==== Sys2Proof/Machine/Bytes.lean ====
section
/-! DEFINITION. Bytes of the lines (11.7): most significant byte first, and the two checks. -/

namespace Sys2Proof.Machine

/-- One byte of a natural number. -/
def byteOf (n : Nat) : Byte := BitVec.ofNat 8 n

/-- Two and four bytes, most significant first (4.1). -/
def bytes2 (n : Nat) : List Byte := [byteOf (n / 256), byteOf n]
def bytes4 (n : Nat) : List Byte := [byteOf (n / 16777216), byteOf (n / 65536), byteOf (n / 256), byteOf n]

/-- A field of 16 or 32 bits. -/
def bytesHalf (h : Half) : List Byte := bytes2 h.toNat
def bytesWord (w : Word) : List Byte := bytes4 w.toNat

/-- The number that bytes give, most significant first. -/
def natOfBytes (bs : List Byte) : Nat := bs.foldl (fun a b => a * 256 + b.toNat) 0

/-- The field of `n` bytes at an offset of a body or record. -/
def fieldAt (bs : List Byte) (offset n : Nat) : Nat := natOfBytes ((bs.drop offset).take n)
def wordAt (bs : List Byte) (offset : Nat) : Word := BitVec.ofNat 32 (fieldAt bs offset 4)
def halfAt (bs : List Byte) (offset : Nat) : Half := BitVec.ofNat 16 (fieldAt bs offset 2)

/-- An optional field: a presence byte, and the field only when it is present (11.7). -/
def bytesOpt (f : α → List Byte) : Option α → List Byte
  | none => [0]
  | some a => 1 :: f a

/-- One bit of the CRC-16 of 11.7: polynomial x^16 + x^12 + x^5 + 1, most significant bit first. -/
def crcShift (c : Half) : Half := if c.msb then (c <<< 1) ^^^ 0x1021 else c <<< 1

/-- The bits of one byte into the check. -/
def crcByte (c : Half) (b : Byte) : Half :=
  let c0 := c ^^^ ((b.setWidth 16) <<< 8)
  crcShift (crcShift (crcShift (crcShift (crcShift (crcShift (crcShift (crcShift c0)))))))

/-- CRC-16 with initial value FFFFh and no final inversion (11.7). -/
def crc16 (bs : List Byte) : Half := bs.foldl crcByte 0xFFFF

/-- Bytes followed by their check. -/
def withCheck (bs : List Byte) : List Byte := bs ++ bytesHalf (crc16 bs)

/-- The check of a terminal record: with it, the bytes from the kind on sum to 0 modulo 256 (11.7). -/
def sumCheck (bs : List Byte) : Byte := bs.foldl (fun a b => a - b) 0

end Sys2Proof.Machine
end

