-- ==== Sys2Proof/Config.lean ====
section
/-! DEFINITION. What the part fixes for good (limits and capacities that are no settings), and the one free value. -/

namespace Sys2Proof.Config

/-- Slots of the record store (R183, 4.4). -/
def storeSlots : Nat := 4096
/-- The limit of a release, and of a relock, in seconds (R74, R80, R88). -/
def lockLimit : Nat := 5
/-- Seconds added to the terminal idle setting while a claim is in RELEASE_SENT (R108). -/
def offerMargin : Nat := 10
/-- Seconds added to take window and terminal idle once the lock is open (R109). -/
def takeMargin : Nat := 5
/-- The chatter interval in seconds, and the changes that raise CHATTER (R17). -/
def chatterSpan : Nat := 20
def chatterChanges : Nat := 7
/-- Room for the queries and for the waiters of one (R61). -/
def queryRoom : Nat := 8
def waiterRoom : Nat := 4
/-- Room of the grace list (R91) and of the order queue (R132). -/
def graceRoom : Nat := 64
def orderRoom : Nat := 8
/-- Frames that may wait at once (R191), and the longest body from the host (R190). -/
def frameRoom : Nat := 2
def bodyLimit : Nat := 512
/-- Where the saturating counts stop (R159, R190, R191) and the repeat count stops (R158). -/
def countLimit : Nat := 65535
def repeatLimit : Nat := 255
/-- A saturated sensor (R13) and the bounds of a sound baseline (R13). -/
def saturated : Nat := 4095
def baselineLow : Nat := 100
def baselineHigh : Nat := 3000
/-- The step a battery must climb above the battery-low level (R27). -/
def batteryStep : Nat := 10

/-- FREE VALUE (log 16). How a reply codes a slack that its two bytes cannot hold: one below 0 (or above 65535), which only dock
units that break R36 bring about (R36, R121). The spec states no coding, so nothing is known of it. -/
opaque freeSlackCode : Int → Half

end Sys2Proof.Config
end

