-- ==== Sys2Proof/Machine/State.lean ====
section
/-! DEFINITION. The state of the part: every piece of state the manual names, block by block (00 section 2), the commands that
wait, the work in flight between blocks, and the machine right after its first power-up. -/

namespace Sys2Proof.Machine

/-! ### Dock Controller (R1) -/

/-- A bike as its tag names it: the id and the class are present together (R1). -/
structure Bike where
  id : BikeId
  cls : BikeClass
deriving DecidableEq, Repr

/-- The return entry pending, with its late mark and its crew mark (R1, R18). -/
structure ReturnEntry where
  late : Bool
  crew : Option OrderId
deriving DecidableEq, Repr

/-- The last card tap at a dock's reader (R1, R25). -/
structure CardTap where
  card : CardId
  time : ClockTime
  unset : Bool
deriving DecidableEq, Repr

/-- An open crew window (R28). -/
structure CrewWindow where
  deadline : Elapsed
  order : OrderId
deriving DecidableEq, Repr

/-- The dock hold set (R1). -/
structure DockHolds where
  lockJam : Bool := false
  sensor : Bool := false
  chatter : Bool := false
  forcedRemoval : Bool := false
  tagUnread : Bool := false
  tagConflict : Bool := false
deriving DecidableEq, Repr

/-- The bike hold set (R1). -/
structure BikeHolds where
  riderReport : Bool := false
  batteryLow : Bool := false
deriving DecidableEq, Repr

/-- One dock record (R1). The defaults are the values after a cold reset (R2, R44). -/
structure DockRecord where
  link : LinkState := .absent
  misses : Nat := 0
  occupancy : Occupancy := .unknown
  bike : Option Bike := none
  unrecorded : Bool := false
  returnEntry : Option ReturnEntry := none
  tagWait : Nat := 0
  insertionOrder : Word := 0
  lock : LockState := .locked
  command : LockCommand := .none
  commanded : SlotMode := .shut
  acknowledged : SlotMode := .shut
  withheld : Bool := false
  baseline : Option Nat := none
  candidate : Option Side := none
  saturation : Nat := 0
  lastSense : Option Nat := none
  chatter : List Elapsed := []
  dockHolds : DockHolds := {}
  bikeHolds : BikeHolds := {}
  hostSetting : Level := .full
  lastTap : Option CardTap := none
  checkPending : Bool := false
  readerResult : Option ReaderResult := none
  crewWindow : Option CrewWindow := none
  reportWindow : Option Elapsed := none
  battery : Option Nat := none
  lamp : Lamp := .off
deriving DecidableEq, Repr

/-- The poll in progress: what its frame carried (R3), and whether a newer reader result has replaced the one it
carried (R12). -/
structure Poll where
  dock : DockNo
  command : LockCommand
  mode : SlotMode
  lamp : Lamp
  result : Option ReaderResult
  superseded : Bool
deriving DecidableEq, Repr

/-- The inputs of R29 that other blocks own, as the Dock Controller was last told them (R30 to R34; log 5). -/
structure DockCaps where
  station : StationState := .configuring
  power : PowerState := .battery
  hostLost : Bool := false
  action : SilenceAction := .autonomous
deriving DecidableEq, Repr

structure DockUnit where
  table : List DockRecord
  insertionCounter : Word := 0
  rotation : DockNo := 0
  urgentPos : Option DockNo := none
  urgentRun : Nat := 0
  poll : Option Poll := none
  caps : DockCaps := {}
deriving DecidableEq, Repr

/-! ### Card Unit (R45, R61) -/

structure CardRecord where
  card : CardId
  role : Role
  standing : Standing
  rights : Rights
  credit : Nat
  used : Nat
  origin : CardOrigin
  expiry : Option ClockTime
  stamp : Word
deriving DecidableEq, Repr

structure Query where
  tag : Byte
  card : CardId
  waiters : List Place
  deadline : Elapsed
deriving DecidableEq, Repr

structure CardUnit where
  table : List CardRecord := []
  installCounter : Word := 0
  queries : List Query := []
  nextTag : Byte := 1
deriving DecidableEq, Repr

/-! ### Release Controller (R70, R74, R91) -/

structure Claim where
  dock : DockNo
  kind : ClaimKind
  state : ClaimState
  holder : Option CardId
  owner : Owner
  order : Option OrderId
  orphanCause : Option OrphanCause
  takeWindow : Nat
  tariff : Half
  offline : Bool
  deadline : Option Elapsed
deriving DecidableEq, Repr

/-- A request being granted: it holds its dock and its holder (R74). A VAN release carries its order (R76). -/
structure ClaimRequest where
  dock : DockNo
  kind : ClaimKind
  holder : CardId
  origin : CardOrigin
  owner : Owner
  order : Option OrderId
deriving DecidableEq, Repr

structure GraceEntry where
  bike : BikeId
  card : CardId
  start : SeqNo
  offline : Bool
  expiry : Elapsed
deriving DecidableEq, Repr

structure ReleaseUnit where
  claims : List Claim := []
  requests : List ClaimRequest := []
  grace : List GraceEntry := []
deriving DecidableEq, Repr

/-! ### Terminal Unit (R96, R102) -/

/-- A terminal session (R102). `allocating` says that it waits on the allocator (R108); `attempt` numbers its
attempts (log 12). -/
structure Session where
  state : TerminalState := .idle
  card : Option CardId := none
  origin : Option CardOrigin := none
  rights : Option Rights := none
  unstored : Option CardRecord := none
  cls : Option BikeClass := none
  claimDock : Option DockNo := none
  reallocated : Bool := false
  deadline : Option Elapsed := none
  allocating : Bool := false
  attempt : Nat := 0
deriving DecidableEq, Repr

/-- An arrival on a terminal line (5.1, 5.2): a good record, a bad one, one discarded, a break, or the output switched OFF. -/
inductive LineArrival
  | hello | tap (card : CardId) | paid (code : CardId) (rights : Byte) (expiry : ClockTime) | pick (cls : BikeClass) | cancel
  | bad | discarded | broken | off
deriving DecidableEq, Repr

/-- One terminal: its line record (R96), its session, the arrivals its line defers while it allocates, oldest first (R108;
log 11), and the records produced to it, oldest first (R100; log 19). -/
structure Terminal where
  line : LineState := .down
  badCount : Nat := 0
  power : Bool := false
  session : Session := {}
  deferred : List LineArrival := []
  out : List TermRecord := []
deriving DecidableEq, Repr

/-- One thing for each of T0 to T3. -/
structure Four (α : Type) where
  t0 : α
  t1 : α
  t2 : α
  t3 : α
deriving DecidableEq, Repr

/-! ### Journal Unit (R115, R117, R121) -/

structure EntryFlags where
  offline : Bool := false
  late : Bool := false
  resetTake : Bool := false
  lateTake : Bool := false
  noTag : Bool := false
deriving DecidableEq, Repr

structure Entry where
  seq : SeqNo
  time : ClockTime
  unset : Bool
  kind : EntryKind
  dock : Option DockNo
  bike : Option BikeId
  card : Option CardId
  reference : Option Word
  outcome : Option CloseOutcome
  done : Option Nat
  quantity : Option Nat
  flags : EntryFlags
deriving DecidableEq, Repr

/-- What the Journal Unit has been told of one dock (R121; log 6). `passed` says that the bike of its booked claim is told gone and
the claim's ending is not: the claim's place in the reserve is then the place of the dock it left (log 6). -/
structure DockAccount where
  occupancy : Occupancy := .unknown
  slotOpen : Bool := false
  owed : Bool := false
  booked : Bool := false
  passed : Bool := false
deriving DecidableEq, Repr

structure Journal where
  entries : List Entry := []
  account : List DockAccount
  inHand : List DockNo := []
  vanBooked : Bool := false
  withheld : List DockNo := []
deriving DecidableEq, Repr

/-! ### Order Unit (R132, R136) -/

structure Order where
  id : OrderId
  kind : OrderKind
  cls : OrderClass
  quantity : Nat
  notBefore : Option ClockTime
  state : OrderState
  done : Nat
deriving DecidableEq, Repr

structure VanSession where
  state : SessionState
  order : OrderId
  card : CardId
  cause : Option CloseCause
  idleDeadline : Option Elapsed
  docks : List (DockNo × Mark)
  awaiting : Nat
  windows : List DockNo
deriving DecidableEq, Repr

structure OrderUnit where
  queue : List Order := []
  session : Option VanSession := none
deriving DecidableEq, Repr

/-! ### Fault Unit (R154, R155) -/

/-- The dock part of a frozen context: the fields of R155, which are those of the record of 11.7, and the unrecorded flag, which R19
makes visible here (the bytes of the record have no place for it, log 34). -/
structure DockContext where
  dock : DockNo
  link : LinkState
  lock : LockState
  occupancy : Occupancy
  commanded : SlotMode
  acknowledged : SlotMode
  claim : Option (ClaimKind × ClaimState × Option CardId)
  lastTap : Option CardTap
  lastSense : Option Nat
  bike : Option BikeId
  unrecorded : Bool
deriving DecidableEq, Repr

structure FaultRecord where
  subject : FaultSubject
  kind : FaultKind
  firstTime : ClockTime
  firstUnset : Bool
  lastTime : ClockTime
  lastUnset : Bool
  repeats : Nat
  condition : Condition
  report : ReportState
  context : Option DockContext
  power : PowerState
deriving DecidableEq, Repr

structure FaultUnit where
  table : List FaultRecord := []
  lost : Nat := 0
deriving DecidableEq, Repr

/-! ### Supply Monitor (R168) -/

structure SupplyMonitor where
  power : PowerState := .battery
  decided : Bool := false
  /-- `some true` PRESENT, `some false` ABSENT, `none` undecided. -/
  debounced : Option Bool := none
  /-- The value of the latest sample and how many have shown it, or empty. -/
  run : Option (Bool × Nat) := none
  level : Option Byte := none
deriving DecidableEq, Repr

/-! ### Store Controller (R181, R183, R185, R188, R175) -/

structure Layout where
  dockCount : Nat := 64
  journalBase : Nat := 2048
  faultBase : Nat := 3584
deriving DecidableEq, Repr

/-- A settings set (R185); the defaults are those of the table. -/
structure Settings where
  takeWindow : Nat := 30
  grace : Nat := 120
  reportWindow : Nat := 60
  authWait : Nat := 8
  terminalIdle : Nat := 45
  vanIdle : Nat := 300
  crewWindow : Nat := 20
  silenceLimit : Nat := 60
  silenceAction : SilenceAction := .autonomous
  unknownCard : UnknownCardRule := .deny
  threshold : Nat := 200
  hysteresis : Nat := 80
  batteryLow : Nat := 25
  yellowMargin : Nat := 64
  tariff : Half := 0
  supplyLow : Nat := 120
  supplyCutoff : Nat := 96
  supplyHysteresis : Nat := 8
deriving DecidableEq, Repr

/-- A pending set with its switch time; `none` is NOW (R185). -/
structure PendingSettings where
  settings : Settings
  switchTime : Option ClockTime
deriving DecidableEq, Repr

structure Store where
  station : StationState := .configuring
  layout : Layout := {}
  live : Settings := {}
  pendingSet : Option PendingSettings := none
  nextSeq : SeqNo := 1
  clock : ClockTime := 0
  clockUnset : Bool := true
  resetCause : ResetCause := .cold
  warm : Bool := false
  /-- The store check word agrees with the retained state (R178; log 13). -/
  checkAgrees : Bool := true
deriving DecidableEq, Repr

/-! ### Host Link Controller (R190 to R197) and the replies -/

structure StatusReply where
  notices : Half
  station : StationState
  cause : ResetCause
  warm : Bool
  power : PowerState
  decided : Bool
  debounced : Option Bool
  level : Option Byte
  hostLost : Bool
  badFrames : Nat
  overruns : Nat
  lostReports : Nat
  clock : ClockTime
  clockUnset : Bool
  nextSeq : SeqNo
  slack : Int
  claims : Nat
  session : Option SessionState
  lines : Four LineState
  mask : Half
deriving DecidableEq, Repr

structure DockReply where
  record : DockRecord
  level : Level
  claim : Option (ClaimKind × ClaimState × Option CardId × Owner)
deriving DecidableEq, Repr

structure JournalReply where
  gap : Bool
  entries : List Entry
  oldest : SeqNo
  next : SeqNo
  used : Nat
  booked : Nat
  reserve : Nat
  slack : Int
deriving DecidableEq, Repr

structure SessionReply where
  state : SessionState
  order : OrderId
  card : CardId
  cause : Option CloseCause
  idleLeft : Option Nat
  docks : List (DockNo × Mark)
  awaiting : Nat
  windows : List DockNo
deriving DecidableEq, Repr

structure FaultListReply where
  held : Nat
  selected : Nat
  size : Nat
  lost : Nat
  records : List FaultRecord
deriving DecidableEq, Repr

structure TerminalReply where
  line : LineState
  badCount : Nat
  power : Bool
  state : TerminalState
  card : Option CardId
  cls : Option BikeClass
  claimDock : Option DockNo
  reallocated : Bool
deriving DecidableEq, Repr

/-- The fields of a reply after its code (R192). A refusal carries none. -/
inductive Payload
  | nothing
  | status (r : StatusReply)
  | mask (m : Half)
  | layout (l : Layout)
  | settings (live : Settings) (pendingSet : Option PendingSettings)
  | dock (r : DockReply)
  | level (l : Level)
  | card (c : CardRecord)
  | journalRead (r : JournalReply)
  | journalRelease (removed : Nat) (oldest : SeqNo) (slack : Int)
  | orders (queue : List Order) (session : Option SessionReply)
  | faults (r : FaultListReply)
  | condition (c : Condition)
  | terminal (r : TerminalReply)
deriving DecidableEq, Repr

/-- A frame of the outgoing order (R193). A NOTICE takes the notice set when its sending begins; until then its
content is `none`. -/
inductive OutFrame
  | reply (kind tag : Byte) (code : ReplyCode) (payload : Payload)
  | notice (content : Option Half)
  | cardQuery (queryTag : Byte) (card : CardId) (place : Place)
deriving DecidableEq, Repr

/-- A good frame from the host (R191). -/
structure HostFrame where
  kind : Byte
  tag : Byte
  body : List Byte
deriving DecidableEq, Repr

structure HostLink where
  rx : List Byte := []
  waiting : List HostFrame := []
  requestOpen : Bool := false
  outgoing : List OutFrame := []
  noticeSet : Half := 0
  noticeMask : Half := 0x0FFF
  lost : Bool := false
  deadline : Option Elapsed := none
  lastGood : Elapsed := 0
  badFrames : Nat := 0
  overruns : Nat := 0
  rate : BitVec 2 := 0
deriving DecidableEq, Repr

/-! ### The whole part -/

structure State where
  phase : Phase
  now : Elapsed
  /-- The commands that wait, first in, first out. -/
  pending : List Instr
  /-- Work handed from one block to another and not yet taken (R5, R173), oldest first. -/
  inFlight : List Instr
  /-- The levels at HRATE0 and HRATE1 (00 section 6). -/
  straps : BitVec 2
  /-- The reset line is low (R176). -/
  resetLow : Bool
  host : HostLink
  dock : DockUnit
  card : CardUnit
  release : ReleaseUnit
  term : Four Terminal
  journal : Journal
  order : OrderUnit
  fault : FaultUnit
  supply : SupplyMonitor
  store : Store
deriving DecidableEq, Repr

/-- Why the part would stop with a fault. Nothing in the manual stops it: the type has no constructor. -/
inductive Fault
deriving DecidableEq, Repr

/-- Why the model would refuse a command. -/
inductive Refusal
  /-- Raised by exec alone, for a row that has no meaning yet (safe). No arm uses it. -/
  | notModelled (mnemonic : String)
deriving DecidableEq, Repr

/-- The host link at the end of a reset, before its NOTICE is queued (R180, R197). -/
def HostLink.fresh (straps : BitVec 2) (now limit : Nat) : HostLink :=
  { deadline := some (now + limit), lastGood := now, rate := straps }

/-- The machine right after the reset of its first power-up (R175, R179, R180): cause COLD, a cold start. -/
def State.reset : State where
  phase := .running
  now := 0
  pending := []
  inFlight := []
  straps := 0
  resetLow := false
  host := { HostLink.fresh 0 0 60 with noticeSet := 0x0003, outgoing := [.notice (some 0x0003)] }
  dock := { table := List.replicate 64 {} }
  card := {}
  release := {}
  term := ⟨{}, {}, {}, {}⟩
  journal := { account := List.replicate 64 {} }
  order := {}
  fault := {}
  supply := {}
  store := {}

end Sys2Proof.Machine
end

