-- ==== Sys2Proof/Machine/Flags.lean ====
section
/-! DEFINITION. What is derived and never stored: the effective service level, slot openness, wants, the lamp, expiry,
eligibility, the journal's counts, positions in the journal. Each is read from the state as it stands. -/

namespace Sys2Proof.Machine

/-! ### Terminals as an indexed family -/

def Four.get (q : Four α) : TerminalId → α
  | .t0 => q.t0
  | .t1 => q.t1
  | .t2 => q.t2
  | .t3 => q.t3

def Four.set (q : Four α) (t : TerminalId) (a : α) : Four α :=
  match t with
  | .t0 => { q with t0 := a }
  | .t1 => { q with t1 := a }
  | .t2 => { q with t2 := a }
  | .t3 => { q with t3 := a }

def Four.map (f : α → β) (q : Four α) : Four β := ⟨f q.t0, f q.t1, f q.t2, f q.t3⟩

/-- T0 to T3 in order. -/
def terminals : List TerminalId := [.t0, .t1, .t2, .t3]

/-! ### Reading the tables -/

def State.dockCount (s : State) : Nat := s.dock.table.length

def State.dock? (s : State) (d : DockNo) : Option DockRecord := s.dock.table[d]?

/-- The claim a dock carries (R70). -/
def State.claimOn (s : State) (d : DockNo) : Option Claim := s.release.claims.find? (fun c => c.dock == d)

/-- The request that holds a dock (R74). -/
def State.requestOn (s : State) (d : DockNo) : Option ClaimRequest := s.release.requests.find? (fun q => q.dock == d)

def State.cardRecord (s : State) (c : CardId) : Option CardRecord := s.card.table.find? (fun r => r.card == c)

def State.terminal (s : State) (t : TerminalId) : Terminal := s.term.get t

def State.settings (s : State) : Settings := s.store.live

/-! ### Sets of holds -/

def DockHolds.has (h : DockHolds) : FaultKind → Bool
  | .lockJam => h.lockJam
  | .sensor => h.sensor
  | .chatter => h.chatter
  | .forcedRemoval => h.forcedRemoval
  | .tagUnread => h.tagUnread
  | .tagConflict => h.tagConflict
  | .linkLoss => false
  | .riderReport => false
  | .batteryLow => false
  | .lineFailed => false

def DockHolds.put (h : DockHolds) (k : FaultKind) (b : Bool) : DockHolds :=
  match k with
  | .lockJam => { h with lockJam := b }
  | .sensor => { h with sensor := b }
  | .chatter => { h with chatter := b }
  | .forcedRemoval => { h with forcedRemoval := b }
  | .tagUnread => { h with tagUnread := b }
  | .tagConflict => { h with tagConflict := b }
  | .linkLoss => h
  | .riderReport => h
  | .batteryLow => h
  | .lineFailed => h

def BikeHolds.has (h : BikeHolds) : FaultKind → Bool
  | .riderReport => h.riderReport
  | .batteryLow => h.batteryLow
  | .lockJam => false
  | .sensor => false
  | .chatter => false
  | .forcedRemoval => false
  | .linkLoss => false
  | .tagUnread => false
  | .tagConflict => false
  | .lineFailed => false

def BikeHolds.put (h : BikeHolds) (k : FaultKind) (b : Bool) : BikeHolds :=
  match k with
  | .riderReport => { h with riderReport := b }
  | .batteryLow => { h with batteryLow := b }
  | .lockJam => h
  | .sensor => h
  | .chatter => h
  | .forcedRemoval => h
  | .linkLoss => h
  | .tagUnread => h
  | .tagConflict => h
  | .lineFailed => h

/-- The subject a kind is raised on, by the table of 8.1. -/
def FaultSubject.fits : FaultSubject → FaultKind → Bool
  | .dock _, k => k == .lockJam || k == .sensor || k == .chatter || k == .forcedRemoval || k == .linkLoss
      || k == .tagUnread || k == .tagConflict
  | .bike _, k => k == .riderReport || k == .batteryLow
  | .terminal _, k => k == .lineFailed

/-- The dock kinds that a SERVICE tap clears (R58, R161). -/
def clearableKinds : List FaultKind := [.lockJam, .sensor, .chatter, .forcedRemoval, .tagUnread, .tagConflict]

/-- A SERVICE tap at this dock is a hold clear (R58). -/
def DockRecord.clearable (r : DockRecord) : Bool :=
  clearableKinds.any r.dockHolds.has || r.bikeHolds.riderReport

/-! ### The effective service level (R29) -/

def Level.rank : Level → Nat
  | .closed => 0
  | .returnOnly => 1
  | .full => 2

def Level.lowest (a b : Level) : Level := if a.rank ≤ b.rank then a else b

def Level.below (a b : Level) : Bool := a.rank < b.rank

/-- The caps of R29 that hold for every dock. -/
def DockCaps.cap (c : DockCaps) : Level :=
  if c.station = .configuring then .closed
  else if c.power = .reserve then .returnOnly
  else if c.hostLost ∧ c.action = .restrict then .returnOnly
  else .full

/-- The caps of R29 that the two hold sets set (R35). -/
def DockRecord.holdCap (r : DockRecord) : Level :=
  if r.dockHolds.lockJam ∨ r.dockHolds.sensor ∨ r.dockHolds.chatter ∨ r.dockHolds.forcedRemoval then .closed
  else if r.dockHolds.tagUnread ∨ r.dockHolds.tagConflict ∨ r.bikeHolds.riderReport ∨ r.bikeHolds.batteryLow then .returnOnly
  else .full

/-- R29: the lowest of the caps. -/
def DockRecord.level (caps : DockCaps) (r : DockRecord) : Level :=
  Level.lowest r.hostSetting (Level.lowest caps.cap r.holdCap)

/-- The level of a dock as it stands; a dock without a record gives CLOSED. -/
def State.level (s : State) (d : DockNo) : Level :=
  match s.dock? d with
  | some r => r.level s.dock.caps
  | none => .closed

/-- The level a kind of claim needs (R31, R88). -/
def ClaimKind.need : ClaimKind → Level
  | .member => .full
  | .van => .returnOnly
  | .service => .closed

def Level.permits (l : Level) (k : ClaimKind) : Bool := !(l.below k.need)

/-! ### Claims -/

/-- A booked claim (R70). -/
def ClaimState.booked : ClaimState → Bool
  | .reserved => false
  | .releaseSent => true
  | .released => true
  | .relocking => true
  | .jammedOpen => true
  | .orphan => true

/-- RELEASE_SENT, RELEASED or RELOCKING: the states that make a holder ALREADY (R54, R73). -/
def ClaimState.releasing : ClaimState → Bool
  | .releaseSent => true
  | .released => true
  | .relocking => true
  | .reserved => false
  | .jammedOpen => false
  | .orphan => false

def State.bookedAt (s : State) (d : DockNo) : Bool :=
  match s.claimOn d with
  | some c => c.state.booked
  | none => false

/-- The card is holder of a claim in RELEASE_SENT, RELEASED or RELOCKING, at another dock than `but` (R54, R83). -/
def State.releasingHolder (s : State) (card : CardId) (but : Option DockNo := none) : Bool :=
  s.release.claims.any fun c => c.state.releasing && c.holder == some card && some c.dock != but

/-- A request other than that of dock `but` holds the card (R74). -/
def State.heldHolder (s : State) (card : CardId) (but : Option DockNo := none) : Bool :=
  s.release.requests.any fun q => q.holder == card && some q.dock != but

/-! ### Slots (R11, R37) -/

def DockRecord.effOpen (r : DockRecord) : Bool := r.commanded == .opened || r.acknowledged == .opened

/-- R37: the dock's slot is wanted OPEN. -/
def State.wantsOpen (s : State) (d : DockNo) : Bool :=
  match s.dock? d with
  | none => false
  | some r =>
    s.dock.caps.station == .serving && (r.level s.dock.caps != .closed)
      && (r.occupancy == .empty || s.bookedAt d)

/-! ### The lamp (R43) -/

def State.lampOf (s : State) (d : DockNo) (r : DockRecord) : Lamp :=
  let c := s.claimOn d
  if r.link ≠ .online then .off
  else if c.any (fun c => c.state == .released) then .flash
  else if c.any (fun c => c.kind == .van && c.state == .reserved) then .white
  else if r.occupancy = .occupied ∧ r.lock = .locked ∧ r.bike.isSome ∧ c.isNone ∧ r.level s.dock.caps = .full then .green
  else if r.occupancy = .empty ∧ r.commanded = .opened then .amber
  else .red

/-! ### Cards (R47) -/

/-- The Station Clock is set and at or after a time. -/
def State.clockReached (s : State) (t : ClockTime) : Bool := !s.store.clockUnset && t ≤ s.store.clock

def State.expired (s : State) (r : CardRecord) : Bool :=
  match r.expiry with
  | none => false
  | some t => s.clockReached t

def State.cardRoom (s : State) : Nat := s.store.layout.journalBase

/-- Step 6 applies (R55) and a charge is due (R59): a MEMBER record with the link LOST or of origin PROVISIONAL. -/
def State.offlineCard (s : State) (r : CardRecord) : Bool :=
  r.role == .member && (s.host.lost || r.origin == .provisional)

/-! ### Orders (R132, R139 to R141) -/

/-- An order is eligible (R132). -/
def State.orderEligible (s : State) (o : Order) : Bool :=
  o.state == .queued && (match o.notBefore with | none => true | some t => s.clockReached t)

def State.orderOf (s : State) (id : OrderId) : Option Order := s.order.queue.find? (fun o => o.id == id)

/-- A van session is OPEN. -/
def State.sessionOpen (s : State) : Bool := s.order.session.any (fun v => v.state == .opened)

/-- R139: quantity - done - awaiting count of the bound order. -/
def State.target (s : State) (v : VanSession) : Nat :=
  match s.orderOf v.order with
  | some o => o.quantity - o.done - v.awaiting
  | none => 0

/-- The bike in a dock matches an order's class (R140). -/
def DockRecord.matchesClass (r : DockRecord) : OrderClass → Bool
  | .standard => r.bike.any (fun b => b.cls == .standard)
  | .electric => r.bike.any (fun b => b.cls == .electric)
  | .any => true
  | .held => r.bikeHolds.riderReport || r.bikeHolds.batteryLow || r.dockHolds.tagUnread || r.dockHolds.tagConflict

/-- Eligible for reservation in a session of this order (R140, R141). -/
def State.reservable (s : State) (o : Order) (d : DockNo) : Bool :=
  match s.dock? d with
  | none => false
  | some r =>
    r.link == .online && (s.claimOn d).isNone && (r.level s.dock.caps != .closed)
      && (match o.kind with
          | .collect => r.occupancy == .occupied && r.lock == .locked && r.matchesClass o.cls
          | .deliver => r.occupancy == .empty && r.effOpen)

/-- VAN claims not in ORPHAN state (R139). -/
def State.vanClaims (s : State) : Nat :=
  (s.release.claims.filter fun c => c.kind == .van && c.state != .orphan).length

/-! ### The allocator (R89, R90) -/

/-- Eligible for a member release of a class (4.10). -/
def State.hireable (s : State) (k : BikeClass) (d : DockNo) : Bool :=
  match s.dock? d with
  | none => false
  | some r =>
    r.link == .online && (s.claimOn d).isNone && (s.requestOn d).isNone && r.occupancy == .occupied
      && r.lock == .locked && r.bike.any (fun b => b.cls == k) && r.level s.dock.caps == .full

def State.classAvailable (s : State) (k : BikeClass) : Bool := (List.range s.dockCount).any (s.hireable k)

/-- How far a dock's insertion order lies behind the insertion counter, wrapped (R90). -/
def State.standing (s : State) (d : DockNo) : Nat :=
  match s.dock? d with
  | none => 0
  | some r => (s.dock.insertionCounter - r.insertionOrder).toNat

/-- The first of a list whose measure is largest. -/
def firstLargest (f : α → Nat) : List α → Option α
  | [] => none
  | a :: as =>
    match firstLargest f as with
    | none => some a
    | some b => if f b ≤ f a then some a else some b

/-! ### The journal's counts (R121) -/

/-- The places of one dock in the return reserve beside that of its claim (R121). -/
def DockAccount.own (a : DockAccount) : Nat :=
  (if a.owed then 1 else 0)
    + (match a.occupancy with
       | .unknown => 0
       | .empty => if a.slotOpen then 1 else 0
       | .occupied => if a.slotOpen ∧ ¬ a.booked ∧ ¬ a.owed then 1 else 0)

/-- What one dock adds to the return reserve, by the Journal Unit's account (R121; log 6): a claim whose bike is told gone has no
place beside that of the dock it left. -/
def DockAccount.reserve (a : DockAccount) : Nat :=
  if a.booked ∧ a.passed then max 1 a.own else a.own + (if a.booked then 1 else 0)

def State.journalSize (s : State) : Nat := s.store.layout.faultBase - s.store.layout.journalBase

/-- U. -/
def Journal.used (j : Journal) : Nat := j.entries.length

/-- B. -/
def Journal.bookedEntries (j : Journal) : Nat :=
  (j.account.filter (fun a => a.booked)).length + (if j.vanBooked then 1 else 0) + j.inHand.length

/-- V. -/
def Journal.reserve (j : Journal) : Nat := (j.account.map DockAccount.reserve).sum + j.inHand.length

/-- S: C - U - B - V. -/
def State.slack (s : State) : Int :=
  (s.journalSize : Int) - s.journal.used - s.journal.bookedEntries - s.journal.reserve

/-! ### Positions in the journal (R127) -/

/-- Steps back from `n` to `x` along the numbering 1 to 4294967295. -/
def distanceBehind (n x : SeqNo) : Nat :=
  if x.toNat ≤ n.toNat then n.toNat - x.toNat else n.toNat + 4294967295 - x.toNat

inductive Position | next | held | released | ahead
deriving DecidableEq, Repr

def State.position (s : State) (x : SeqNo) : Position :=
  let d := distanceBehind s.store.nextSeq x
  if d = 0 then .next
  else if d ≤ s.journal.used then .held
  else if d ≤ 2147483647 then .released
  else .ahead

/-- The number after a sequence number, with the wrap to 1 (R116). -/
def seqAfter (n : SeqNo) : SeqNo := if n = 0xFFFFFFFF then 1 else n + 1

/-- The oldest entry held, or the next number when none is (R128). -/
def State.oldestSeq (s : State) : SeqNo :=
  match s.journal.entries with
  | e :: _ => e.seq
  | [] => s.store.nextSeq

/-! ### Faults -/

def State.faultRoom (s : State) : Nat := Config.storeSlots - s.store.layout.faultBase

def State.faultOf (s : State) (subject : FaultSubject) (kind : FaultKind) : Option FaultRecord :=
  s.fault.table.find? fun r => r.subject == subject && r.kind == kind

/-! ### Notices -/

def NoticeKind.bit (k : NoticeKind) : Half := BitVec.ofNat 16 (2 ^ Code.notice k)

def NoticeKind.inSet (k : NoticeKind) (set : Half) : Bool := set &&& k.bit != 0

/-! ### Settings and layout (R183 to R185) -/

/-- R185: every field in its range, H at most T - 10, CUTOFF + hysteresis below LOW. -/
def Settings.valid (x : Settings) : Bool :=
  (10 ≤ x.takeWindow && x.takeWindow ≤ 120) && x.grace ≤ 600 && x.reportWindow ≤ 300
    && (2 ≤ x.authWait && x.authWait ≤ 30) && (15 ≤ x.terminalIdle && x.terminalIdle ≤ 180)
    && (60 ≤ x.vanIdle && x.vanIdle ≤ 1800) && (5 ≤ x.crewWindow && x.crewWindow ≤ 60)
    && (10 ≤ x.silenceLimit && x.silenceLimit ≤ 600) && (20 ≤ x.threshold && x.threshold ≤ 2000)
    && (x.hysteresis + 10 ≤ x.threshold) && (5 ≤ x.batteryLow && x.batteryLow ≤ 50)
    && (8 ≤ x.yellowMargin && x.yellowMargin ≤ 512) && (32 ≤ x.supplyLow && x.supplyLow ≤ 250)
    && (16 ≤ x.supplyCutoff && x.supplyCutoff ≤ 240) && (2 ≤ x.supplyHysteresis && x.supplyHysteresis ≤ 32)
    && (x.supplyCutoff + x.supplyHysteresis < x.supplyLow)

/-- R184, test 1: dock count 1 to 64, bases multiples of 16, every partition at least its least size. -/
def Layout.valid (l : Layout) : Bool :=
  (1 ≤ l.dockCount && l.dockCount ≤ 64) && l.journalBase % 16 == 0 && l.faultBase % 16 == 0
    && 64 ≤ l.journalBase && (l.journalBase + (l.dockCount + 16) ≤ l.faultBase) && (l.faultBase + 16 ≤ Config.storeSlots)

/-- A pending set is due: its switch time is NOW or reached by a set clock (R186, R187). -/
def State.switchDue (s : State) : Bool :=
  match s.store.pendingSet with
  | none => false
  | some p => match p.switchTime with
    | none => true
    | some t => s.clockReached t

/-- A deadline is reached. -/
def State.reached (s : State) (d : Option Elapsed) : Bool := d.any (fun t => t ≤ s.now)

end Sys2Proof.Machine
end

