-- ==== Sys2Proof/Machine/Ops.lean ====
section
/-! DEFINITION. The shared operations every meaning is written with: one update for each block, handing work on, taking an act,
notices, replies, and telling a dock reader or a terminal. -/

namespace Sys2Proof.Machine

/-! ### One update for each block -/

def State.onHost (s : State) (f : HostLink → HostLink) : State := { s with host := f s.host }
def State.onDocks (s : State) (f : DockUnit → DockUnit) : State := { s with dock := f s.dock }
def State.onCards (s : State) (f : CardUnit → CardUnit) : State := { s with card := f s.card }
def State.onRelease (s : State) (f : ReleaseUnit → ReleaseUnit) : State := { s with release := f s.release }
def State.onTerminal (s : State) (t : TerminalId) (f : Terminal → Terminal) : State :=
  { s with term := s.term.set t (f (s.term.get t)) }
def State.onJournal (s : State) (f : Journal → Journal) : State := { s with journal := f s.journal }
def State.onOrders (s : State) (f : OrderUnit → OrderUnit) : State := { s with order := f s.order }
def State.onFaults (s : State) (f : FaultUnit → FaultUnit) : State := { s with fault := f s.fault }
def State.onSupply (s : State) (f : SupplyMonitor → SupplyMonitor) : State := { s with supply := f s.supply }
def State.onStore (s : State) (f : Store → Store) : State := { s with store := f s.store }

/-- One dock record; a dock without a record is left alone (R1). -/
def State.onDock (s : State) (d : DockNo) (f : DockRecord → DockRecord) : State :=
  s.onDocks fun u => { u with table := u.table.modify d f }

def State.onSession (s : State) (t : TerminalId) (f : Session → Session) : State :=
  s.onTerminal t fun x => { x with session := f x.session }

/-- The van session, when one exists. -/
def State.onVan (s : State) (f : VanSession → VanSession) : State :=
  s.onOrders fun u => { u with session := u.session.map f }

/-! ### Work in flight (R5, R72) -/

/-- Hands work to another block: it reaches that block as an arrival of its own. -/
def State.post (s : State) (i : Instr) : State := { s with inFlight := s.inFlight ++ [i] }

def State.postAll (s : State) (is : List Instr) : State := { s with inFlight := s.inFlight ++ is }

def State.postIf (s : State) (b : Bool) (i : Instr) : State := if b then s.post i else s

/-- The arrival is taken: it is in flight no more. -/
def State.taking (s : State) (i : Instr) : State := { s with inFlight := s.inFlight.erase i }

/-- R142: a placement pass is due while a session is OPEN. -/
def State.postPass (s : State) : State := s.postIf s.sessionOpen .placementPass

/-! ### Frames to the host (R193, R194) -/

def OutFrame.isNotice : OutFrame → Bool
  | .notice _ => true
  | .reply _ _ _ _ => false
  | .cardQuery _ _ _ => false

def OutFrame.isReply : OutFrame → Bool
  | .reply _ _ _ _ => true
  | .notice _ => false
  | .cardQuery _ _ _ => false

/-- The frame at the front is being sent; a NOTICE takes the notice set as its sending begins (R193). -/
def HostLink.beginSending (h : HostLink) : HostLink :=
  match h.outgoing with
  | .notice none :: rest => { h with outgoing := .notice (some h.noticeSet) :: rest }
  | _ => h

def HostLink.send (h : HostLink) (f : OutFrame) : HostLink := { h with outgoing := h.outgoing ++ [f] }

/-- R193: a NOTICE that is due joins the outgoing order unless one stands unsent (log 8). -/
def HostLink.queueNotice (h : HostLink) : HostLink :=
  if h.outgoing.any OutFrame.isNotice then h else h.send (.notice none)

/-- R194: a kind joins the notice set; when the mask enables it a NOTICE is due. -/
def HostLink.join (h : HostLink) (k : NoticeKind) : HostLink :=
  let h' := { h with noticeSet := h.noticeSet ||| k.bit }
  if k.inSet h.noticeMask then h'.queueNotice else h'

def State.join (s : State) (k : NoticeKind) : State := s.onHost (·.join k)

/-- R192: a reply carries the request's kind plus 80h, its tag, the code and the fields. -/
def State.reply (s : State) (kind : Nat) (tag : Byte) (code : ReplyCode) (payload : Payload := .nothing) : State :=
  s.onHost (·.send (.reply (byteOf (kind + 0x80)) tag code payload))

/-! ### Acts -/

/-- One act of a running part: the arrival is taken whole, and sending begins on what it produced. A part that is stopped
takes no arrival (R173, R174, R176, R177; log 4). -/
def act (i : Instr) (s : State) (f : State → State) : Host.Outcome State Fault Refusal :=
  .next (if s.phase = .running then (f (s.taking i)).onHost HostLink.beginSending else s)

/-- A request that has been taken: its body is examined first (R192), and a refusal has no effect. -/
def request (i : Instr) (kind : Nat) (tag : Byte) (s : State) (fields : Except ReplyCode α) (f : α → State → State) :
    Host.Outcome State Fault Refusal :=
  act i s fun s =>
    match fields with
    | .error code => s.reply kind tag code
    | .ok a => f a s

/-! ### Dock readers and terminals -/

/-- R12: the value becomes the dock's waiting reader result, replacing any that waits. -/
def State.readerWaits (s : State) (d : DockNo) (r : ReaderResult) : State :=
  (s.onDock d fun x => { x with readerResult := some r }).onDocks fun u =>
    { u with poll := u.poll.map fun p => if p.dock = d then { p with superseded := true } else p }

/-- R12: the block that finishes deciding a tap returns its result, which clears the pending check. -/
def State.readerDecided (s : State) (d : DockNo) (r : ReaderResult) : State :=
  (s.onDock d fun x => { x with checkPending := false }).readerWaits d r

/-- R100: a record is sent only while the line is UP. -/
def State.sendTerminal (s : State) (t : TerminalId) (r : TermRecord) : State :=
  s.onTerminal t fun x => if x.line = .up then { x with out := x.out ++ [r] } else x

/-- A result goes to its place: to the dock's reader at once (R12), to the terminal session as an arrival (R105). -/
def State.tellPlace (s : State) (p : Place) (r : CheckResult) : State :=
  match p with
  | .reader d => s.readerDecided d (match r with
      | .deny why => .deny why
      | .member _ _ _ => .allow
      | .vanOpened => .allow
      | .vanClosed => .allow)
  | .terminal t attempt => s.post (.checkResultAtSession t attempt r)

def State.denyPlace (s : State) (p : Place) (why : DenyReason) : State := s.tellPlace p (.deny why)

/-! ### Faults and time stamps -/

/-- A raise is handed to the Fault Unit (R5, R157). -/
def State.raise (s : State) (subject : FaultSubject) (kind : FaultKind) (dock : Option DockNo) (carried : Carried := .nothing) :
    State :=
  s.post (.faultRaise subject kind dock carried)

/-- LOCK_JAM carries the claim as it stood just before the event that raised it (R155). -/
def State.raiseLockJam (s : State) (c : Claim) : State :=
  s.raise (.dock c.dock) .lockJam (some c.dock) (.claim c.kind c.state c.holder)

/-! ### Claims as data (R70, R72) -/

/-- The claim of a dock is changed in place. -/
def State.onClaim (s : State) (d : DockNo) (f : Claim → Claim) : State :=
  s.onRelease fun u => { u with claims := u.claims.map fun c => if c.dock = d then f c else c }

def State.addClaim (s : State) (c : Claim) : State := s.onRelease fun u => { u with claims := u.claims ++ [c] }

def State.removeClaim (s : State) (d : DockNo) : State :=
  s.onRelease fun u => { u with claims := u.claims.filter fun c => c.dock != d }

def State.setCommand (s : State) (d : DockNo) (c : LockCommand) : State := s.onDock d fun r => { r with command := c }

/-- The Journal Unit's account of one dock. -/
def State.onAccount (s : State) (d : DockNo) (f : DockAccount → DockAccount) : State :=
  s.onJournal fun j => { j with account := j.account.modify d f }

end Sys2Proof.Machine
end

