-- ==== Sys2Proof/Machine/Access.lean ====
section
/-! DEFINITION. Service levels at work (chapter 2): the slot rules, the lamp, displacement, and what a changed level brings, with
the two notices that make the Dock Controller take a dock again. -/

namespace Sys2Proof.Machine

/-- The lamp is derived again (R43). -/
def State.relamp (s : State) (d : DockNo) : State := s.onDock d fun r => { r with lamp := s.lampOf d r }

/-- A change of a dock's slot modes; the Journal Unit is told when effective openness changes (R11), and an open van session
takes the change (R142). -/
def State.changeSlot (s : State) (d : DockNo) (f : DockRecord → DockRecord) : State :=
  match s.dock? d with
  | none => s
  | some r =>
    let s' := s.onDock d f
    if (f r).effOpen = r.effOpen then s'
    else (s'.post (.journalCountNotice d (.slot (f r).effOpen))).postPass

/-- R38 to R41: the dock's slot want is taken, and the commanded mode given effect to it. -/
def State.takeSlot (s : State) (d : DockNo) : State :=
  match s.dock? d with
  | none => s
  | some r =>
    if s.wantsOpen d then
      if r.commanded = .opened ∨ r.withheld then s
      else if r.acknowledged = .opened ∨ s.bookedAt d then s.changeSlot d fun r => { r with commanded := .opened }
      else (s.onDock d fun r => { r with withheld := true }).post (.journalWithheldNotice d true)
    else
      let s1 := if r.withheld then
          (s.onDock d fun r => { r with withheld := false }).post (.journalWithheldNotice d false) else s
      if r.commanded = .opened then s1.changeSlot d fun r => { r with commanded := .shut } else s1

/-- A claim leaves the table, which is told to the Dock Controller (R72) and to an open van session (R142). -/
def State.endClaim (s : State) (d : DockNo) : State := ((s.removeClaim d).post (.dockClaimNotice d)).postPass

/-- R86: a RESERVED claim ends DROPPED, and the Order Unit is told. -/
def State.dropClaim (s : State) (c : Claim) (news : VanNews) : State :=
  (s.endClaim c.dock).post (.vanClaimNotice c.dock (c.order.getD 0) news)

/-- R88: the claim the dock carries is compared with the dock's level. -/
def State.displace (s : State) (d : DockNo) : State :=
  match s.claimOn d with
  | none => s
  | some c =>
    if (s.level d).permits c.kind then s
    else match c.state with
      | .reserved => s.dropClaim c .droppedByEvent
      | .releaseSent =>
        ((s.onClaim d fun c => { c with state := .relocking, deadline := some (s.now + Config.lockLimit) }).setCommand d .relock).post
          (.dockClaimNotice d)
      | .released => s
      | .relocking => s
      | .jammedOpen => s
      | .orphan => s

/-- R30: what follows when a dock's level is derived again and differs from the level `before`. -/
def State.takeLevel (s : State) (d : DockNo) (before : Level) : State :=
  let after := s.level d
  if after = before then s
  else
    let s1 := s.takeSlot d
    let s2 := if after.below before then s1.displace d else s1.postPass
    s2.relamp d

/-- R30: an input of the dock's level changes. -/
def State.changeInput (s : State) (d : DockNo) (f : State → State) : State := (f s).takeLevel d (s.level d)

/-- R30: one input change concerns every configured dock, taken in dock-number order. -/
def State.changeCaps (s : State) (f : DockCaps → DockCaps) : State :=
  let before := (List.range s.dockCount).map s.level
  before.zipIdx.foldl (fun s p => s.takeLevel p.2 p.1) (s.onDocks fun u => { u with caps := f u.caps })

/-- What the Dock Controller is told (R32, R33, R34). -/
def CapChange.apply (c : CapChange) (caps : DockCaps) : DockCaps :=
  match c with
  | .station st => { caps with station := st }
  | .power p => { caps with power := p }
  | .hostLink lost => { caps with hostLost := lost }
  | .silenceAction a => { caps with action := a }

/-! ### Meanings -/

/-- DOCK_CAP_CHANGE (R30, R32 to R34). -/
def execDockCapChange (c : CapChange) (s : State) : Host.Outcome State Fault Refusal :=
  act (.dockCapChange c) s fun s => s.changeCaps c.apply

/-- DOCK_CLAIM_NOTICE (R37, R43, R72): the slot want and the lamp are taken again. -/
def execDockClaimNotice (d : DockNo) (s : State) : Host.Outcome State Fault Refusal :=
  act (.dockClaimNotice d) s fun s => (s.takeSlot d).relamp d

/-- DISPLACEMENT (R88): the dock's level is compared with what its claim needs. -/
def execDisplacement (d : DockNo) (s : State) : Host.Outcome State Fault Refusal :=
  act (.displacement d) s fun s => s.displace d

end Sys2Proof.Machine
end

