-- ==== Sys2Proof/Machine/Operands.lean ====
section
/-! DEFINITION. The operand forms of the commands: the body of each request (R192, 11.7, and the order of fields its owning rule
lists), and the dock report's bytes (11.7, R3). A body of the wrong length is BAD_LENGTH, a presence byte or outcome
outside its values BAD_FIELD, and a field outside its coded range BAD_FIELD. -/

namespace Sys2Proof.Machine

namespace Operands

/-- A body of a fixed length. -/
def fixed (n : Nat) (body : List Byte) (f : List Byte → Except ReplyCode α) : Except ReplyCode α :=
  if body.length = n then f body else .error .badLength

/-- A body whose presence byte at `offset` says whether `extra` bytes more are required (R192 step 2). -/
def optional (offset without extra : Nat) (body : List Byte) (f : Bool → List Byte → Except ReplyCode α) : Except ReplyCode α :=
  if body.length ≤ offset then .error .badLength
  else match fieldAt body offset 1 with
    | 0 => if body.length = without then f false body else .error .badLength
    | 1 => if body.length = without + extra then f true body else .error .badLength
    | _ => .error .badField

/-- A coded value, or BAD_FIELD when it is outside its range (11.7). -/
def coded (v : Option α) : Except ReplyCode α :=
  match v with
  | some a => .ok a
  | none => .error .badField

/-- A test of a field. -/
def demand (b : Bool) : Except ReplyCode Unit := if b then .ok () else .error .badField

/-- A request that carries no fields. -/
def empty (body : List Byte) : Except ReplyCode Unit := fixed 0 body fun _ => .ok ()

/-- NOTICE_MASK (R195): 16 bits, bits 12 to 15 clear. -/
def noticeMask (body : List Byte) : Except ReplyCode Half :=
  fixed 2 body fun b => do
    demand (halfAt b 0 &&& 0xF000 == 0)
    return halfAt b 0

/-- TIME_SET (R189). -/
def timeSet (body : List Byte) : Except ReplyCode ClockTime := fixed 4 body fun b => .ok (wordAt b 0)

/-- LAYOUT_SET (R184), with its first test. -/
def layoutSet (body : List Byte) : Except ReplyCode Layout :=
  fixed 5 body fun b => do
    let l : Layout := { dockCount := fieldAt b 0 1, journalBase := fieldAt b 1 2, faultBase := fieldAt b 3 2 }
    demand l.valid
    return l

/-- The fields of a settings set, from an offset on, in the order of R185. -/
def settingsAt (b : List Byte) (o : Nat) : Except ReplyCode Settings := do
  let action ← coded (Code.silenceAction? (fieldAt b (o + 12) 1))
  let rule ← coded (Code.unknownCardRule? (fieldAt b (o + 13) 1))
  let x : Settings :=
    { takeWindow := fieldAt b o 1, grace := fieldAt b (o + 1) 2, reportWindow := fieldAt b (o + 3) 2,
      authWait := fieldAt b (o + 5) 1, terminalIdle := fieldAt b (o + 6) 1, vanIdle := fieldAt b (o + 7) 2,
      crewWindow := fieldAt b (o + 9) 1, silenceLimit := fieldAt b (o + 10) 2, silenceAction := action,
      unknownCard := rule, threshold := fieldAt b (o + 14) 2, hysteresis := fieldAt b (o + 16) 2,
      batteryLow := fieldAt b (o + 18) 1, yellowMargin := fieldAt b (o + 19) 2, tariff := halfAt b (o + 21),
      supplyLow := fieldAt b (o + 23) 1, supplyCutoff := fieldAt b (o + 24) 1, supplyHysteresis := fieldAt b (o + 25) 1 }
  demand x.valid
  return x

/-- SETTINGS_STAGE (R186): the switch time, absent for NOW (log 15), then every field of a set. -/
def settingsStage (body : List Byte) : Except ReplyCode PendingSettings :=
  optional 0 27 4 body fun present b => do
    let x ← settingsAt b (if present then 5 else 1)
    return { settings := x, switchTime := if present then some (wordAt b 1) else none }

/-- DOCK_GET (R198): a dock number. -/
def dockNumber (body : List Byte) : Except ReplyCode DockNo := fixed 1 body fun b => .ok (fieldAt b 0 1)

/-- DOCK_SET_SERVICE (R42). -/
def dockSetService (body : List Byte) : Except ReplyCode (DockNo × Level) :=
  fixed 2 body fun b => do
    let l ← coded (Code.level? (fieldAt b 1 1))
    return (fieldAt b 0 1, l)

/-- The card record of 11.7 at an offset, with its origin ignored, passed by the tests of R48. Origin and stamp are set by the
rule that installs it. -/
def cardAt (b : List Byte) (o : Nat) (present : Bool) : Except ReplyCode CardRecord := do
  let role ← coded (Code.role? (fieldAt b (o + 4) 1))
  let standing ← coded (Code.standing? (fieldAt b (o + 5) 1))
  let rights ← coded (Code.rights? (fieldAt b (o + 6) 1))
  let r : CardRecord :=
    { card := wordAt b o, role := role, standing := standing, rights := rights, credit := fieldAt b (o + 7) 1,
      used := fieldAt b (o + 8) 1, origin := .host, expiry := if present then some (wordAt b (o + 11)) else none, stamp := 0 }
  demand (r.card != 0)
  demand (r.card.msb == (r.role == .pass))
  demand (r.role != .pass || r.expiry.isSome)
  demand (r.used ≤ r.credit)
  demand (r.credit ≤ 15)
  return r

/-- CARD_PUT (R48). -/
def cardPut (body : List Byte) : Except ReplyCode CardRecord := optional 10 11 4 body fun present b => cardAt b 0 present

/-- CARD_GET and CARD_DROP (R49): a card id. Id 0 is let through, to be answered NOT_FOUND, the model's choice (log 51). -/
def cardId (body : List Byte) : Except ReplyCode CardId := fixed 4 body fun b => .ok (wordAt b 0)

/-- The outcome of a verdict (R68); an ADMIT record is examined only once the query and the card id agree. -/
inductive Outcome | grant (record : Except ReplyCode CardRecord) | bar | nothing
deriving DecidableEq, Repr

/-- CARD_VERDICT (R68): query tag, card id, outcome, and for ADMIT a record. -/
structure Verdict where
  queryTag : Byte
  card : CardId
  outcome : Outcome
deriving DecidableEq, Repr

/-- The query tag and the card id of a verdict, each tested against its range (R68, R192; log 31). -/
def verdictHead (b : List Byte) : Except ReplyCode (Byte × CardId) := do
  demand (byteOf (fieldAt b 0 1) != 0)
  demand (wordAt b 1 != 0)
  return (byteOf (fieldAt b 0 1), wordAt b 1)

def cardVerdict (body : List Byte) : Except ReplyCode Verdict :=
  if body.length < 6 then .error .badLength
  else match fieldAt body 5 1 with
    | 0 => optional 16 17 4 body fun present b => (verdictHead b).map fun h => ⟨h.1, h.2, .grant (cardAt b 6 present)⟩
    | 1 => fixed 6 body fun b => (verdictHead b).map fun h => ⟨h.1, h.2, .bar⟩
    | 2 => fixed 6 body fun b => (verdictHead b).map fun h => ⟨h.1, h.2, .nothing⟩
    | _ => .error .badField

/-- JOURNAL_READ (R128): from, max. -/
def journalRead (body : List Byte) : Except ReplyCode (SeqNo × Nat) :=
  fixed 5 body fun b => do
    demand (wordAt b 0 != 0)
    demand (1 ≤ fieldAt b 4 1 && fieldAt b 4 1 ≤ 16)
    return (wordAt b 0, fieldAt b 4 1)

/-- JOURNAL_RELEASE (R129): through. -/
def journalRelease (body : List Byte) : Except ReplyCode SeqNo :=
  fixed 4 body fun b => do
    demand (wordAt b 0 != 0)
    return wordAt b 0

/-- ORDER_ADD (R133). -/
def orderAdd (body : List Byte) : Except ReplyCode Order :=
  optional 5 6 4 body fun present b => do
    let kind ← coded (Code.orderKind? (fieldAt b 2 1))
    let cls ← coded (Code.orderClass? (fieldAt b 3 1))
    demand (halfAt b 0 != 0)
    demand (1 ≤ fieldAt b 4 1 && fieldAt b 4 1 ≤ 64)
    demand (!(kind == .deliver && cls == .held))
    return { id := halfAt b 0, kind := kind, cls := cls, quantity := fieldAt b 4 1,
             notBefore := if present then some (wordAt b 6) else none, state := .queued, done := 0 }

/-- ORDER_CANCEL (R134): an order id. Id 0 is let through, to be answered NOT_FOUND, the model's choice (log 51). -/
def orderId (body : List Byte) : Except ReplyCode OrderId := fixed 2 body fun b => .ok (halfAt b 0)

/-- FAULT_LIST (R166): selection (true for NEW), skip, max. -/
def faultList (body : List Byte) : Except ReplyCode (Bool × Nat × Nat) :=
  fixed 4 body fun b => do
    demand (fieldAt b 0 1 ≤ 1)
    demand (fieldAt b 1 2 ≤ 4095)
    demand (1 ≤ fieldAt b 3 1 && fieldAt b 3 1 ≤ 16)
    return (fieldAt b 0 1 == 1, fieldAt b 1 2, fieldAt b 3 1)

/-- FAULT_ACK and FAULT_CLEAR (R165, R162): a subject, coded as in the fault record of 11.7 (log 15), and a kind. The
grounds of BAD_FIELD are those of R162. -/
def faultName (s : State) (body : List Byte) : Except ReplyCode (FaultSubject × FaultKind) :=
  fixed 6 body fun b => do
    let kind ← coded (Code.faultKind? (fieldAt b 5 1))
    let subject : FaultSubject ← match fieldAt b 0 1 with
      | 0 => if fieldAt b 1 4 < s.dockCount then .ok (.dock (fieldAt b 1 4)) else .error .badField
      | 1 => if wordAt b 1 = 0 then .error .badField else .ok (.bike (wordAt b 1))
      | 2 => (coded (Code.terminal? (fieldAt b 1 4))).map FaultSubject.terminal
      | _ => .error .badField
    demand (subject.fits kind)
    return (subject, kind)

/-- TERMINAL_GET and TERMINAL_ENABLE (R114, R99): a terminal 0 to 3. -/
def terminal (body : List Byte) : Except ReplyCode TerminalId :=
  fixed 1 body fun b => coded (Code.terminal? (fieldAt b 0 1))

end Operands

/-! ### The dock report (R3, 11.7) -/

/-- A report's fields, once its check and ranges are good. -/
structure DockReport where
  dock : DockNo
  lock : LockState
  slot : SlotMode
  sense : Nat
  tag : Option Bike
  tap : Option CardId
  presses : Nat
  battery : Option Nat
  emptyRef : Nat
  poweredUp : Bool
deriving DecidableEq, Repr

/-- The tag field: 0 is no tag, and otherwise the class must be a listed value (R3). -/
def reportTag (b : List Byte) : Option (Option Bike) :=
  if wordAt b 5 = 0 then some none
  else (Code.bikeClass? (fieldAt b 9 1)).map fun k => some ⟨wordAt b 5, k⟩

/-- The battery field: FFh for none, else 0 to 100 (R3). -/
def reportBattery (b : List Byte) : Option (Option Nat) :=
  if fieldAt b 15 1 = 255 then some none
  else if fieldAt b 15 1 ≤ 100 then some (some (fieldAt b 15 1)) else none

/-- R3: the report when its check is good and every field is in range; `none` for a report that makes the poll missed. The power-up flag
is 1 when set and 0 when clear, the model's choice (log 15). -/
def readReport (b : List Byte) : Option DockReport := do
  guard (b.length = 21)
  guard (crc16 (b.take 19) = halfAt b 19)
  let lock ← Code.lock? (fieldAt b 1 1)
  let slot ← Code.slot? (fieldAt b 2 1)
  guard (fieldAt b 3 2 ≤ 4095)
  let tag ← reportTag b
  guard (fieldAt b 14 1 ≤ 15)
  let battery ← reportBattery b
  guard (fieldAt b 16 2 ≤ 4095)
  guard (fieldAt b 18 1 ≤ 1)
  return { dock := fieldAt b 0 1, lock := lock, slot := slot, sense := fieldAt b 3 2, tag := tag,
           tap := if wordAt b 10 = 0 then none else some (wordAt b 10), presses := fieldAt b 14 1, battery := battery,
           emptyRef := fieldAt b 16 2, poweredUp := fieldAt b 18 1 == 1 }

/-! ### Terminal records (R98, 11.7) -/

/-- The row that the bytes of a terminal record stand for: start byte A5h, kind, length, fields, check. A framing error, a
length above 16 or a bad check makes a bad record; an unknown kind, a length that is not its kind's, or a field out of range
makes a record discarded. Bytes without the start byte, or more or fewer than their length says, are a bad record too: the
model's choice (log 29). -/
def readTerminalRecord (t : TerminalId) (framingError : Bool) (b : List Byte) : Instr :=
  let n := fieldAt b 2 1
  if framingError ∨ fieldAt b 0 1 ≠ 0xA5 ∨ 16 < n ∨ b.length ≠ 4 + n ∨ (b.drop 1).foldl (· + ·) 0 ≠ 0 then .terminalBadRecord t
  else match fieldAt b 1 1, n with
    | 1, 0 => .terminalHello t
    | 2, 4 => if wordAt b 3 = 0 then .terminalRecordDiscarded t else .terminalTap t (wordAt b 3)
    | 3, 9 => .terminalPaid t (wordAt b 3) (byteOf (fieldAt b 7 1)) (wordAt b 8)
    | 4, 1 => match Code.bikeClass? (fieldAt b 3 1) with
      | some k => .terminalPick t k
      | none => .terminalRecordDiscarded t
    | 5, 0 => .terminalCancel t
    | _, _ => .terminalRecordDiscarded t

end Sys2Proof.Machine
end

