-- ==== Sys2Proof/Machine/Docks.lean ====
section
/-! DEFINITION. The Dock Controller (chapter 1): the choice of a poll, an answered report in its nine steps, a missed poll, the
windows, and the two requests that name a dock. -/

namespace Sys2Proof.Machine

/-! ### The arbiter (R4) -/

/-- The dock unit is taken to answer: only such a dock can be urgent (R4). -/
def LinkState.answers : LinkState → Bool
  | .online => true
  | .silent => true
  | .joining _ => true
  | .absent => false
  | .lost => false
  | .stale => false

/-- R4: the dock is urgent. -/
def DockRecord.urgent (r : DockRecord) : Bool :=
  r.link.answers && (r.command != .none || r.commanded != r.acknowledged || r.readerResult.isSome)

/-- The dock numbers in the order an urgent poll looks at them: after the urgent position, wrapping, or from dock 0. -/
def urgentOrder (n : Nat) : Option DockNo → List DockNo
  | none => List.range n
  | some p => (List.range n).drop (p + 1) ++ (List.range n).take (p + 1)

/-- The first urgent dock (R4). -/
def DockUnit.urgentDock (u : DockUnit) : Option DockNo :=
  (urgentOrder u.table.length u.urgentPos).find? fun d => u.table[d]?.any DockRecord.urgent

/-- R4: the dock of the next poll, with the positions and the run moved. -/
def DockUnit.choose (u : DockUnit) : DockNo × DockUnit :=
  match if u.urgentRun < 2 then u.urgentDock else none with
  | some d => (d, { u with urgentPos := some d, urgentRun := u.urgentRun + 1 })
  | none =>
    (u.rotation, { u with rotation := if u.rotation + 1 < u.table.length then u.rotation + 1 else 0, urgentRun := 0 })

/-- The poll frame's contents (R3). -/
def DockRecord.poll (r : DockRecord) (d : DockNo) : Poll :=
  { dock := d, command := r.command, mode := r.commanded, lamp := r.lamp, result := r.readerResult, superseded := false }

/-- DOCK_POLL (R3, R4): a poll begins once the previous one has ended. -/
def execDockPoll (s : State) : Host.Outcome State Fault Refusal :=
  act .dockPoll s fun s =>
    if s.dock.poll.isSome then s
    else s.onDocks fun u => { u.choose.2 with poll := u.table[u.choose.1]?.map fun r => r.poll u.choose.1 }

/-! ### Changes the Order Unit is told of (R142) -/

/-- Two records agree in what R140 and R141 read. -/
def DockRecord.sameView (a b : DockRecord) : Bool :=
  a.link == b.link && a.occupancy == b.occupancy && a.lock == b.lock && a.bike == b.bike && a.dockHolds == b.dockHolds
    && a.bikeHolds == b.bikeHolds && a.effOpen == b.effOpen

/-- The poll ends: the lamp is derived again (R43) and a change that R140 or R141 reads starts a placement pass (R142). -/
def State.endPoll (s : State) (d : DockNo) (before : DockRecord) : State :=
  let s1 := (s.relamp d).onDocks fun u => { u with poll := none }
  if (s1.dock? d).any before.sameView then s1 else s1.postPass

/-! ### Step 1: link state (R6 to R8, R12) -/

/-- R6. -/
def LinkState.answered : LinkState → LinkState
  | .absent => .joining .absent
  | .lost => .joining .lost
  | .stale => .joining .stale
  | .joining _ => .online
  | .silent => .online
  | .online => .online

/-- The report completes a join (R6, R9). -/
def LinkState.completes : LinkState → Bool
  | .joining _ => true
  | .absent => false
  | .online => false
  | .silent => false
  | .lost => false
  | .stale => false

/-- A decision at this report is late (R24): it completes a join of origin LOST or STALE. -/
def LinkState.lateJoin : LinkState → Bool
  | .joining .lost => true
  | .joining .stale => true
  | .joining .absent => false
  | .absent => false
  | .online => false
  | .silent => false
  | .lost => false
  | .stale => false

/-- The record as step 1 leaves it: link, miss count, baseline when unset (R8), and the result the poll carried
delivered (R12). -/
def DockRecord.heard (r : DockRecord) (p : Poll) (emptyRef : Nat) : DockRecord :=
  { r with link := r.link.answered, misses := 0, baseline := some (r.baseline.getD emptyRef),
           readerResult := if p.result.isSome ∧ ¬ p.superseded then none else r.readerResult }

/-! ### Step 2: lock (R10) and step 3: slot (R11) -/

/-- R10: the lock state completes the pending command. -/
def LockCommand.completedBy (c : LockCommand) (l : LockState) : Bool :=
  (c == .release && l == .opened) || (c == .relock && l == .locked)

/-- The lock state and slot mode a report is taken to show (R8). -/
def DockReport.lockSeen (q : DockReport) : LockState := if q.poweredUp then .locked else q.lock
def DockReport.slotSeen (q : DockReport) : SlotMode := if q.poweredUp then .shut else q.slot

def State.stepLock (s : State) (d : DockNo) (l : LockState) : State :=
  match s.dock? d with
  | none => s
  | some r =>
    let done := r.command.completedBy l
    (s.onDock d fun r => { r with lock := l, command := if done then .none else r.command }).postIf
      (decide (r.lock ≠ l) && (s.claimOn d).isSome) (.claimLockChange d l done)

def State.stepSlot (s : State) (d : DockNo) (m : SlotMode) : State := s.changeSlot d fun r => { r with acknowledged := m }

/-! ### Step 4: tag (R21, R22) -/

/-- R21: a tag is wanted. -/
def DockRecord.wantsTag (r : DockRecord) : Bool :=
  r.occupancy == .occupied && r.bike.isNone && !r.dockHolds.tagUnread && !r.dockHolds.tagConflict

/-- The return entry pending, if any, is asked to be written with this bike id, and becomes absent. -/
def State.settleEntry (s : State) (d : DockNo) (bike : Option BikeId) : State :=
  match (s.dock? d).bind (·.returnEntry) with
  | none => s
  | some e =>
    (s.onDock d fun r => { r with returnEntry := none }).post (.journalEntryWrite (.pendingReturn d bike e.late e.crew))

/-- Another dock record holds this bike id. -/
def State.heldElsewhere (s : State) (d : DockNo) (b : BikeId) : Bool :=
  s.dock.table.zipIdx.any fun p => p.2 != d && p.1.bike.any fun x => x.id == b

/-- R21: a wanted tag. -/
def State.takeTag (s : State) (d : DockNo) (b : Bike) (owed : Bool) : State :=
  let s1 := s.onDock d fun r => { r with tagWait := 0 }
  if s.heldElsewhere d b.id then (s1.raise (.dock d) .tagConflict (some d) (.tag b.id)).settleEntry d none
  else
    (((s1.onDock d fun r => { r with bike := some b }).settleEntry d (some b.id)).post (.bikeArrivalNotice d b.id)).post
      (.bikeTakenNotice b.id owed)

/-- R22: a report without a wanted tag. -/
def State.missTag (s : State) (d : DockNo) (r : DockRecord) : State :=
  if r.tagWait + 1 < 3 then s.onDock d fun r => { r with tagWait := r.tagWait + 1 }
  else ((s.onDock d fun r => { r with tagWait := 0 }).raise (.dock d) .tagUnread (some d)).settleEntry d none

def State.stepTag (s : State) (d : DockNo) (tag : Option Bike) : State :=
  match s.dock? d with
  | none => s
  | some r =>
    if r.wantsTag then
      match tag with
      | some b => s.takeTag d b r.returnEntry.isSome
      | none => s.missTag d r
    else s

/-! ### Step 5: presence (R13 to R20, R23, R24) -/

/-- R14: one sixteenth of the way, truncated toward zero. -/
def followBaseline (b x : Nat) : Nat := if b ≤ x then b + (x - b) / 16 else b - (b - x) / 16

inductive Decision | nothing | insertion | removal | firstOccupied | firstEmpty
deriving DecidableEq, Repr

/-- R15, R16: a reading that is not saturated, against the bounds `up` and `low`: the candidate and the decision it leaves. A
candidate set under the bounds of earlier settings counts as any other (log 46). -/
def detect (occ : Occupancy) (cand : Option Side) (x up low : Nat) : Option Side × Decision :=
  match occ with
  | .empty =>
    if up ≤ x then (if cand = some .occupied then (none, .insertion) else (some .occupied, .nothing)) else (none, .nothing)
  | .occupied =>
    if x < low then (if cand = some .empty then (none, .removal) else (some .empty, .nothing)) else (none, .nothing)
  | .unknown =>
    if up ≤ x then (if cand = some .occupied then (none, .firstOccupied) else (some .occupied, .nothing))
    else if x < low then (if cand = some .empty then (none, .firstEmpty) else (some .empty, .nothing))
    else (none, .nothing)

/-- The record as the reading alone leaves it (R13 to R16), and the decision. -/
def DockRecord.sensed (r : DockRecord) (x threshold hysteresis : Nat) : DockRecord × Decision :=
  let b := r.baseline.getD 0
  if x = Config.saturated then
    ({ r with lastSense := some x, saturation := min 3 (r.saturation + 1), candidate := none }, .nothing)
  else
    let q := detect r.occupancy r.candidate x (b + threshold) (b + threshold - hysteresis)
    ({ r with lastSense := some x, saturation := 0, candidate := q.1,
              baseline := if r.occupancy = .empty ∧ x < b + threshold then some (followBaseline b x) else r.baseline }, q.2)

/-- R17: a change of occupancy joins the chatter history, of which the newest 7 within 20 s are kept. -/
def chatterAfter (history : List Elapsed) (now : Elapsed) : List Elapsed :=
  let kept := (history ++ [now]).filter fun t => now ≤ t + Config.chatterSpan
  kept.drop (kept.length - Config.chatterChanges)

def State.noteChatter (s : State) (d : DockNo) : State :=
  let s1 := s.onDock d fun r => { r with chatter := chatterAfter r.chatter s.now }
  if (s1.dock? d).any (fun r => Config.chatterChanges ≤ r.chatter.length) then s1.raise (.dock d) .chatter (some d) else s1

/-- R18: the dock takes the insertion counter's value as its insertion order. -/
def State.takeOrder (s : State) (d : DockNo) : State :=
  (s.onDock d fun r => { r with insertionOrder := s.dock.insertionCounter }).onDocks fun u =>
    { u with insertionCounter := u.insertionCounter + 1 }

/-- R18: the report window opens when its setting is above 0. -/
def State.openReportWindow (s : State) (d : DockNo) : State :=
  if s.settings.reportWindow = 0 then s
  else s.onDock d fun r => { r with reportWindow := some (s.now + s.settings.reportWindow) }

/-- R18: a counted insertion, taking the crew window when one is open. -/
def State.countedInsertion (s : State) (d : DockNo) (r : DockRecord) (late : Bool) : State :=
  let crew := r.crewWindow.map (·.order)
  let s1 := ((s.onDock d fun r =>
    { r with occupancy := .occupied, unrecorded := false, tagWait := 0, returnEntry := some ⟨late, crew⟩,
             crewWindow := none }).takeOrder d).openReportWindow d
  let s2 := (s1.post (.journalCountNotice d .inserted)).postIf (s.claimOn d).isSome (.claimInsertion d crew)
  s2.postIf ((s.claimOn d).any (fun c => c.kind == .van) || crew.isSome) (.crewInsertionNotice d (.inserted crew))

/-- R19: an uncounted insertion raises SENSOR, held or not. -/
def State.uncountedInsertion (s : State) (d : DockNo) : State :=
  let s1 := ((s.onDock d fun r => { r with occupancy := .occupied, unrecorded := true }).takeOrder d).openReportWindow d
  ((s1.post (.journalCountNotice d (.occupancy .occupied))).postIf (s.claimOn d).isSome (.claimInsertion d none)).raise (.dock d)
    .sensor (some d)

/-- R23, step 2: the claim is told, and a removal that no open lock explains is forced. Where both are handed on, the removal
stands before the raise: the hold of the raise would displace a RELEASE_SENT claim, which by R79 the removal ends FAILED
(log 7). -/
def State.tellRemoval (s : State) (d : DockNo) (bike : Option BikeId) : State :=
  match s.claimOn d with
  | none => s.raise (.dock d) .forcedRemoval (some d)
  | some c =>
    let s1 := s.post (.claimRemoval d bike)
    if c.state = .reserved ∨ c.state = .releaseSent then s1.raise (.dock d) .forcedRemoval (some d) else s1

/-- R23: a removal, in its four steps. -/
def State.removal (s : State) (d : DockNo) (r : DockRecord) : State :=
  let bike := r.bike.map (·.id)
  let s1 := ((s.settleEntry d none).tellRemoval d bike).post (.faultRemovalNotice d bike)
  (s1.onDock d fun r =>
    { r with occupancy := .empty, bike := none, battery := none, unrecorded := false, tagWait := 0, reportWindow := none }).post
    (.journalCountNotice d (.occupancy .empty))

/-- The decision of the detector at work; `late` for a late decision (R24). -/
def State.applyDecision (s : State) (d : DockNo) (late : Bool) (q : Decision) : State :=
  match s.dock? d with
  | none => s
  | some r =>
    match q with
    | .nothing => s
    | .insertion =>
      (((if r.effOpen then s.countedInsertion d r late else s.uncountedInsertion d).noteChatter d).takeSlot d)
    | .removal => ((s.removal d r).noteChatter d).takeSlot d
    | .firstOccupied =>
      (((s.onDock d fun r => { r with occupancy := .occupied, returnEntry := none, unrecorded := false }).takeOrder d).post
        (.journalCountNotice d (.occupancy .occupied))).takeSlot d
    | .firstEmpty =>
      ((s.onDock d fun r => { r with occupancy := .empty }).post (.journalCountNotice d (.occupancy .empty))).takeSlot d

/-- R13: the SENSOR test at the end of step 5. -/
def DockRecord.sensorFails (r : DockRecord) : Bool :=
  !r.dockHolds.sensor && (3 ≤ r.saturation || r.baseline.any fun b => b < Config.baselineLow || Config.baselineHigh < b)

def State.testSensor (s : State) (d : DockNo) : State :=
  if (s.dock? d).any DockRecord.sensorFails then s.raise (.dock d) .sensor (some d) else s

def State.stepPresence (s : State) (d : DockNo) (x : Nat) (late : Bool) : State :=
  match s.dock? d with
  | none => s
  | some r =>
    let q := r.sensed x s.settings.threshold s.settings.hysteresis
    ((s.onDock d fun _ => q.1).applyDecision d late q.2).testSensor d

/-! ### Steps 6 to 9 (R9, R25 to R27) -/

/-- R25: a card tap. -/
def State.stepTap (s : State) (d : DockNo) (tap : Option CardId) : State :=
  match tap with
  | none => s
  | some card =>
    let s1 := s.onDock d fun r => { r with lastTap := some ⟨card, s.store.clock, s.store.clockUnset⟩ }
    match s.dock? d with
    | none => s
    | some r =>
      if r.link = .online ∧ ¬ r.checkPending then
        (s1.onDock d fun r => { r with checkPending := true }).post (.cardCheck card (.reader d))
      else s1.readerWaits d (.deny .busy)

/-- R26: a press of the fault button. -/
def State.stepPress (s : State) (d : DockNo) (presses : Nat) : State :=
  match s.dock? d with
  | none => s
  | some r =>
    match r.bike with
    | none => s
    | some b => if 0 < presses ∧ r.reportWindow.isSome then s.raise (.bike b.id) .riderReport (some d) else s

/-- R27: a battery reading. -/
def State.stepBattery (s : State) (d : DockNo) (battery : Option Nat) : State :=
  let s1 := s.onDock d fun r => { r with battery := battery }
  match s.dock? d, battery with
  | some r, some n =>
    match r.bike with
    | none => s1
    | some b =>
      if n < s.settings.batteryLow then
        (if r.bikeHolds.batteryLow then s1 else s1.raise (.bike b.id) .batteryLow (some d))
      else if s.settings.batteryLow + Config.batteryStep ≤ n ∧ r.bikeHolds.batteryLow then
        s1.post (.faultResolution (.bike b.id) .batteryLow (some d))
      else s1
  | _, _ => s1

/-- R9: join completion. -/
def State.stepJoin (s : State) (d : DockNo) (completes : Bool) : State :=
  match completes, s.dock? d with
  | true, some r =>
    (s.post (.faultResolution (.dock d) .linkLoss none)).post (.orphanReconcile d r.occupancy r.lock)
  | _, _ => s

/-- R5: an answered report, in its nine steps. -/
def State.takeReport (s : State) (p : Poll) (r : DockRecord) (q : DockReport) : State :=
  let d := p.dock
  let s1 := s.onDock d fun r => r.heard p q.emptyRef
  let s3 := (s1.stepLock d q.lockSeen).stepSlot d q.slotSeen
  let s5 := (s3.stepTag d q.tag).stepPresence d q.sense r.link.lateJoin
  let s8 := ((s5.stepTap d q.tap).stepPress d q.presses).stepBattery d q.battery
  (s8.stepJoin d r.link.completes).endPoll d r

/-! ### Missed polls (R7) -/

/-- R7: the link state and the miss count after a missed poll. -/
def LinkState.missed (l : LinkState) (misses : Nat) : LinkState × Nat :=
  match l with
  | .absent => (.absent, 0)
  | .joining .absent => (.absent, 0)
  | .joining .lost => (.lost, 3)
  | .joining .stale => (.stale, 1)
  | .online => (.silent, 1)
  | .silent => if misses < 2 then (.silent, misses + 1) else (.lost, 3)
  | .stale => if misses < 2 then (.stale, misses + 1) else (.lost, 3)
  | .lost => (.lost, 3)

/-- R7: LINK_LOSS is raised when SILENT or STALE becomes LOST. -/
def LinkState.lossRaised (l : LinkState) (misses : Nat) : Bool :=
  match l with
  | .silent => decide (2 ≤ misses)
  | .stale => decide (2 ≤ misses)
  | .absent => false
  | .joining _ => false
  | .online => false
  | .lost => false

def State.missPoll (s : State) (d : DockNo) (r : DockRecord) : State :=
  let n := r.link.missed r.misses
  ((s.onDock d fun r => { r with link := n.1, misses := n.2 }).postIf (r.link.lossRaised r.misses)
    (.faultRaise (.dock d) .linkLoss (some d) .nothing)).endPoll d r

/-! ### Meanings -/

/-- What the bytes of a report make of the poll in progress (R3): answered, or missed. -/
def State.takeAnswer (s : State) (p : Poll) (r : DockRecord) (answer : Option DockReport) : State :=
  match answer with
  | none => s.missPoll p.dock r
  | some q => if q.dock = p.dock then s.takeReport p r q else s.missPoll p.dock r

/-- The poll in progress with its dock's record. -/
def State.polled (s : State) : Option (Poll × DockRecord) :=
  match s.dock.poll with
  | none => none
  | some p => (s.dock? p.dock).map fun r => (p, r)

/-- DOCK_REPORT (R5): the bytes that answer the poll in progress. With a bad check, another dock's number or a field out of
range the poll is missed (R3). -/
def execDockReport (bytes : List Byte) (s : State) : Host.Outcome State Fault Refusal :=
  act (.dockReport bytes) s fun s =>
    match s.polled with
    | none => s
    | some x => s.takeAnswer x.1 x.2 (readReport bytes)

/-- DOCK_POLL_MISSED (R7): no report began in time. -/
def execDockPollMissed (s : State) : Host.Outcome State Fault Refusal :=
  act .dockPollMissed s fun s =>
    match s.polled with
    | none => s
    | some x => s.missPoll x.1.dock x.2

/-- REPORT_WINDOW_DEADLINE (R26). -/
def execReportWindowDeadline (d : DockNo) (s : State) : Host.Outcome State Fault Refusal :=
  act (.reportWindowDeadline d) s fun s =>
    s.onDock d fun r => if s.reached r.reportWindow then { r with reportWindow := none } else r

/-- CREW_WINDOW_DEADLINE (R28): the window becomes absent, and the dock leaves the session's crew window docks. -/
def execCrewWindowDeadline (d : DockNo) (s : State) : Host.Outcome State Fault Refusal :=
  act (.crewWindowDeadline d) s fun s =>
    if (s.dock? d).any (fun r => s.reached (r.crewWindow.map (·.deadline))) then
      (s.onDock d fun r => { r with crewWindow := none }).onVan fun v => { v with windows := v.windows.filter (· != d) }
    else s

/-- DOCK_GET (R198). -/
def execDockGet (tag : Byte) (body : List Byte) (s : State) : Host.Outcome State Fault Refusal :=
  request (.dockGet tag body) 0x0C tag s (Operands.dockNumber body) fun d s =>
    match s.dock? d with
    | none => s.reply 0x0C tag .badField
    | some r =>
      s.reply 0x0C tag .ok (.dock
        { record := r, level := s.level d, claim := (s.claimOn d).map fun c => (c.kind, c.state, c.holder, c.owner) })

/-- DOCK_SET_SERVICE (R42). -/
def execDockSetService (tag : Byte) (body : List Byte) (s : State) : Host.Outcome State Fault Refusal :=
  request (.dockSetService tag body) 0x0D tag s (Operands.dockSetService body) fun q s =>
    if q.1 < s.dockCount then
      let s1 := s.changeInput q.1 (·.onDock q.1 fun r => { r with hostSetting := q.2 })
      s1.reply 0x0D tag .ok (.level (s1.level q.1))
    else s.reply 0x0D tag .badField

end Sys2Proof.Machine
end

