-- ==== Sys2Proof/Machine/Cards.lean ====
section
/-! DEFINITION. The Card Unit (chapter 3): installing records, the check and what a passed tap becomes, queries and the
unknown-card rule, verdicts, pass sales, charges and refunds. -/

namespace Sys2Proof.Machine

/-! ### The card table (R45, R50) -/

/-- How far a record's install stamp lies behind the install counter, wrapped (R50). -/
def CardUnit.age (u : CardUnit) (r : CardRecord) : Nat := (u.installCounter - r.stamp).toNat

/-- The record is installed, in place of one of the same card, with a fresh stamp (R45). -/
def CardUnit.install (u : CardUnit) (r : CardRecord) : CardUnit :=
  let new := { r with stamp := u.installCounter }
  { u with
    table := if u.table.any (fun x => x.card == r.card) then u.table.map fun x => if x.card = r.card then new else x
             else u.table ++ [new],
    installCounter := u.installCounter + 1 }

def CardUnit.drop (u : CardUnit) (c : CardId) : CardUnit := { u with table := u.table.filter fun x => x.card != c }

def State.install (s : State) (r : CardRecord) : State := s.onCards (·.install r)

/-- A record for this card can be installed without room being made: it replaces one, or a slot is free. -/
def State.hasRoom (s : State) (c : CardId) : Bool := (s.cardRecord c).isSome || s.card.table.length < s.cardRoom

/-- The record whose slot is given up (R50, R65): the oldest expired one, and where `provisional` allows the oldest
PROVISIONAL. Of two at the same distance the first in table order, the model's choice (log 37). -/
def State.evictee (s : State) (provisional : Bool) : Option CardRecord :=
  match firstLargest s.card.age (s.card.table.filter s.expired) with
  | some r => some r
  | none =>
    if provisional then firstLargest s.card.age (s.card.table.filter fun r => r.origin == .provisional) else none

/-- R50, R65: the record is placed, with an eviction where the table is full; `none` when no room can be made. -/
def State.placeRecord (s : State) (r : CardRecord) (provisional : Bool) : Option State :=
  if s.hasRoom r.card then some (s.install r)
  else (s.evictee provisional).map fun old => (s.onCards (·.drop old.card)).install r

/-! ### The check (R51 to R55) -/

/-- How the first three steps end. -/
inductive Lookup | deny (why : DenyReason) | found (r : CardRecord) | absent

/-- The record that stands for a card: `own` in place of the table (R50, R64), or the table's. -/
def State.recordFor (s : State) (card : CardId) (own : Option CardRecord) : Option CardRecord :=
  match own with
  | some r => some r
  | none => s.cardRecord card

/-- Steps 1 to 3 (R51, R52). -/
def State.lookup (s : State) (place : Place) (rec? : Option CardRecord) : Lookup :=
  if s.store.station ≠ .serving then .deny .outOfService
  else match rec? with
    | none => .absent
    | some r =>
      match place, r.role with
      | .terminal _ _, .service => .deny .role
      | _, _ => if r.standing = .barred then .deny .barred else if s.expired r then .deny .expired else .found r

/-- A MEMBER or PASS card. -/
def Role.rides : Role → Bool
  | .member => true
  | .pass => true
  | .crew => false
  | .service => false

/-- Step 4 fails (R53). -/
def State.noRight (s : State) (r : CardRecord) (place : Place) : Bool :=
  match place with
  | .reader d => r.role.rides && r.rights == .standard && (s.dock? d).any fun x => x.bike.any fun b => b.cls == .electric
  | .terminal _ _ => false

/-- Step 5 is made (R54). -/
def Place.testsHolder (p : Place) (role : Role) : Bool :=
  match p with
  | .reader _ => true
  | .terminal _ _ => role.rides

/-- Steps 4 to 6 (R53 to R55). -/
def State.lateSteps (s : State) (r : CardRecord) (place : Place) : Option DenyReason :=
  if s.noRight r place then some .noRight
  else if place.testsHolder r.role ∧ s.releasingHolder r.card then some .already
  else if s.offlineCard r ∧ r.credit ≤ r.used then some .credit
  else none

/-! ### What a passed tap becomes (R56 to R58) -/

/-- R56: a member release. -/
def State.passRider (s : State) (r : CardRecord) (place : Place) : State :=
  match place with
  | .reader d => s.post (.claimRequest d .member r.card r.origin (.reader d))
  | .terminal t a => s.post (.checkResultAtSession t a (.member r.card r.origin r.rights))

/-- R58: a SERVICE tap at a dock reader. -/
def State.passService (s : State) (r : CardRecord) (place : Place) : State :=
  match place with
  | .terminal _ _ => s.denyPlace place .role
  | .reader d =>
    match s.dock? d with
    | none => s
    | some x =>
      if x.clearable then s.post (.holdClear d)
      else if x.occupancy = .occupied then s.post (.claimRequest d .service r.card r.origin (.reader d))
      else s.denyPlace place .noBike

def State.passTap (s : State) (r : CardRecord) (place : Place) : State :=
  match r.role with
  | .member => s.passRider r place
  | .pass => s.passRider r place
  | .crew => s.post (.crewTap r.card place)
  | .service => s.passService r place

/-- The check from step 4 on (R51). -/
def State.finishCheck (s : State) (r : CardRecord) (place : Place) : State :=
  match s.lateSteps r place with
  | some why => s.denyPlace place why
  | none => s.passTap r place

/-! ### Unknown cards (R62 to R66) -/

/-- The record the unknown-card rule installs (R65). -/
def provisionalRecord (card : CardId) : CardRecord :=
  { card := card, role := .member, standing := .good, rights := .standard, credit := 1, used := 0, origin := .provisional,
    expiry := none, stamp := 0 }

/-- R65: the unknown-card rule. The record installed stays, and what was evicted for it stays gone, when step 4 or 5 then denies the
tap, the model's choice (R51; log 43). -/
def State.unknownCard (s : State) (card : CardId) (place : Place) : State :=
  match s.settings.unknownCard with
  | .deny => s.denyPlace place .unknown
  | .provisional =>
    if card.msb then s.denyPlace place .unknown
    else match s.placeRecord (provisionalRecord card) false with
      | none => (s.join .cardTableFull).denyPlace place .unknown
      | some s' => s'.finishCheck (provisionalRecord card) place

/-- The tag after one, from 255 to 1 (R62). -/
def tagAfter (t : Byte) : Byte := if t = 255 then 1 else t + 1

/-- The first tag from `t` on that no query holds (R62). -/
def freeTag (queries : List Query) : Nat → Byte → Byte
  | 0, t => t
  | n + 1, t => if queries.any (fun q => q.tag == t) then freeTag queries n (tagAfter t) else t

/-- R62: a new query, and its CARD_QUERY frame. -/
def State.newQuery (s : State) (card : CardId) (place : Place) : State :=
  let tag := freeTag s.card.queries 255 s.card.nextTag
  (s.onCards fun u =>
    { u with queries := u.queries ++ [{ tag := tag, card := card, waiters := [place], deadline := s.now + s.settings.authWait }],
             nextTag := tagAfter tag }).onHost (·.send (.cardQuery tag card place))

/-- R63: the place joins a query, or is denied BUSY. -/
def State.joinQuery (s : State) (q : Query) (place : Place) : State :=
  if q.waiters.length < Config.waiterRoom then
    s.onCards fun u =>
      { u with queries := u.queries.map fun x => if x.tag = q.tag then { x with waiters := x.waiters ++ [place] } else x }
  else s.denyPlace place .busy

/-- Step 3 with no record (R52, R62, R63). -/
def State.askHost (s : State) (card : CardId) (place : Place) : State :=
  match s.card.queries.find? (fun q => q.card == card) with
  | some q => s.joinQuery q place
  | none => if ¬ s.host.lost ∧ s.card.queries.length < Config.queryRoom then s.newQuery card place else s.unknownCard card place

/-- R51: a check, with `absent` saying what a card without a record brings. -/
def State.check (s : State) (place : Place) (rec? : Option CardRecord) (absent : State → State) : State :=
  match s.lookup place rec? with
  | .deny why => s.denyPlace place why
  | .found r => s.finishCheck r place
  | .absent => absent s

/-- CARD_CHECK (R51). -/
def execCardCheck (card : CardId) (place : Place) (s : State) : Host.Outcome State Fault Refusal :=
  act (.cardCheck card place) s fun s => s.check place (s.cardRecord card) (·.askHost card place)

/-- R64: a waiter's check is made again from step 1. -/
def State.resolveWaiter (s : State) (card : CardId) (own : Option CardRecord) (place : Place) : State :=
  s.check place (s.recordFor card own) (·.unknownCard card place)

/-- The waiters of a query, in their order (R64). -/
def State.resolveQuery (s : State) (q : Query) (own : Option CardRecord) : State :=
  q.waiters.foldl (fun s p => s.resolveWaiter q.card own p) s

def State.removeQuery (s : State) (tag : Byte) : State :=
  s.onCards fun u => { u with queries := u.queries.filter fun q => q.tag != tag }

/-- QUERY_DEADLINE (R66). -/
def execQueryDeadline (tag : Byte) (s : State) : Host.Outcome State Fault Refusal :=
  act (.queryDeadline tag) s fun s =>
    match s.card.queries.find? (fun q => q.tag == tag && q.deadline ≤ s.now) with
    | none => s
    | some q => (s.removeQuery tag).resolveQuery q none

/-- R66, the host link LOST: every query ends, in list order. -/
def State.endQueries (s : State) : State :=
  s.card.queries.foldl (fun s q => s.resolveQuery q none) (s.onCards fun u => { u with queries := [] })

/-! ### Pass sales (R50) -/

/-- The record of a sale (R50). Its stamp is set when it is installed; a copy that is not stored keeps 0, the model's choice (log 52). -/
def passRecord (code : CardId) (rights : Rights) (expiry : ClockTime) : CardRecord :=
  { card := code, role := .pass, standing := .good, rights := rights, credit := 0, used := 0, origin := .terminal,
    expiry := some expiry, stamp := 0 }

/-- The sale is refused, or gives the record to store (R50). When several of its cases hold, the first of the rule's list is the
reason (log 28). -/
def State.saleTests (s : State) (code : CardId) (rights : Byte) (expiry : ClockTime) : Except DenyReason CardRecord :=
  if ¬ code.msb then .error .role
  else match Code.rights? rights.toNat with
    | none => .error .noRight
    | some x => if s.clockReached expiry then .error .expired else .ok (passRecord code x expiry)

/-- The session keeps a pass that was not stored, for this attempt (R104). -/
def State.keepPass (s : State) (t : TerminalId) (attempt : Nat) (r : CardRecord) : State :=
  s.onSession t fun x => if x.state = .checking ∧ x.attempt = attempt then { x with unstored := some r } else x

/-- PASS_SALE (R50): validated, stored or held by the session, then checked as a tap at the terminal. -/
def execPassSale (t : TerminalId) (attempt : Nat) (code : CardId) (rights : Byte) (expiry : ClockTime) (s : State) :
    Host.Outcome State Fault Refusal :=
  act (.passSale t attempt code rights expiry) s fun s =>
    match s.saleTests code rights expiry with
    | .error why => s.denyPlace (.terminal t attempt) why
    | .ok r =>
      match s.placeRecord r true with
      | some s' => s'.check (.terminal t attempt) (s'.cardRecord code) id
      | none => ((s.join .cardTableFull).keepPass t attempt r).check (.terminal t attempt) (some r) id

/-! ### Charges and refunds (R59, R60) -/

def State.setUsed (s : State) (card : CardId) (f : Nat → Nat) : State :=
  s.onCards fun u => { u with table := u.table.map fun r => if r.card = card then { r with used := f r.used } else r }

/-- CHARGE (R59): answered to the grant of the request in hand. -/
def execCharge (d : DockNo) (card : CardId) (s : State) : Host.Outcome State Fault Refusal :=
  act (.charge d card) s fun s =>
    if (s.requestOn d).any (fun q => q.holder == card) then
      match s.cardRecord card with
      | none => s.post (.claimGrant d .free)
      | some r =>
        if ¬ s.offlineCard r then s.post (.claimGrant d .free)
        else if r.used < r.credit then (s.setUsed card (· + 1)).post (.claimGrant d .charged)
        else s.post (.claimGrant d .credit)
    else s

/-- REFUND (R60). -/
def execRefund (card : CardId) (s : State) : Host.Outcome State Fault Refusal :=
  act (.refund card) s fun s => s.setUsed card (· - 1)

/-! ### Requests (R48, R49, R68, R69) -/

/-- CARD_PUT (R48). -/
def execCardPut (tag : Byte) (body : List Byte) (s : State) : Host.Outcome State Fault Refusal :=
  request (.cardPut tag body) 0x0E tag s (Operands.cardPut body) fun r s =>
    if (s.cardRecord r.card).isSome then (s.install r).reply 0x0E tag .replaced
    else if s.hasRoom r.card then (s.install r).reply 0x0E tag .ok
    else s.reply 0x0E tag .tableFull

/-- CARD_GET (R49). -/
def execCardGet (tag : Byte) (body : List Byte) (s : State) : Host.Outcome State Fault Refusal :=
  request (.cardGet tag body) 0x0F tag s (Operands.cardId body) fun c s =>
    match s.cardRecord c with
    | some r => s.reply 0x0F tag .ok (.card r)
    | none => s.reply 0x0F tag .notFound

/-- CARD_DROP (R49). -/
def execCardDrop (tag : Byte) (body : List Byte) (s : State) : Host.Outcome State Fault Refusal :=
  request (.cardDrop tag body) 0x10 tag s (Operands.cardId body) fun c s =>
    if (s.cardRecord c).isSome then (s.onCards (·.drop c)).reply 0x10 tag .ok else s.reply 0x10 tag .notFound

/-- The record that BAR installs (R68). -/
def barRecord (card : CardId) : CardRecord :=
  { card := card, role := if card.msb then .pass else .member, standing := .barred, rights := .standard, credit := 0, used := 0,
    origin := .host, expiry := if card.msb then some 0xFFFFFFFF else none, stamp := 0 }

/-- R68, step 2: the record an outcome installs; NONE installs nothing. -/
def Operands.Verdict.record (v : Operands.Verdict) : Except ReplyCode (Option CardRecord) :=
  match v.outcome with
  | .grant (.error code) => .error code
  | .grant (.ok r) => if r.card = v.card then .ok (some r) else .error .badField
  | .bar => .ok (some (barRecord v.card))
  | .nothing => .ok none

/-- R68, step 3: the outcome installed without eviction; the record that could not be, if any. -/
def State.installVerdict (s : State) (r : Option CardRecord) : State × Option CardRecord :=
  match r with
  | none => (s, none)
  | some r => if s.hasRoom r.card then (s.install r, none) else (s, some r)

/-- R68: a verdict for a query in the list. -/
def State.verdictFor (s : State) (tag : Byte) (q : Query) (r : Option CardRecord) : State :=
  let x := s.installVerdict r
  ((x.1.removeQuery q.tag).resolveQuery q x.2).reply 0x11 tag (if x.2.isSome then .tableFull else .ok)

/-- R69: a late verdict. -/
def State.lateVerdict (s : State) (tag : Byte) (r : Option CardRecord) : State :=
  let x := s.installVerdict r
  x.1.reply 0x11 tag (if x.2.isSome then .tableFull else .late)

/-- CARD_VERDICT (R68, R69). -/
def execCardVerdict (tag : Byte) (body : List Byte) (s : State) : Host.Outcome State Fault Refusal :=
  request (.cardVerdict tag body) 0x11 tag s (Operands.cardVerdict body) fun v s =>
    match s.card.queries.find? (fun q => q.tag == v.queryTag) with
    | some q =>
      if q.card ≠ v.card then s.reply 0x11 tag .mismatch
      else match v.record with
        | .error code => s.reply 0x11 tag code
        | .ok r => s.verdictFor tag q r
    | none =>
      match v.record with
      | .error code => s.reply 0x11 tag code
      | .ok r => s.lateVerdict tag r

end Sys2Proof.Machine
end

