-- ==== Sys2Proof/Machine/StoreUnit.lean ====
section
/-! DEFINITION. The Store Controller (chapter 10): station state, layout, settings and the Station Clock. -/

namespace Sys2Proof.Machine

/-! ### Settings (R185 to R187) -/

/-- R197: the link becomes LOST, every card query ends (R66), and the Dock Controller is told (R34). -/
def State.loseLink (s : State) : State :=
  ((s.onHost fun h => { h with lost := true, deadline := none }).endQueries).post (.dockCapChange (.hostLink true))

/-- R187, R197: the silence deadline of an UP link follows a changed limit, and is reached at once, in the same act, when it lies
in the past (log 35). -/
def State.newLimit (s : State) (limit : Nat) : State :=
  if s.host.lost then s
  else if s.host.lastGood + limit ≤ s.now then s.loseLink
  else s.onHost fun h => { h with deadline := some (h.lastGood + limit) }

/-- R187: the pending set becomes the live set whole, and two changes are handed on. The candidates of the presence detectors stay as
they are, the model's choice (log 46). -/
def State.switchSettings (s : State) (p : PendingSettings) : State :=
  let s1 := (s.onStore fun st => { st with live := p.settings, pendingSet := none }).join .settingsSwitched
  let s2 := s1.postIf (decide (p.settings.silenceAction ≠ s.settings.silenceAction))
    (.dockCapChange (.silenceAction p.settings.silenceAction))
  if p.settings.silenceLimit = s.settings.silenceLimit then s2 else s2.newLimit p.settings.silenceLimit

/-- R186, R187: the pending set is switched when it is due. -/
def State.switchIfDue (s : State) : State :=
  if s.switchDue then
    match s.store.pendingSet with
    | some p => s.switchSettings p
    | none => s
  else s

/-- SETTINGS_GET (R185). -/
def execSettingsGet (tag : Byte) (body : List Byte) (s : State) : Host.Outcome State Fault Refusal :=
  request (.settingsGet tag body) 0x09 tag s (Operands.empty body) fun _ s =>
    s.reply 0x09 tag .ok (.settings s.store.live s.store.pendingSet)

/-- SETTINGS_STAGE (R186). -/
def execSettingsStage (tag : Byte) (body : List Byte) (s : State) : Host.Outcome State Fault Refusal :=
  request (.settingsStage tag body) 0x0A tag s (Operands.settingsStage body) fun p s =>
    ((s.onStore fun st => { st with pendingSet := some p }).switchIfDue).reply 0x0A tag
      (if s.store.pendingSet.isSome then .replaced else .ok)

/-- SETTINGS_DROP (R186). -/
def execSettingsDrop (tag : Byte) (body : List Byte) (s : State) : Host.Outcome State Fault Refusal :=
  request (.settingsDrop tag body) 0x0B tag s (Operands.empty body) fun _ s =>
    if s.store.pendingSet.isSome then (s.onStore fun st => { st with pendingSet := none }).reply 0x0B tag .ok
    else s.reply 0x0B tag .notFound

/-- SETTINGS_SWITCH (R187): the clock, while set, has reached the switch time. The second and the switch are two acts, and the clock is
read at the switch (log 40). -/
def execSettingsSwitch (s : State) : Host.Outcome State Fault Refusal := act .settingsSwitch s State.switchIfDue

/-! ### The Station Clock (R189) -/

/-- TIME_SET (R189). -/
def execTimeSet (tag : Byte) (body : List Byte) (s : State) : Host.Outcome State Fault Refusal :=
  request (.timeSet tag body) 0x03 tag s (Operands.timeSet body) fun t s =>
    ((s.onStore fun st => { st with clock := t, clockUnset := false }).switchIfDue).reply 0x03 tag .ok

/-! ### Station state (R181, R182) -/

/-- A change of station state, told to the Dock Controller (R32). -/
def State.setStation (s : State) (st : StationState) : State :=
  (s.onStore fun x => { x with station := st }).post (.dockCapChange (.station st))

/-- SERVICE_START (R181). -/
def execServiceStart (tag : Byte) (body : List Byte) (s : State) : Host.Outcome State Fault Refusal :=
  request (.serviceStart tag body) 0x07 tag s (Operands.empty body) fun _ s =>
    if s.store.station = .configuring then (s.setStation .serving).reply 0x07 tag .ok else s.reply 0x07 tag .wrongState

/-- SERVICE_STOP (R182). -/
def execServiceStop (tag : Byte) (body : List Byte) (s : State) : Host.Outcome State Fault Refusal :=
  request (.serviceStop tag body) 0x08 tag s (Operands.empty body) fun _ s =>
    if s.store.station = .configuring then s.reply 0x08 tag .wrongState
    else if s.release.claims ≠ [] ∨ s.order.session.isSome then s.reply 0x08 tag .busy
    else (s.setStation .configuring).reply 0x08 tag .ok

/-! ### Layout (R183, R184) -/

/-- LAYOUT_GET (R183). -/
def execLayoutGet (tag : Byte) (body : List Byte) (s : State) : Host.Outcome State Fault Refusal :=
  request (.layoutGet tag body) 0x05 tag s (Operands.empty body) fun _ s => s.reply 0x05 tag .ok (.layout s.store.layout)

/-- Work in flight that tells the Journal Unit of docks the layout change discards (log 17). -/
def tellsJournal : Instr → Bool
  | .journalCountNotice _ _ => true
  | .journalWithheldNotice _ _ => true
  | _ => false

/-- The terminals that wait on a query (R67). -/
def Place.terminalOnly : Place → Bool
  | .terminal _ _ => true
  | .reader _ => false

/-- R67: the query list is emptied, each terminal waiter sent OUT_OF_SERVICE. -/
def State.dropQueries (s : State) : State :=
  (((s.card.queries.flatMap (·.waiters)).filter Place.terminalOnly).foldl (fun s p => s.denyPlace p .outOfService) s).onCards
    fun u => { u with queries := [], nextTag := 1 }

/-- R1, R131, R184: the blocks as LAYOUT_SET leaves them. -/
def State.rebuilt (s : State) (l : Layout) : State :=
  { s with
    inFlight := s.inFlight.filter fun i => !(tellsJournal i),
    dock :=
      { table := List.replicate l.dockCount {}, insertionCounter := s.dock.insertionCounter,
        poll := s.dock.poll.filter (fun p => p.dock < l.dockCount), caps := { s.dock.caps with station := .configuring } },
    card := { s.card with table := [] },
    release := { s.release with claims := [], grace := [] },
    journal := { account := List.replicate l.dockCount {} },
    order := {},
    fault := { s.fault with table := [] },
    store := { s.store with layout := l } }

/-- LAYOUT_SET (R184): its first test is made with the operands. -/
def execLayoutSet (tag : Byte) (body : List Byte) (s : State) : Host.Outcome State Fault Refusal :=
  request (.layoutSet tag body) 0x06 tag s (Operands.layoutSet body) fun l s =>
    if s.store.station = .serving then s.reply 0x06 tag .wrongState
    else if s.journal.entries ≠ [] then s.reply 0x06 tag .notDrained
    else (s.dropQueries.rebuilt l).reply 0x06 tag .ok

end Sys2Proof.Machine
end

