-- ==== Sys2Proof/Machine/HostLink.lean ====
section
/-! DEFINITION. The Host Link Controller (chapter 11): hunting frames, taking requests, sending frames, silence, the notice
requests and STATUS. -/

namespace Sys2Proof.Machine

/-! ### Framing (R190) -/

/-- What hunting finds, in the order in which it is found. -/
inductive Found | good (f : HostFrame) | bad
deriving DecidableEq, Repr

/-- The bytes after a start byte: more are needed, or a frame ends. -/
inductive Framed | more | bad | good (f : HostFrame) (rest : List Byte)

/-- R190: length, kind, tag, body and check, after the start byte. -/
def frameAfterStart (b : List Byte) : Framed :=
  if b.length < 2 then .more
  else
    let n := fieldAt b 0 2
    if Config.bodyLimit < n then .bad
    else if b.length < n + 6 then .more
    else if crc16 (b.take (n + 4)) = halfAt b (n + 4) then
      .good ⟨byteOf (fieldAt b 2 1), byteOf (fieldAt b 3 1), (b.drop 4).take n⟩ (b.drop (n + 6))
    else .bad

/-- R190: the hunt. After a bad frame it resumes at the byte after the start byte. The number bounds the steps. -/
def hunt : Nat → List Byte → List Found × List Byte
  | 0, bs => ([], bs)
  | _ + 1, [] => ([], [])
  | n + 1, b :: bs =>
    if b = 0xC3 then
      match frameAfterStart bs with
      | .more => ([], b :: bs)
      | .bad => (.bad :: (hunt n bs).1, (hunt n bs).2)
      | .good f rest => (.good f :: (hunt n rest).1, (hunt n rest).2)
    else hunt n bs

/-! ### Taking requests (R191, R192) -/

/-- The row that owns a request kind (11.5); any other kind is answered UNKNOWN_KIND. -/
def requestOf (f : HostFrame) : Instr :=
  match f.kind.toNat with
  | 0x01 => .status f.tag f.body
  | 0x02 => .noticeMask f.tag f.body
  | 0x03 => .timeSet f.tag f.body
  | 0x04 => .reset f.tag f.body
  | 0x05 => .layoutGet f.tag f.body
  | 0x06 => .layoutSet f.tag f.body
  | 0x07 => .serviceStart f.tag f.body
  | 0x08 => .serviceStop f.tag f.body
  | 0x09 => .settingsGet f.tag f.body
  | 0x0A => .settingsStage f.tag f.body
  | 0x0B => .settingsDrop f.tag f.body
  | 0x0C => .dockGet f.tag f.body
  | 0x0D => .dockSetService f.tag f.body
  | 0x0E => .cardPut f.tag f.body
  | 0x0F => .cardGet f.tag f.body
  | 0x10 => .cardDrop f.tag f.body
  | 0x11 => .cardVerdict f.tag f.body
  | 0x12 => .journalRead f.tag f.body
  | 0x13 => .journalRelease f.tag f.body
  | 0x14 => .orderAdd f.tag f.body
  | 0x15 => .orderCancel f.tag f.body
  | 0x16 => .orderList f.tag f.body
  | 0x17 => .faultList f.tag f.body
  | 0x18 => .faultAck f.tag f.body
  | 0x19 => .faultClear f.tag f.body
  | 0x1A => .terminalGet f.tag f.body
  | 0x1B => .terminalEnable f.tag f.body
  | _ => .unknownKindRequest f.kind f.tag

/-- R191: the oldest waiting frame is taken when no earlier request has a reply unsent. Its request is handed on and is an act of its own,
before which another arrival may come, the model's choice (log 47). -/
def State.takeWaiting (s : State) : State :=
  if s.host.requestOpen ∨ s.host.outgoing.any OutFrame.isReply then s
  else match s.host.waiting with
    | [] => s
    | f :: rest => (s.onHost fun h => { h with waiting := rest, requestOpen := true }).post (requestOf f)

/-- R197: a good frame restarts the deadline, and returns a LOST link to UP. -/
def State.hearHost (s : State) : State :=
  let s1 := s.onHost fun h => { h with lost := false, lastGood := s.now, deadline := some (s.now + s.settings.silenceLimit) }
  if s.host.lost then (s1.join .linkResumed).post (.dockCapChange (.hostLink false)) else s1

/-- R191: a good frame waits, or is an overrun while two wait; a request that has been taken is not counted among them (log 41). -/
def HostLink.accept (h : HostLink) (f : HostFrame) : HostLink :=
  if h.waiting.length < Config.frameRoom then { h with waiting := h.waiting ++ [f] }
  else { h with overruns := min Config.countLimit (h.overruns + 1) }

/-- One frame found. -/
def State.frameFound (s : State) : Found → State
  | .good f => (s.hearHost.onHost (·.accept f)).takeWaiting
  | .bad => s.onHost fun h => { h with badFrames := min Config.countLimit (h.badFrames + 1) }

/-- Bytes from the host: every frame they complete is found, in order (R190). -/
def State.receive (s : State) (bytes : List Byte) : State :=
  let all := s.host.rx ++ bytes
  let h := hunt (all.length + 1) all
  h.1.foldl State.frameFound (s.onHost fun x => { x with rx := h.2 })

/-- HOST_FRAME_GOOD (R190, R191, R197): bytes that complete a frame with a good check. -/
def execHostFrameGood (bytes : List Byte) (s : State) : Host.Outcome State Fault Refusal :=
  act (.hostFrameGood bytes) s fun s => s.receive bytes

/-- HOST_FRAME_BAD (R190): bytes that complete a frame over-long or with a bad check; the same hunt finds out. -/
def execHostFrameBad (bytes : List Byte) (s : State) : Host.Outcome State Fault Refusal :=
  act (.hostFrameBad bytes) s fun s => s.receive bytes

/-! ### Sending (R193) -/

/-- The frame at the front has been sent whole. -/
def HostLink.sent (h : HostLink) : HostLink := { h with outgoing := h.outgoing.drop 1 }

/-- R191: once a reply has been sent the next waiting request can be taken. -/
def State.replySent (s : State) (f : OutFrame) : State :=
  if f.isReply then (s.onHost fun h => { h with requestOpen := false }).takeWaiting else s

/-- FRAME_SENT (R191, R193). A part that a RESET request or supply shutdown has stopped still sends what its outgoing order holds
(R173, R177). -/
def execFrameSent (s : State) : Host.Outcome State Fault Refusal :=
  match s.host.outgoing with
  | [] => .next s
  | f :: _ =>
    match s.phase with
    | .running => act .frameSent s fun s => (s.onHost HostLink.sent).replySent f
    | .resetAsked => .next (s.onHost fun h => h.sent.beginSending)
    | .shutdown => .next (s.onHost fun h => h.sent.beginSending)
    | .supplyReset => .next s
    | .lineLow => .next s
    | .pinsDown => .next s

/-- UNKNOWN_KIND_REQUEST (R192): the received kind with its top bit set, the tag as received. -/
def execUnknownKindRequest (kind tag : Byte) (s : State) : Host.Outcome State Fault Refusal :=
  act (.unknownKindRequest kind tag) s fun s => s.onHost (·.send (.reply (kind ||| 0x80) tag .unknownKind .nothing))

/-! ### Silence (R66, R197) -/

/-- SILENCE_DEADLINE (R197): the link becomes LOST, every card query ends, the Dock Controller is told. -/
def execSilenceDeadline (s : State) : Host.Outcome State Fault Refusal :=
  act .silenceDeadline s fun s =>
    if ¬ s.host.lost ∧ s.reached s.host.deadline then s.loseLink else s

/-! ### Notices and STATUS (R195, R196) -/

/-- NOTICE_MASK (R195). -/
def execNoticeMask (tag : Byte) (body : List Byte) (s : State) : Host.Outcome State Fault Refusal :=
  request (.noticeMask tag body) 0x02 tag s (Operands.noticeMask body) fun m s =>
    (s.onHost fun h => { h with noticeMask := m }).reply 0x02 tag .ok (.mask m)

/-- What STATUS reports, by the list of R196. The mains run, which R168 counts among the visible fields, is not in it, the model's
choice (log 45). -/
def State.statusReply (s : State) : StatusReply :=
  { notices := s.host.noticeSet, station := s.store.station, cause := s.store.resetCause, warm := s.store.warm,
    power := s.supply.power, decided := s.supply.decided, debounced := s.supply.debounced, level := s.supply.level,
    hostLost := s.host.lost, badFrames := s.host.badFrames, overruns := s.host.overruns, lostReports := s.fault.lost,
    clock := s.store.clock, clockUnset := s.store.clockUnset, nextSeq := s.store.nextSeq, slack := s.slack,
    claims := s.release.claims.length, session := s.order.session.map (·.state), lines := s.term.map (·.line),
    mask := s.host.noticeMask }

/-- STATUS (R196): the notice set is returned and emptied. -/
def execStatus (tag : Byte) (body : List Byte) (s : State) : Host.Outcome State Fault Refusal :=
  request (.status tag body) 0x01 tag s (Operands.empty body) fun _ s =>
    (s.onHost fun h => { h with noticeSet := 0 }).reply 0x01 tag .ok (.status s.statusReply)

end Sys2Proof.Machine
end

