-- ==== Sys2Proof/Machine/Replies.lean ====
section
/-! DEFINITION. The bytes the part puts on its lines (11.7): frames to the host with their bodies, dock polls, terminal records.
What 11.7 does not code is chosen here (log 15, log 16). -/

namespace Sys2Proof.Machine

namespace Coding

def one (n : Nat) : List Byte := [byteOf n]

/-- A field whose values are listed "yes, no": the first is 0. -/
def yesNo (b : Bool) : List Byte := [if b then 0 else 1]

/-- A flag no list defines: 1 when it is set, like a presence byte. -/
def flag (b : Bool) : List Byte := [if b then 1 else 0]

/-- A set: bit n for the nth kind listed. -/
def mask (bs : List Bool) : List Byte := one (bs.foldr (fun b n => 2 * n + b.toNat) 0)

/-- A list: its length and its items. -/
def list (f : α → List Byte) (xs : List α) : List Byte := one xs.length ++ xs.flatMap f

/-- A slack in two bytes; one that does not fit is a free value (log 16). -/
def slack (s : Int) : List Byte := bytesHalf (if 0 ≤ s ∧ s ≤ 65535 then BitVec.ofNat 16 s.toNat else Config.freeSlackCode s)

def orFF (f : α → Nat) : Option α → List Byte
  | none => [0xFF]
  | some a => one (f a)

def wordOr0 (w : Option Word) : List Byte := bytesWord (w.getD 0)

/-! ### Records (11.7) -/

def entry (e : Entry) : List Byte :=
  bytesWord e.seq ++ bytesWord e.time ++ one (Code.entryKind e.kind)
    ++ mask [e.unset, e.flags.offline, e.flags.late, e.flags.resetTake, e.flags.lateTake, e.flags.noTag]
    ++ orFF id e.dock ++ wordOr0 e.bike ++ wordOr0 e.card ++ wordOr0 e.reference
    ++ one ((e.outcome.map Code.closeOutcome).getD 0) ++ one (e.done.getD 0) ++ one (e.quantity.getD 0)

def card (c : CardRecord) : List Byte :=
  bytesWord c.card ++ one (Code.role c.role) ++ one (Code.standing c.standing) ++ one (Code.rights c.rights) ++ one c.credit
    ++ one c.used ++ one (Code.cardOrigin c.origin) ++ bytesOpt bytesWord c.expiry

def subject : FaultSubject → List Byte
  | .dock d => 0 :: bytes4 d
  | .bike b => 1 :: bytesWord b
  | .terminal t => 2 :: bytes4 (Code.terminal t)

/-- The context part of a fault record, from the context dock on; the unrecorded flag has no place in it (11.7; log 34). -/
def context : Option DockContext → List Byte
  | none => List.replicate 8 0xFF ++ List.replicate 12 0 ++ [0xFF, 0xFF] ++ List.replicate 4 0
  | some c =>
    one c.dock ++ one (Code.link c.link) ++ one (Code.lock c.lock) ++ one (Code.occupancy c.occupancy)
      ++ one (Code.slot c.commanded) ++ one (Code.slot c.acknowledged) ++ orFF (fun x => Code.claimKind x.1) c.claim
      ++ orFF (fun x => Code.claimState x.2.1) c.claim ++ wordOr0 (c.claim.bind fun x => x.2.2)
      ++ wordOr0 (c.lastTap.map (·.card)) ++ wordOr0 (c.lastTap.map (·.time)) ++ bytes2
          (c.lastSense.getD 0xFFFF) ++ wordOr0 c.bike

def fault (r : FaultRecord) : List Byte :=
  subject r.subject ++ one (Code.faultKind r.kind) ++ bytesWord r.firstTime ++ bytesWord r.lastTime
    ++ mask [r.firstUnset, r.lastUnset, (r.context.bind (·.lastTap)).any (·.unset)] ++ one r.repeats
    ++ one (Code.condition r.condition) ++ one (Code.reportState r.report) ++ context r.context ++ one (Code.power r.power)

/-! ### Reply fields, in the order of their owning rules -/

def status (r : StatusReply) : List Byte :=
  bytesHalf r.notices ++ one (Code.station r.station) ++ one (Code.resetCause r.cause) ++ yesNo r.warm ++ one (Code.power r.power)
    ++ yesNo r.decided ++ one (match r.debounced with | some true => 0 | some false => 1 | none => 2)
    ++ bytesOpt (fun l => [l]) r.level ++ flag r.hostLost ++ bytes2 r.badFrames ++ bytes2 r.overruns ++ bytes2 r.lostReports
    ++ bytesWord r.clock ++ flag r.clockUnset ++ bytesWord r.nextSeq ++ slack r.slack ++ one r.claims
    ++ bytesOpt (fun x => one (Code.sessionState x)) r.session
    ++ terminals.flatMap (fun t => one (Code.lineState (r.lines.get t))) ++ bytesHalf r.mask

def layout (l : Layout) : List Byte :=
  one l.dockCount ++ bytes2 l.journalBase ++ bytes2 l.faultBase ++ bytes2 l.journalBase ++ bytes2 (l.faultBase - l.journalBase)
    ++ bytes2 (Config.storeSlots - l.faultBase)

def settings (x : Settings) : List Byte :=
  one x.takeWindow ++ bytes2 x.grace ++ bytes2 x.reportWindow ++ one x.authWait ++ one x.terminalIdle ++ bytes2 x.vanIdle
    ++ one x.crewWindow ++ bytes2 x.silenceLimit ++ one (Code.silenceAction x.silenceAction)
    ++ one (Code.unknownCardRule x.unknownCard) ++ bytes2 x.threshold ++ bytes2 x.hysteresis ++ one x.batteryLow
    ++ bytes2 x.yellowMargin ++ bytesHalf x.tariff ++ one x.supplyLow ++ one x.supplyCutoff ++ one x.supplyHysteresis

def pendingSet (p : PendingSettings) : List Byte := settings p.settings ++ bytesOpt bytesWord p.switchTime

def tap (t : CardTap) : List Byte := bytesWord t.card ++ bytesWord t.time ++ flag t.unset

/-- A link state, with the origin of JOINING as an optional byte after it (log 15). -/
def link (l : LinkState) : List Byte :=
  one (Code.link l) ++ bytesOpt (fun o => one (Code.joinOrigin o)) (match l with
    | .joining o => some o
    | .absent => none
    | .online => none
    | .silent => none
    | .lost => none
    | .stale => none)

def dockHolds (h : DockHolds) : List Byte := mask [h.lockJam, h.sensor, h.chatter, h.forcedRemoval, h.tagUnread, h.tagConflict]

/-- Every field of a dock record in the order of R1, the chatter history as its length (R198). The codings of JOINING's origin, the
candidate, the baseline, the return entry and its crew mark as optional fields, and the insertion order in 4 bytes, are the model's
choice (log 15). -/
def dockRecord (r : DockRecord) : List Byte :=
  link r.link ++ one r.misses ++ one (Code.occupancy r.occupancy) ++ bytesOpt bytesWord (r.bike.map (·.id))
    ++ bytesOpt (fun k => one (Code.bikeClass k)) (r.bike.map (·.cls)) ++ yesNo r.unrecorded
    ++ bytesOpt (fun e => yesNo e.late ++ bytesOpt bytesHalf e.crew) r.returnEntry ++ one r.tagWait ++ bytesWord r.insertionOrder
    ++ one (Code.lock r.lock) ++ one (Code.command r.command) ++ one (Code.slot r.commanded) ++ one (Code.slot r.acknowledged)
    ++ yesNo r.withheld ++ bytesOpt bytes2 r.baseline ++ bytesOpt (fun x => one (Code.side x)) r.candidate ++ one r.saturation
    ++ bytesOpt bytes2 r.lastSense ++ one r.chatter.length ++ dockHolds r.dockHolds
    ++ mask [r.bikeHolds.riderReport, r.bikeHolds.batteryLow] ++ one (Code.level r.hostSetting) ++ bytesOpt tap r.lastTap
    ++ yesNo r.checkPending ++ one (Code.readerResult r.readerResult)
    ++ bytesOpt (fun w => bytes4 w.deadline ++ bytesHalf w.order) r.crewWindow ++ bytesOpt bytes4 r.reportWindow
    ++ bytesOpt one r.battery ++ one (Code.lamp r.lamp)

def owner : Owner → List Byte
  | .terminal t => 0 :: one (Code.terminal t)
  | .reader d => 1 :: one d
  | .order o => 2 :: bytesHalf o
  | .nobody => [3]

def dock (r : DockReply) : List Byte :=
  dockRecord r.record ++ one (Code.level r.level)
    ++ bytesOpt (fun c => one (Code.claimKind c.1) ++ one
        (Code.claimState c.2.1) ++ bytesOpt bytesWord c.2.2.1 ++ owner c.2.2.2) r.claim

def journalRead (r : JournalReply) : List Byte :=
  flag r.gap ++ one r.entries.length ++ bytesWord r.oldest ++ bytesWord r.next ++ bytes2 r.used ++ bytes2 r.booked
    ++ bytes2 r.reserve ++ slack r.slack ++ r.entries.flatMap entry

def order (o : Order) : List Byte :=
  bytesHalf o.id ++ one (Code.orderKind o.kind) ++ one (Code.orderClass o.cls) ++ one o.quantity ++ bytesOpt bytesWord o.notBefore
    ++ one (Code.orderState o.state) ++ one o.done

def session (v : SessionReply) : List Byte :=
  one (Code.sessionState v.state) ++ bytesHalf v.order ++ bytesWord v.card ++ bytesOpt (fun c => one (Code.closeCause c)) v.cause
    ++ bytesOpt bytes2 v.idleLeft ++ list (fun p => one p.1 ++ one
        (Code.mark p.2)) v.docks ++ one v.awaiting ++ list one v.windows

def faultList (r : FaultListReply) : List Byte :=
  bytes2 r.held ++ bytes2 r.selected ++ bytes2 r.size ++ bytes2 r.lost ++ list fault r.records

def terminal (r : TerminalReply) : List Byte :=
  one (Code.lineState r.line) ++ one r.badCount ++ yesNo r.power ++ one (Code.terminalState r.state) ++ bytesOpt bytesWord r.card
    ++ bytesOpt (fun k => one (Code.bikeClass k)) r.cls ++ bytesOpt one r.claimDock ++ yesNo r.reallocated

end Coding

/-- The fields of a reply after its code. -/
def Payload.bytes : Payload → List Byte
  | .nothing => []
  | .status r => Coding.status r
  | .mask m => bytesHalf m
  | .layout l => Coding.layout l
  | .settings live p => Coding.settings live ++ bytesOpt Coding.pendingSet p
  | .dock r => Coding.dock r
  | .level l => Coding.one (Code.level l)
  | .card c => Coding.card c
  | .journalRead r => Coding.journalRead r
  | .journalRelease k oldest s => bytes2 k ++ bytesWord oldest ++ Coding.slack s
  | .orders q v => Coding.list Coding.order q ++ bytesOpt Coding.session v
  | .faults r => Coding.faultList r
  | .condition c => Coding.one (Code.condition c)
  | .terminal r => Coding.terminal r

/-- A host frame: start byte, length, kind, tag, body, check (11.7). -/
def hostFrame (kind tag : Byte) (body : List Byte) : List Byte := 0xC3 :: withCheck (bytes2 body.length ++ [kind, tag] ++ body)

/-- The bytes of an outgoing frame; an unbegun NOTICE would carry the set as it stands. -/
def OutFrame.bytes (set : Half) : OutFrame → List Byte
  | .reply kind tag code payload => hostFrame kind tag (Coding.one (Code.reply code) ++ payload.bytes)
  | .notice content => hostFrame 0x40 0 (bytesHalf (content.getD set))
  | .cardQuery tag card place => hostFrame 0x41 0 (tag :: bytesWord card ++ Coding.one (Code.place place))

/-- The bytes of the frame being sent to the host (R193). -/
def State.sendingBytes (s : State) : List Byte := (s.host.outgoing.head?.map (·.bytes s.host.noticeSet)).getD []

/-- The poll frame on the dock bus (R3). -/
def Poll.bytes (p : Poll) : List Byte :=
  withCheck [byteOf p.dock, byteOf (Code.command p.command), byteOf (Code.slot p.mode), byteOf (Code.lamp p.lamp),
    byteOf (Code.readerResult p.result)]

/-- A terminal record: start byte, kind, length, fields, and the check that makes the sum 0 (11.7). -/
def terminalRecord (kind : Byte) (fields : List Byte) : List Byte :=
  let b := kind :: byteOf fields.length :: fields
  0xA5 :: b ++ [sumCheck b]

/-- A record to a terminal (5.2). -/
def TermRecord.bytes : TermRecord → List Byte
  | .show s => terminalRecord 0x81 (Coding.one (Code.screen s))
  | .offer d n => terminalRecord 0x82 (Coding.one d ++ Coding.one n)
  | .refuse r => terminalRecord 0x83 (Coding.one (Code.deny r))
  | .done o => terminalRecord 0x84 (Coding.one (Code.doneOutcome o))

end Sys2Proof.Machine
end

