-- ==== Sys2Proof/Machine/Journal.lean ====
section
/-! DEFINITION. The Journal Unit (chapter 6): the account, admissions, notices, bookings, entries, reading and releasing. -/

namespace Sys2Proof.Machine

/-! ### Arrivals that change the slack (R124 to R126) -/

/-- One admission (R39, R124): the withheld dock of the lowest number leaves the set; when its withheld flag stands its slot is
commanded OPEN in the same act and it is counted. -/
def State.admitDock (s : State) (d : DockNo) : State :=
  let s1 := s.onJournal fun j => { j with withheld := j.withheld.erase d }
  if (s.dock? d).any (fun r => r.withheld) then
    (((s1.onDock d fun r => { r with commanded := .opened, withheld := false }).onAccount d
      fun a => { a with slotOpen := true }).relamp d).postPass
  else s1

/-- R124: admissions while S is at least 1 and the withheld set is not empty. -/
def State.admitUpTo : Nat → State → State
  | 0, s => s
  | n + 1, s =>
    match s.journal.withheld.min? with
    | none => s
    | some d => if 1 ≤ s.slack then (s.admitDock d).admitUpTo n else s

def State.admitWithheld (s : State) : State := s.admitUpTo s.journal.withheld.length

/-- An arrival at the Journal Unit: the change, the admissions it leads to, and the two notices of a fall (R125, R126). -/
def State.journalArrival (s : State) (f : State → State) : State :=
  let s1 := (f s).admitWithheld
  let s2 := if s.slack > s.settings.yellowMargin ∧ s1.slack ≤ s.settings.yellowMargin then s1.join .journalYellow else s1
  if s.slack ≥ 2 ∧ s1.slack < 2 then s2.join .journalTight else s2

/-! ### Entries (R116 to R120) -/

/-- R116, R118: the entry takes the next sequence number and the Station Clock as it stands, and joins the newest end. -/
def State.appendEntry (s : State) (e : Entry) : State :=
  (s.onJournal fun j => { j with entries := j.entries ++
    [{ e with seq := s.store.nextSeq, time := s.store.clock, unset := s.store.clockUnset }] }).onStore
    fun st => { st with nextSeq := seqAfter st.nextSeq }

/-- An entry with nothing in it but its kind (R117). -/
def Entry.blank (kind : EntryKind) : Entry :=
  { seq := 0, time := 0, unset := false, kind := kind, dock := none, bike := none, card := none, reference := none,
    outcome := none, done := none, quantity := none, flags := {} }

/-- The grace list's entry for a bike (R94). -/
def State.graceOf (s : State) (b : BikeId) : Option GraceEntry := s.release.grace.find? fun g => g.bike == b

def State.dropGrace (s : State) (b : BikeId) : State :=
  s.onRelease fun u => { u with grace := u.grace.filter fun g => g.bike != b }

/-- R119, R94, R120: the entry of a pending return, with its kind chosen as it is written, from the dock's place in the
return reserve. -/
def State.writeReturn (s : State) (d : DockNo) (bike : Option BikeId) (late : Bool) (crew : Option OrderId) : State :=
  let s0 := s.onAccount d fun a => { a with owed := false }
  match bike.bind s.graceOf, crew with
  | some g, _ =>
    ((s0.appendEntry { Entry.blank .hireVoid with
        dock := some d, bike := bike, reference := some g.start,
        flags := { offline := g.offline, late := late } }).dropGrace g.bike).postIf g.offline (.refund g.card)
  | none, some o =>
    (s0.appendEntry { Entry.blank .vanIn with
        dock := some d, bike := bike, reference := some (o.setWidth 32),
        flags := { late := late, noTag := bike.isNone } }).post (.vanInNotice o d s.store.nextSeq bike.isSome)
  | none, none =>
    s0.appendEntry { Entry.blank .returned with dock := some d, bike := bike, flags := { late := late, noTag := bike.isNone } }

/-- The kind of a claim's ending entry (R84). -/
def ClaimKind.entryKind : ClaimKind → EntryKind
  | .member => .hireStart
  | .van => .vanOut
  | .service => .serviceOut

/-- R118: the entry a request asks for, with the room it draws on given up in the same act. -/
def State.writeRequested (s : State) (q : EntryRequest) : State :=
  match q with
  | .pendingReturn d bike late crew => s.writeReturn d bike late crew
  | .claimEnding d kind bike card reference offline lateTake resetTake =>
    (s.onAccount d fun a => { a with booked := false, passed := false }).appendEntry { Entry.blank kind.entryKind with
      dock := some d, bike := bike, card := card, reference := reference,
      flags := { offline := offline, lateTake := lateTake, resetTake := resetTake } }
  | .orderClosed o outcome n m =>
    (s.onJournal fun j => { j with vanBooked := false }).appendEntry { Entry.blank .orderClosed with
      reference := some (o.setWidth 32), outcome := some outcome, done := some n, quantity := some m }

def State.writeEntry (s : State) (q : EntryRequest) : State := s.journalArrival (·.writeRequested q)

/-! ### The told account (R121; log 6) -/

def CountChange.apply (c : CountChange) (a : DockAccount) : DockAccount :=
  match c with
  | .slot b => { a with slotOpen := b }
  | .occupancy o => { a with occupancy := o, passed := a.passed || (o == .empty && a.booked) }
  | .inserted => { a with occupancy := .occupied, owed := true }
  | .booked b => { a with booked := b, passed := false }

/-- R122: a claim told booked takes its booking in hand up. -/
def State.tellAccount (s : State) (d : DockNo) (c : CountChange) : State :=
  let s1 := s.onAccount d c.apply
  if c = .booked true then s1.onJournal fun j => { j with inHand := j.inHand.erase d } else s1

/-! ### Meanings -/

/-- BOOKING_REQUEST (R122): the request that holds the dock asks for a booking of 2, whatever bookings of earlier requests are
still in hand. Once it is granted the Release Controller goes on to the charge for a MEMBER claim (R74), and to the grant
otherwise. A second BOOKING_REQUEST for the same request, which only the sender can bring, is one more request (log 30). -/
def execBookingRequest (d : DockNo) (s : State) : Host.Outcome State Fault Refusal :=
  act (.bookingRequest d) s fun s =>
    match s.requestOn d with
    | none => s
    | some q =>
      if s.slack < 2 then s.post (.claimGrant d .tight)
      else
        (s.journalArrival (·.onJournal fun j => { j with inHand := j.inHand ++ [d] })).post
          (if q.kind = .member then .charge d q.holder else .claimGrant d .free)

/-- BOOKING_GIVEN_BACK (R122). -/
def execBookingGivenBack (d : DockNo) (s : State) : Host.Outcome State Fault Refusal :=
  act (.bookingGivenBack d) s fun s => s.journalArrival (·.onJournal fun j => { j with inHand := j.inHand.erase d })

/-- JOURNAL_ENTRY_WRITE (R118). -/
def execJournalEntryWrite (q : EntryRequest) (s : State) : Host.Outcome State Fault Refusal :=
  act (.journalEntryWrite q) s fun s => s.writeEntry q

/-- JOURNAL_WITHHELD_NOTICE (R38, R40, R124): the dock joins the withheld set, or leaves it. -/
def execJournalWithheldNotice (d : DockNo) (joins : Bool) (s : State) : Host.Outcome State Fault Refusal :=
  act (.journalWithheldNotice d joins) s fun s => s.journalArrival (·.onJournal fun j =>
    { j with withheld := if joins then (if d ∈ j.withheld then j.withheld else j.withheld ++ [d]) else j.withheld.erase d })

/-- JOURNAL_COUNT_NOTICE (R121): a told change updates the counts. -/
def execJournalCountNotice (d : DockNo) (c : CountChange) (s : State) : Host.Outcome State Fault Refusal :=
  act (.journalCountNotice d c) s fun s => s.journalArrival (·.tellAccount d c)

/-- The reply of R128 with the entries from a distance behind the next number on, at most `max`. -/
def State.journalReply (s : State) (gap : Bool) (entries : List Entry) : Payload :=
  .journalRead
    { gap := gap, entries := entries, oldest := s.oldestSeq, next := s.store.nextSeq, used := s.journal.used,
      booked := s.journal.bookedEntries, reserve := s.journal.reserve, slack := s.slack }

/-- JOURNAL_READ (R128). -/
def execJournalRead (tag : Byte) (body : List Byte) (s : State) : Host.Outcome State Fault Refusal :=
  request (.journalRead tag body) 0x12 tag s (Operands.journalRead body) fun q s =>
    match s.position q.1 with
    | .held => s.reply 0x12 tag .ok (s.journalReply false
        ((s.journal.entries.drop (s.journal.used - distanceBehind s.store.nextSeq q.1)).take q.2))
    | .next => s.reply 0x12 tag .ok (s.journalReply false [])
    | .released => s.reply 0x12 tag .ok (s.journalReply true (s.journal.entries.take q.2))
    | .ahead => s.reply 0x12 tag .badSeq

/-- How many entries a release through `x` removes (R129); `none` is BAD_SEQ. -/
def State.releaseCount (s : State) (x : SeqNo) : Option Nat :=
  match s.position x with
  | .held => some (s.journal.used - distanceBehind s.store.nextSeq x + 1)
  | .released => some 0
  | .next => none
  | .ahead => none

/-- JOURNAL_RELEASE (R129). -/
def execJournalRelease (tag : Byte) (body : List Byte) (s : State) : Host.Outcome State Fault Refusal :=
  request (.journalRelease tag body) 0x13 tag s (Operands.journalRelease body) fun through s =>
    match s.releaseCount through with
    | none => s.reply 0x13 tag .badSeq
    | some k =>
      let s1 := s.journalArrival (·.onJournal fun j => { j with entries := j.entries.drop k })
      s1.reply 0x13 tag .ok (.journalRelease k s1.oldestSeq s1.slack)

end Sys2Proof.Machine
end

