-- ==== Sys2Proof/Machine/Orders.lean ====
section
/-! DEFINITION. The Order Unit (chapter 7): the queue, placing reservations, closing, and the arrivals that count bikes. -/

namespace Sys2Proof.Machine

/-! ### The session and its order -/

/-- A van session of this order, when one exists. -/
def State.boundTo (s : State) (o : OrderId) : Option VanSession := s.order.session.filter fun v => v.order == o

def VanSession.marked (v : VanSession) (d : DockNo) : Option Mark := (v.docks.find? fun p => p.1 == d).map Prod.snd

def VanSession.leave (v : VanSession) (d : DockNo) : VanSession := { v with docks := v.docks.filter fun p => p.1 != d }

def VanSession.mark (v : VanSession) (d : DockNo) (m : Mark) : VanSession :=
  { v with docks := v.docks.map fun p => if p.1 = d then (d, m) else p }

/-- R150: while OPEN the van-idle deadline restarts. -/
def State.restartIdle (s : State) : State :=
  s.onVan fun v => if v.state = .opened then { v with idleDeadline := some (s.now + s.settings.vanIdle) } else v

/-- The order's done count rises by 1, within its quantity (R132, R145, R148; log 26). -/
def State.countDone (s : State) (id : OrderId) : State :=
  s.onOrders fun u => { u with queue := u.queue.map fun o => if o.id = id then { o with done := min o.quantity (o.done + 1) } else o }

/-- The dock carries a VAN claim of this order that a session counts: one not in ORPHAN state (R139). -/
def State.countsClaim (s : State) (d : DockNo) (o : OrderId) : Bool :=
  (s.claimOn d).any fun c => c.kind == .van && c.order == some o && c.state != .orphan

/-- The dock carries the RESERVED VAN claim of this order (R76). -/
def State.reservedFor (s : State) (d : DockNo) (o : Option OrderId) : Bool :=
  (s.claimOn d).any fun c => c.kind == .van && c.state == .reserved && c.order == o

/-- A release of the reservation at this dock is on its way to the Release Controller, or in hand there (R143, R76). -/
def State.releaseAsked (s : State) (d : DockNo) : Bool :=
  (s.requestOn d).isSome || s.inFlight.any fun i =>
    match i with
    | .vanReleaseRequest e _ _ => e == d
    | _ => false

/-- A session dock stands while its claim counts and no drop of it is on its way; any other is given up, though it has not been
told (R139; log 36). -/
def State.standsFor (s : State) (v : VanSession) (d : DockNo) : Bool :=
  s.countsClaim d v.order && !(s.inFlight.contains (.reservationDrop d))

/-- R139, R144: the session docks whose RESERVED claim can be asked to be dropped, the highest number first: marked RESERVED, standing,
their claim RESERVED, and no release of it asked for (logs 36 and 42). -/
def State.droppable (s : State) (v : VanSession) : List DockNo :=
  ((v.docks.filter fun p =>
      p.2 == .reserved && s.standsFor v p.1 && s.reservedFor p.1 (some v.order) && !(s.releaseAsked p.1)).map Prod.fst).insertionSort
    (fun a b => b ≤ a)

/-- The number of session docks that stand (R139; log 36). -/
def State.standingDocks (s : State) (v : VanSession) : Nat := (v.docks.filter fun p => s.standsFor v p.1).length

/-- R139: while OPEN, RESERVED claims are asked to be dropped, the highest-numbered first, until the session docks are no more
than the target. -/
def State.holdToTarget (s : State) : State :=
  match s.order.session with
  | none => s
  | some v =>
    if v.state = .opened then
      s.postAll (((s.droppable v).take (s.standingDocks v - s.target v)).map .reservationDrop)
    else s

/-! ### Reservations (R75, R142) -/

/-- R75: a VAN claim in RESERVED state is placed, and the dock joins the session docks (R139). The tests are those of R75, with
a dock held by a request refused as a claimed one is (R74). An order without a session, or a dock without a record, is refused
as well (log 10). The claim takes no captured values; what the two fields hold until its release is 0 and 0, the model's choice (log 48). -/
def State.reserve (s : State) (d : DockNo) (o : OrderId) : Except DenyReason State :=
  match s.boundTo o, s.dock? d with
  | none, _ => .error .noOrder
  | some _, none => .error .dockLimit
  | some _, some _ =>
    if (s.claimOn d).isSome ∨ (s.requestOn d).isSome then .error .claimed
    else if s.level d = .closed then .error .dockLimit
    else
      .ok (((s.addClaim
        { dock := d, kind := .van, state := .reserved, holder := none, owner := .order o, order := some o,
          orphanCause := none, takeWindow := 0, tariff := 0, offline := false, deadline := none }).onVan fun v =>
        { v with docks := (v.leave d).docks ++ [(d, .reserved)] }).post (.dockClaimNotice d))

/-- The reservation when it can be placed, and nothing otherwise. -/
def State.tryReserve (s : State) (d : DockNo) (o : OrderId) : State :=
  match s.reserve d o with
  | .ok s' => s'
  | .error _ => s

/-- One dock of a placement pass (R142). -/
def State.passDock (s : State) (d : DockNo) : State :=
  match s.order.session with
  | none => s
  | some v =>
    match s.orderOf v.order with
    | none => s
    | some o => if v.docks.length < s.target v ∧ s.reservable o d then s.tryReserve d v.order else s

/-- R142: a placement pass, in dock-number order, while OPEN and not in RESERVE (R149). -/
def State.placementPass (s : State) : State :=
  if s.sessionOpen ∧ s.supply.power ≠ .reserve then (List.range s.dockCount).foldl State.passDock s else s

/-! ### Closing (R151, R152) -/

/-- The outcome of the closing entry, read at the write (R152). -/
def closeOutcome (cause : Option CloseCause) (done quantity : Nat) : CloseOutcome :=
  if cause = some .cancelled then .cancelled else if done = quantity then .done else .partly

/-- R152: the closing entry is written from the booking, the order leaves the queue and the session ceases to exist. -/
def State.closeSession (s : State) (v : VanSession) : State :=
  match s.orderOf v.order with
  | none => s.onOrders fun u => { u with session := none }
  | some o =>
    ((s.writeEntry (.orderClosed v.order (closeOutcome v.cause o.done o.quantity) o.done o.quantity)).onOrders fun u =>
      { queue := u.queue.filter fun x => x.id != v.order, session := none }).join .orderClosed

/-- R151: CLOSING is complete when the session docks are empty. -/
def State.testComplete (s : State) : State :=
  match s.order.session with
  | none => s
  | some v => if v.state = .closing ∧ v.docks = [] then s.closeSession v else s

/-- R151: an OPEN session enters CLOSING: reservations are dropped at request, crew windows withdrawn, the idle deadline gone. -/
def State.enterClosing (s : State) (cause : CloseCause) : State :=
  match s.order.session with
  | none => s
  | some v =>
    if v.state = .opened then
      let s1 := s.postAll (((v.docks.filter fun p => p.2 == .reserved).map Prod.fst).map .reservationDrop)
      let s2 := v.windows.foldl (fun s d => s.onDock d fun r => { r with crewWindow := none }) s1
      (s2.onVan fun v => { v with state := .closing, cause := some cause, idleDeadline := none, windows := [] }).testComplete
    else s

/-- R145, R147: the dock whose claim is told to have ended leaves the session docks. A dock that carries a claim of the order
again, placed before the ending was told, stays among them (log 32). -/
def State.leaveDock (s : State) (d : DockNo) (o : OrderId) : State :=
  if s.countsClaim d o then s else s.onVan (·.leave d)

/-- R139, R145, R148: after done has risen, the quantity reached closes the session and otherwise the docks are held
to the target. -/
def State.afterDone (s : State) (id : OrderId) : State :=
  if (s.orderOf id).any (fun o => o.done == o.quantity) then s.enterClosing .done else s.holdToTarget

/-! ### Arrivals at the Order Unit -/

/-- VAN_CLAIM_NOTICE (R145). -/
def execVanClaimNotice (d : DockNo) (o : OrderId) (news : VanNews) (s : State) : Host.Outcome State Fault Refusal :=
  act (.vanClaimNotice d o news) s fun s =>
    match s.boundTo o with
    | none => s
    | some v =>
      if (v.marked d).isNone then s
      else
        let s1 := s.leaveDock d o
        (match news with
          | .taken => ((s1.countDone o).restartIdle).afterDone o
          | .lapsedOrFailed => s1.postPass
          | .droppedAtRequest => s1
          | .droppedByEvent => s1.postPass
          | .orphaned => s1).testComplete

/-- CREW_INSERTION_NOTICE (R147). The awaiting count stops at 64 (log 26). The completion of CLOSING is tested here too, an insertion
that consumes the last session dock as well as a drop (R151; log 38). -/
def execCrewInsertionNotice (d : DockNo) (news : CrewInsertion) (s : State) : Host.Outcome State Fault Refusal :=
  act (.crewInsertionNotice d news) s fun s =>
    match s.order.session with
    | none => s
    | some v =>
      match news with
      | .inserted none => s
      | .inserted (some o) =>
        if v.order = o then
          ((s.onVan fun v =>
            { v with awaiting := min 64 (v.awaiting + 1), windows := v.windows.filter (· != d),
                     docks := v.docks.filter fun p => !(p.1 == d && p.2 == .reserved) }).holdToTarget).testComplete
        else s
      | .dropped (some _) => (s.leaveDock d v.order).testComplete
      | .dropped none => if (v.marked d).isNone then s else ((s.leaveDock d v.order).postPass).testComplete

/-- VAN_IN_NOTICE (R120, R148). -/
def execVanInNotice (o : OrderId) (d : DockNo) (seq : SeqNo) (identified : Bool) (s : State) :
    Host.Outcome State Fault Refusal :=
  act (.vanInNotice o d seq identified) s fun s =>
    match s.boundTo o with
    | none => s
    | some _ => ((((s.countDone o).onVan fun v => { v with awaiting := v.awaiting - 1 }).restartIdle).afterDone o)

/-- VAN_IDLE_DEADLINE (R150). -/
def execVanIdleDeadline (s : State) : Host.Outcome State Fault Refusal :=
  act .vanIdleDeadline s fun s =>
    if s.order.session.any (fun v => v.state == .opened && s.reached v.idleDeadline) then s.enterClosing .idle else s

/-- PLACEMENT_PASS (R142). -/
def execPlacementPass (s : State) : Host.Outcome State Fault Refusal := act .placementPass s State.placementPass

/-! ### Opening (R137, R138) -/

/-- The conditions of R138 before the booking. -/
def State.openingDenied (s : State) : Option DenyReason :=
  if s.store.station ≠ .serving then some .outOfService
  else if s.supply.power = .reserve then some .power
  else if s.order.queue.any s.orderEligible then none else some .noOrder

/-- R138: the session opens on the oldest eligible order, and a placement pass is made. -/
def State.openSession (s : State) (card : CardId) (place : Place) (o : Order) : State :=
  let s1 := s.journalArrival (·.onJournal fun j => { j with vanBooked := true })
  let s2 := s1.onOrders fun u =>
    { queue := u.queue.map fun x => if x.id = o.id then { x with state := .active } else x,
      session := some
        { state := .opened, order := o.id, card := card, cause := none,
          idleDeadline := some (s.now + s.settings.vanIdle), docks := [], awaiting := 0, windows := [] } }
  (s2.tellPlace place .vanOpened).placementPass

/-- VAN_BOOKING (R123, R138): the booking is answered and the session opens in the same act. The conditions are tested as they
stand then (log 9). -/
def execVanBooking (card : CardId) (place : Place) (s : State) : Host.Outcome State Fault Refusal :=
  act (.vanBooking card place) s fun s =>
    if s.order.session.isSome then s.denyPlace place .busy
    else match s.openingDenied, s.order.queue.find? s.orderEligible with
      | some why, _ => s.denyPlace place why
      | none, none => s.denyPlace place .noOrder
      | none, some o => if 1 ≤ s.slack then s.openSession card place o else s.denyPlace place .tight

/-! ### Crew taps in an open session (R143, R144, R146) -/

/-- The tests of R144, in order; what passes gives the reservation to give up. -/
def State.moveTests (s : State) (v : VanSession) (d : DockNo) : Except DenyReason DockNo :=
  match s.dock? d, s.orderOf v.order with
  | some r, some o =>
    if s.supply.power = .reserve then .error .power
    else if (s.claimOn d).isSome then .error .claimed
    else if r.occupancy ≠ .occupied then .error .noBike
    else if r.lock ≠ .locked ∨ s.level d = .closed then .error .dockLimit
    else if ¬ r.matchesClass o.cls then .error .limit
    else match s.droppable v with
      | h :: _ => .ok h
      | [] => .error .limit
  | _, _ => .error .dockLimit

/-- R144: a reservation is moved to the dock, or the tap is refused. -/
def State.moveTap (s : State) (v : VanSession) (card : CardId) (d : DockNo) : State :=
  match s.moveTests v d with
  | .error why => s.readerDecided d (.deny why)
  | .ok h => (s.post (.reservationDrop h)).post (.vanReleaseRequest d v.order card)

/-- A CREW tap at a dock reader in an OPEN COLLECT session (R143, R144). A session dock marked RESERVED that is given up is taken as one
not among the session docks; one still marked BOOKED is CLAIMED, its claim ended or not (log 42). -/
def State.collectTap (s : State) (v : VanSession) (card : CardId) (d : DockNo) : State :=
  match v.marked d with
  | some .reserved =>
    if s.standsFor v d then
      if s.supply.power = .reserve then s.readerDecided d (.deny .power) else s.post (.vanReleaseRequest d v.order card)
    else s.moveTap v card d
  | some .booked => s.readerDecided d (.deny .claimed)
  | none => s.moveTap v card d

/-- The tests of R146, in order. -/
def State.windowDenied (s : State) (v : VanSession) (d : DockNo) : Option DenyReason :=
  match s.dock? d with
  | none => some .dockLimit
  | some r =>
    if (s.claimOn d).any (fun c => !(c.kind == .van && c.state == .reserved && v.marked d == some .reserved)) then some .claimed
    else if r.occupancy ≠ .empty then some .limit
    else if s.level d = .closed then some .dockLimit
    else if ¬ r.effOpen then some .tight
    else none

/-- A CREW tap at a dock reader in an OPEN DELIVER session (R146, R28). -/
def State.deliverTap (s : State) (v : VanSession) (d : DockNo) : State :=
  match s.windowDenied v d with
  | some why => s.readerDecided d (.deny why)
  | none =>
    ((s.onDock d fun r => { r with crewWindow := some ⟨s.now + s.settings.crewWindow, v.order⟩ }).onVan fun v =>
      { v with windows := v.windows.filter (· != d) ++ [d] }).readerDecided d .allow

/-- A CREW tap taken in an OPEN session (R137). -/
def State.openTap (s : State) (v : VanSession) (card : CardId) (place : Place) : State :=
  match place with
  | .terminal _ _ => (s.tellPlace place .vanClosed).enterClosing .terminal
  | .reader d =>
    match s.orderOf v.order with
    | none => s.denyPlace place .noOrder
    | some o =>
      match o.kind with
      | .collect => s.collectTap v card d
      | .deliver => s.deliverTap v d

/-- CREW_TAP (R137): with no session the opening conditions are tested and the booking is asked for; CLOSING refuses BUSY. -/
def execCrewTap (card : CardId) (place : Place) (s : State) : Host.Outcome State Fault Refusal :=
  act (.crewTap card place) s fun s =>
    match s.order.session with
    | none =>
      match s.openingDenied with
      | some why => s.denyPlace place why
      | none => s.post (.vanBooking card place)
    | some v => if v.state = .opened then s.restartIdle.openTap v card place else s.denyPlace place .busy

/-! ### Requests (R133 to R135) -/

/-- ORDER_ADD (R133). -/
def execOrderAdd (tag : Byte) (body : List Byte) (s : State) : Host.Outcome State Fault Refusal :=
  request (.orderAdd tag body) 0x14 tag s (Operands.orderAdd body) fun o s =>
    if (s.orderOf o.id).isSome then s.reply 0x14 tag .duplicate
    else if s.order.queue.length < Config.orderRoom then
      (s.onOrders fun u => { u with queue := u.queue ++ [o] }).reply 0x14 tag .ok
    else s.reply 0x14 tag .tableFull

/-- R134: the session of an ACTIVE order closes with cause CANCELLED, which replaces an earlier cause. -/
def State.cancelSession (s : State) : State :=
  if s.sessionOpen then s.enterClosing .cancelled else s.onVan fun v => { v with cause := some .cancelled }

/-- ORDER_CANCEL (R134). -/
def execOrderCancel (tag : Byte) (body : List Byte) (s : State) : Host.Outcome State Fault Refusal :=
  request (.orderCancel tag body) 0x15 tag s (Operands.orderId body) fun id s =>
    match s.orderOf id with
    | none => s.reply 0x15 tag .notFound
    | some o =>
      (match o.state with
        | .queued => s.onOrders fun u => { u with queue := u.queue.filter fun x => x.id != id }
        | .active => s.cancelSession).reply 0x15 tag .ok

/-- What ORDER_LIST shows of the van session (R135). The session docks stand in the order of their joining, the crew window docks in
that of their last opening (log 33). -/
def State.sessionReply (s : State) (v : VanSession) : SessionReply :=
  { state := v.state, order := v.order, card := v.card, cause := v.cause, idleLeft := v.idleDeadline.map (· - s.now),
    docks := v.docks, awaiting := v.awaiting, windows := v.windows }

/-- ORDER_LIST (R135). -/
def execOrderList (tag : Byte) (body : List Byte) (s : State) : Host.Outcome State Fault Refusal :=
  request (.orderList tag body) 0x16 tag s (Operands.empty body) fun _ s =>
    s.reply 0x16 tag .ok (.orders s.order.queue (s.order.session.map s.sessionReply))

end Sys2Proof.Machine
end

