-- ==== Sys2Proof/Machine/Sessions.lean ====
section
/-! DEFINITION. What happens to a terminal session and its line (5.1, 5.4), as operations other blocks' acts also use: starting,
ending, asking for an allocation, the abort, a change of line state, what each arrival on a line does, and the answer of an
allocation with the arrivals that waited for it. -/

namespace Sys2Proof.Machine

/-- R102: on every return to IDLE every field but the state becomes absent. The attempt number is the model's (log 12). -/
def Session.ended (x : Session) : Session := { attempt := x.attempt }

/-- R103, R104: a new attempt starts, in CHECKING. -/
def Session.started (x : Session) (card : CardId) : Session :=
  { state := .checking, card := some card, attempt := x.attempt + 1 }

def State.endSession (s : State) (t : TerminalId) : State := s.onSession t Session.ended

/-- REFUSE with a reason, and the session returns to IDLE. -/
def State.refuseSession (s : State) (t : TerminalId) (why : DenyReason) : State :=
  (s.sendTerminal t (.refuse why)).endSession t

/-- DONE with an outcome, and the session returns to IDLE. -/
def State.finishSession (s : State) (t : TerminalId) (o : DoneOutcome) : State :=
  (s.sendTerminal t (.done o)).endSession t

/-! ### Allocation (R108) -/

/-- The session asks for an allocation of a class, and waits for the answer in CHECKING. -/
def State.askAllocation (s : State) (t : TerminalId) (cls : BikeClass) (exclude : Option DockNo) : State :=
  let x := (s.terminal t).session
  (s.onSession t fun x =>
      { x with state := .checking, cls := some cls, claimDock := none, deadline := none, allocating := true }).post
    (.allocation t cls (x.card.getD 0) (x.origin.getD .terminal) exclude)

/-! ### Abort and line state (R97, R112) -/

/-- A place of this terminal. -/
def Place.isAt : Place → TerminalId → Bool
  | .reader _, _ => false
  | .terminal u _, t => u == t

/-- R67: the terminal leaves every waiter list, the order of the others kept. -/
def State.leaveQueries (s : State) (t : TerminalId) : State :=
  s.onCards fun u => { u with queries := u.queries.map fun q => { q with waiters := q.waiters.filter fun p => !p.isAt t } }

/-- R110, R112: the owner of the session's claim becomes none. -/
def State.disown (s : State) (t : TerminalId) : State :=
  s.onRelease fun u =>
    { u with claims := u.claims.map fun c => if c.owner = .terminal t then { c with owner := .nobody } else c }

/-- R112: a session that is not IDLE returns to IDLE, leaving its query and disowning its claim. -/
def State.abortSession (s : State) (t : TerminalId) : State :=
  if (s.terminal t).session.state = .idle then s else ((s.leaveQueries t).disown t).endSession t

/-- R97: a change of line state joins TERMINAL_CHANGED. -/
def State.setLine (s : State) (t : TerminalId) (l : LineState) : State :=
  (s.onTerminal t fun x => { x with line := l }).join .terminalChanged

/-- A line that leaves UP: its session is aborted (R97, R112). -/
def State.lineLeavesUp (s : State) (t : TerminalId) (l : LineState) : State := (s.setLine t l).abortSession t

/-- A line becomes UP: SHOW with WELCOME (R97). -/
def State.lineComesUp (s : State) (t : TerminalId) : State := (s.setLine t .up).sendTerminal t (.show .welcome)

/-! ### What each arrival on a line does (5.1, 5.4) -/

/-- R98: a record with a good check sets the bad-record count to 0; on a DISABLED line it is discarded unread. -/
def State.goodRecord (s : State) (t : TerminalId) (f : State → State) : State :=
  if (s.terminal t).line = .disabled then s else f (s.onTerminal t fun x => { x with badCount := 0 })

/-- R98: on a DOWN line a good record other than HELLO is discarded. -/
def State.goodRecordUp (s : State) (t : TerminalId) (f : State → State) : State :=
  s.goodRecord t fun s => if (s.terminal t).line = .up then f s else s

/-- HELLO (R97, R111, R112). -/
def State.takeHello (s : State) (t : TerminalId) : State :=
  s.goodRecord t fun s =>
    if (s.terminal t).line = .up then (s.abortSession t).sendTerminal t (.show .welcome) else s.lineComesUp t

/-- R103, R104: an attempt starts with SHOW WAIT, and the card or the sale is handed to the Card Unit with the attempt's place. -/
def State.startSession (s : State) (t : TerminalId) (card : CardId) (hand : Nat → Instr) : State :=
  let s1 := (s.onSession t (·.started card)).sendTerminal t (.show .wait)
  s1.post (hand (s1.terminal t).session.attempt)

/-- R111: a TAP or PAID starts a session in IDLE and again in CHOOSING, and is refused BUSY otherwise. -/
def State.tapOrPaid (s : State) (t : TerminalId) (card : CardId) (hand : Nat → Instr) : State :=
  match (s.terminal t).session.state with
  | .idle => s.startSession t card hand
  | .choosing => s.startSession t card hand
  | .checking => s.sendTerminal t (.refuse .busy)
  | .offered => s.sendTerminal t (.refuse .busy)

/-- TAP (R103, R107, R111). -/
def State.takeTap (s : State) (t : TerminalId) (card : CardId) : State :=
  s.goodRecordUp t fun s => if card = 0 then s else s.tapOrPaid t card fun a => .cardCheck card (.terminal t a)

/-- PAID (R104, R107, R111). -/
def State.takePaid (s : State) (t : TerminalId) (code : CardId) (rights : Byte) (expiry : ClockTime) : State :=
  s.goodRecordUp t fun s => s.tapOrPaid t code fun a => .passSale t a code rights expiry

/-- PICK (R107). -/
def State.takePick (s : State) (t : TerminalId) (cls : BikeClass) : State :=
  s.goodRecordUp t fun s =>
    let x := (s.terminal t).session
    if x.state ≠ .choosing then s
    else if cls = .electric ∧ x.rights = some .standard then s.refuseSession t .noRight
    else s.askAllocation t cls none

/-- R107: the choice is abandoned without a refusal. -/
def State.abandonChoice (s : State) (t : TerminalId) : State := (s.sendTerminal t (.show .welcome)).endSession t

/-- CANCEL (R107, R111). -/
def State.takeCancel (s : State) (t : TerminalId) : State :=
  s.goodRecordUp t fun s => if (s.terminal t).session.state = .choosing then s.abandonChoice t else s

/-- R98: the fourth consecutive bad record disables the line and raises LINE_FAILED. -/
def State.badRecord (s : State) (t : TerminalId) : State :=
  let x := s.terminal t
  if x.line = .disabled then s
  else if x.badCount + 1 < 4 then s.onTerminal t fun x => { x with badCount := x.badCount + 1 }
  else
    let s1 := s.onTerminal t fun x => { x with badCount := 0 }
    (if x.line = .up then s1.lineLeavesUp t .disabled else s1.setLine t .disabled).raise (.terminal t) .lineFailed none

/-- A break, or the output switched OFF: an UP line goes DOWN (R97). -/
def State.lineFalls (s : State) (t : TerminalId) : State :=
  if (s.terminal t).line = .up then s.lineLeavesUp t .down else s

/-- An arrival on the line is taken. -/
def State.takeLine (s : State) (t : TerminalId) (a : LineArrival) : State :=
  match a with
  | .hello => s.takeHello t
  | .tap card => s.takeTap t card
  | .paid code rights expiry => s.takePaid t code rights expiry
  | .pick cls => s.takePick t cls
  | .cancel => s.takeCancel t
  | .bad => s.badRecord t
  | .discarded => s.goodRecord t id
  | .broken => s.lineFalls t
  | .off => s.lineFalls t

/-- An arrival on a line: a session that waits on the allocator completes that exchange first (R108; log 11). -/
def State.lineTakes (s : State) (t : TerminalId) (a : LineArrival) : State :=
  if (s.terminal t).session.allocating then s.onTerminal t fun x => { x with deferred := x.deferred ++ [a] } else s.takeLine t a

/-! ### The answer of an allocation (R108) -/

/-- The exchange is complete: the arrivals that the line deferred are taken next, oldest first, each as an act of its own would
take it (log 11). -/
def State.allocationAnswered (s : State) (t : TerminalId) : State :=
  (s.terminal t).deferred.foldl (fun s a => (s.onHost HostLink.beginSending).lineTakes t a)
    (s.onTerminal t fun x => { x with deferred := [], session := { x.session with allocating := false } })

/-- R108, the grant: the session becomes OFFERED as the owner of the claim at `d`. -/
def State.sessionOffered (s : State) (t : TerminalId) (d : DockNo) (window : Nat) : State :=
  ((s.onSession t fun x =>
      { x with state := .offered, claimDock := some d,
               deadline := some (s.now + Config.offerMargin + s.settings.terminalIdle) }).sendTerminal t
    (.offer d window)).allocationAnswered t

/-- R108, the refusal: the reason on a first allocation, JAMMED on a re-allocation. -/
def State.sessionRefused (s : State) (t : TerminalId) (why : DenyReason) : State :=
  (s.refuseSession t (if (s.terminal t).session.reallocated then .jammed else why)).allocationAnswered t

end Sys2Proof.Machine
end

