-- ==== Sys2Proof/Machine/Claims.lean ====
section
/-! DEFINITION. The Release Controller (chapter 4): requests and their tests, the grant, the course of a claim, its endings, the
allocator and the grace list. -/

namespace Sys2Proof.Machine

/-! ### Telling (R72, R87) -/

/-- The dock's slot want and lamp are taken again (R72). -/
def State.tellDock (s : State) (d : DockNo) : State := s.post (.dockClaimNotice d)

/-- A terminal that owns the claim is told (R87). -/
def State.tellOwner (s : State) (c : Claim) (news : ClaimNews) : State :=
  match c.owner with
  | .terminal t => s.post (.claimNoticeAtSession t c.dock news)
  | .reader _ => s
  | .order _ => s
  | .nobody => s

/-- A request is refused with its reason: to its reader, or to the session that waits for the answer (R73, R90). -/
def State.refuseRequest (s : State) (o : Owner) (why : DenyReason) : State :=
  match o with
  | .reader d => s.readerDecided d (.deny why)
  | .terminal t => if (s.terminal t).session.allocating then s.sessionRefused t why else s
  | .order _ => s
  | .nobody => s

/-! ### Tests (R73, R76) -/

/-- The tests of R73, in order. `own` is the dock of the request itself when they are made again at step 3 of R74: its hold on its
dock and holder then counts as free. The hold of another request (R74) fails the test of its reason: a held holder the first, a
held dock the one for CLAIMED, in the order of R73 (log 18). -/
def State.claimTests (s : State) (d : DockNo) (kind : ClaimKind) (holder : CardId) (own : Option DockNo) : Option DenyReason :=
  match s.dock? d with
  | none => some .dockLimit
  | some r =>
    if s.releasingHolder holder ∨ s.heldHolder holder own then some .already
    else if r.link ≠ .online then some .dockLimit
    else if (s.claimOn d).any (fun c => c.kind == .van && c.state == .reserved) then some .reserved
    else if (s.claimOn d).isSome ∨ ((s.requestOn d).isSome ∧ own ≠ some d) then some .claimed
    else if r.occupancy ≠ .occupied ∨ r.bike.isNone then some .noBike
    else if r.lock ≠ .locked then some .dockLimit
    else if ¬ (s.level d).permits kind then some .dockLimit
    else none

/-- The tests of R76, in order, against the RESERVED claim of the order. -/
def State.vanTests (s : State) (d : DockNo) (card : CardId) (own : Option DockNo) : Option DenyReason :=
  match s.dock? d with
  | none => some .dockLimit
  | some r =>
    if s.releasingHolder card ∨ s.heldHolder card own then some .already
    else if r.link ≠ .online then some .dockLimit
    else if r.occupancy ≠ .occupied then some .noBike
    else if r.lock ≠ .locked then some .dockLimit
    else if ¬ (s.level d).permits .van then some .dockLimit
    else none

/-- R74, step 3: the tests made again, with the station still SERVING. A VAN release whose RESERVED claim has gone is refused
CLAIMED whatever else fails; beside that OUT_OF_SERVICE comes first (log 18). -/
def State.grantTests (s : State) (q : ClaimRequest) : Option DenyReason :=
  if q.kind = .van ∧ ¬ s.reservedFor q.dock q.order then some .claimed
  else if s.store.station ≠ .serving then some .outOfService
  else match q.kind with
    | .van => s.vanTests q.dock q.holder (some q.dock)
    | .member => s.claimTests q.dock q.kind q.holder (some q.dock)
    | .service => s.claimTests q.dock q.kind q.holder (some q.dock)

/-! ### Requests in hand (R74) -/

/-- The request holds its dock and its holder, and asks for a booking of 2. -/
def State.holdRequest (s : State) (q : ClaimRequest) : State :=
  (s.onRelease fun u => { u with requests := u.requests ++ [q] }).post (.bookingRequest q.dock)

def State.dropRequest (s : State) (d : DockNo) : State :=
  s.onRelease fun u => { u with requests := u.requests.filter fun q => q.dock != d }

/-- R73: a request for a MEMBER or SERVICE claim. -/
def State.requestClaim (s : State) (d : DockNo) (kind : ClaimKind) (holder : CardId) (origin : CardOrigin)
    (owner : Owner) : State :=
  match s.claimTests d kind holder none with
  | some why => s.refuseRequest owner why
  | none => s.holdRequest { dock := d, kind := kind, holder := holder, origin := origin, owner := owner, order := none }

/-- CLAIM_REQUEST (R73). -/
def execClaimRequest (d : DockNo) (kind : ClaimKind) (holder : CardId) (origin : CardOrigin) (owner : Owner) (s : State) :
    Host.Outcome State Fault Refusal :=
  act (.claimRequest d kind holder origin owner) s fun s =>
    match kind with
    | .member => s.requestClaim d .member holder origin owner
    | .service => s.requestClaim d .service holder origin owner
    | .van => s

/-- The docks the allocator may take for a class (R90). -/
def State.allocatable (s : State) (k : BikeClass) (exclude : Option DockNo) : List DockNo :=
  (List.range s.dockCount).filter fun d => s.hireable k d && exclude != some d

/-- R90: the dock whose bike has stood longest, the lower number first. -/
def State.allocate (s : State) (k : BikeClass) (exclude : Option DockNo) : Option DockNo :=
  firstLargest s.standing (s.allocatable k exclude)

/-- ALLOCATION (R90): the choice and the request are one act. -/
def execAllocation (t : TerminalId) (cls : BikeClass) (holder : CardId) (origin : CardOrigin) (exclude : Option DockNo)
    (s : State) : Host.Outcome State Fault Refusal :=
  act (.allocation t cls holder origin exclude) s fun s =>
    match s.allocate cls exclude with
    | none => s.refuseRequest (.terminal t) .noBike
    | some d => s.requestClaim d .member holder origin (.terminal t)

/-! ### The grant (R74) -/

/-- The owner a granted claim takes: a terminal session that no longer waits owns nothing (R113). -/
def State.grantOwner (s : State) (o : Owner) : Owner :=
  match o with
  | .terminal t => if (s.terminal t).session.allocating then o else .nobody
  | .reader _ => o
  | .order _ => o
  | .nobody => o

/-- The grant is told to its owner (R87). -/
def State.tellGrant (s : State) (d : DockNo) (o : Owner) (window : Nat) : State :=
  match o with
  | .terminal t => s.sessionOffered t d window
  | .reader x => s.readerDecided x .allow
  | .order _ => s.readerDecided d .allow
  | .nobody => s

/-- The claim of a request, as it stands in RELEASE_SENT: values captured, deadline set (R70, R74). -/
def State.releaseSentClaim (s : State) (q : ClaimRequest) (offline : Bool) : Claim :=
  { dock := q.dock, kind := q.kind, state := .releaseSent, holder := some q.holder, owner := s.grantOwner q.owner,
    order := q.order, orphanCause := none, takeWindow := s.settings.takeWindow, tariff := s.settings.tariff,
    offline := offline, deadline := some (s.now + Config.lockLimit) }

/-- R74, step 3 and 4: the claim enters the table in RELEASE_SENT (a VAN claim in place of its reservation, whose dock becomes
BOOKED in the session, R139), the RELEASE is pending, and the grant is told. -/
def State.grantClaim (s : State) (q : ClaimRequest) (offline : Bool) : State :=
  let c := s.releaseSentClaim q offline
  let s1 := ((s.removeClaim q.dock).addClaim c).setCommand q.dock .release
  let s2 := ((if q.kind = .van then s1.onVan (·.mark q.dock .booked) else s1).tellDock q.dock).post
    (.journalCountNotice q.dock (.booked true))
  s2.tellGrant q.dock c.owner c.takeWindow

/-- A refused release leaves its claim RESERVED (R76). In CLOSING the session keeps no RESERVED dock (R151), so the Order Unit asks
for the drop (log 10). -/
def State.leaveReserved (s : State) (d : DockNo) (o : Option OrderId) : State :=
  s.postIf (s.reservedFor d o && s.order.session.any (fun v => v.state == .closing && some v.order == o)) (.reservationDrop d)

/-- The request ends refused: told to its owner, a VAN release to the reader at its dock. -/
def State.refuseGrant (s : State) (q : ClaimRequest) (why : DenyReason) : State :=
  match q.kind with
  | .van => (s.readerDecided q.dock (.deny why)).leaveReserved q.dock q.order
  | .member => s.refuseRequest q.owner why
  | .service => s.refuseRequest q.owner why

/-- R74: what follows the answers of the booking and the charge. -/
def State.answerGrant (s : State) (q : ClaimRequest) (answer : GrantAnswer) : State :=
  match answer with
  | .tight => s.refuseGrant q .tight
  | .credit => (s.post (.bookingGivenBack q.dock)).refuseGrant q .credit
  | .charged =>
    match s.grantTests q with
    | none => s.grantClaim q true
    | some why => ((s.post (.bookingGivenBack q.dock)).post (.refund q.holder)).refuseGrant q why
  | .free =>
    match s.grantTests q with
    | none => s.grantClaim q false
    | some why => (s.post (.bookingGivenBack q.dock)).refuseGrant q why

/-- CLAIM_GRANT (R74, R76). The tests count the request's own hold as free; the hold ends with the act. -/
def execClaimGrant (d : DockNo) (answer : GrantAnswer) (s : State) : Host.Outcome State Fault Refusal :=
  act (.claimGrant d answer) s fun s =>
    match s.requestOn d with
    | none => s
    | some q => (s.dropRequest d).answerGrant q answer

/-! ### Reservations and van releases (R75 to R77) -/

/-- RESERVATION_REQUEST (R75). -/
def execReservationRequest (d : DockNo) (o : OrderId) (s : State) : Host.Outcome State Fault Refusal :=
  act (.reservationRequest d o) s fun s => s.tryReserve d o

/-- RESERVATION_DROP (R75, R86). -/
def execReservationDrop (d : DockNo) (s : State) : Host.Outcome State Fault Refusal :=
  act (.reservationDrop d) s fun s =>
    match s.claimOn d with
    | none => s
    | some c => if c.state = .reserved then s.dropClaim c .droppedAtRequest else s

/-- The tests of R76 against the reservation; what passes asks for the booking. -/
def State.releaseReserved (s : State) (d : DockNo) (o : OrderId) (card : CardId) : State :=
  match s.vanTests d card none with
  | some why => (s.readerDecided d (.deny why)).leaveReserved d (some o)
  | none =>
    s.holdRequest { dock := d, kind := .van, holder := card, origin := .host, owner := .order o, order := some o }

/-- A refusal before any reservation stands: the result is the reason, and a reservation given up for it is a loss (R144). -/
def State.refuseVan (s : State) (d : DockNo) (why : DenyReason) : State := (s.readerDecided d (.deny why)).postPass

/-- VAN_RELEASE_REQUEST (R76). -/
def execVanReleaseRequest (d : DockNo) (o : OrderId) (card : CardId) (s : State) : Host.Outcome State Fault Refusal :=
  act (.vanReleaseRequest d o card) s fun s =>
    if (s.requestOn d).isSome then s.refuseVan d .claimed
    else if s.reservedFor d (some o) then s.releaseReserved d o card
    else if (s.claimOn d).isSome then s.refuseVan d .claimed
    else match s.reserve d o with
      | .error why => s.refuseVan d why
      | .ok s' => s'.releaseReserved d o card

/-- CLAIM_INSERTION (R77): a RESERVED claim ends DROPPED, and the Order Unit is told with the crew mark. -/
def execClaimInsertion (d : DockNo) (crew : Option OrderId) (s : State) : Host.Outcome State Fault Refusal :=
  act (.claimInsertion d crew) s fun s =>
    match s.claimOn d with
    | none => s
    | some c => if c.state = .reserved then (s.endClaim d).post (.crewInsertionNotice d (.dropped crew)) else s

/-! ### Endings (R84, R85) -/

/-- R85: LAPSED or FAILED. The booking is returned, a charge refunded, a VAN claim told as a loss, the owner told. -/
def State.endUntaken (s : State) (c : Claim) (news : ClaimNews) : State :=
  let s1 := (s.endClaim c.dock).post (.journalCountNotice c.dock (.booked false))
  let s2 := if c.offline then s1.post (.refund (c.holder.getD 0)) else s1
  let s3 := if c.kind = .van then s2.post (.vanClaimNotice c.dock (c.order.getD 0) .lapsedOrFailed) else s2
  s3.tellOwner c news

def State.lapse (s : State) (c : Claim) (command : LockCommand) : State := (s.setCommand c.dock command).endUntaken c .lapsed

def State.fail (s : State) (c : Claim) (command : LockCommand) : State := (s.setCommand c.dock command).endUntaken c .failed

/-- R92: an entry at the end of the grace list; the oldest leaves first when 64 are held, and an older one of the same
bike leaves. -/
def ReleaseUnit.addGrace (u : ReleaseUnit) (g : GraceEntry) : ReleaseUnit :=
  { u with grace :=
      ((if Config.graceRoom ≤ u.grace.length then u.grace.drop 1 else u.grace).filter fun x => x.bike != g.bike) ++ [g] }

/-- The reference of a claim's ending entry (R84). -/
def Claim.reference (c : Claim) : Option Word :=
  match c.kind with
  | .member => some (c.tariff.setWidth 32)
  | .van => c.order.map (·.setWidth 32)
  | .service => none

/-- R84, kind MEMBER: the hire joins the grace list when the grace setting is above 0. -/
def State.graceHire (s : State) (c : Claim) (bike : Option BikeId) (start : SeqNo) : State :=
  match c.kind, bike, c.holder with
  | .member, some b, some card =>
    if s.settings.grace = 0 then s
    else s.onRelease (·.addGrace
      { bike := b, card := card, start := start, offline := c.offline, expiry := s.now + s.settings.grace })
  | _, _, _ => s

/-- R84: TAKEN. The ending entry is written from the booking, the claim leaves, the command is withdrawn. -/
def State.take (s : State) (c : Claim) (bike : Option BikeId) (lateTake resetTake : Bool) : State :=
  let s1 := s.writeEntry (.claimEnding c.dock c.kind bike c.holder c.reference c.offline lateTake resetTake)
  let s2 := ((s1.endClaim c.dock).setCommand c.dock .none).graceHire c bike s.store.nextSeq
  let s3 := if c.kind = .van then s2.post (.vanClaimNotice c.dock (c.order.getD 0) .taken) else s2
  s3.tellOwner c .taken

/-! ### The course of a claim (R78 to R83) -/

/-- R78: the lock is open. -/
def State.released (s : State) (c : Claim) : State :=
  (((s.onClaim c.dock fun c => { c with state := .released, deadline := some (s.now + c.takeWindow) }).setCommand c.dock
    .none).tellDock c.dock).tellOwner c (.released c.takeWindow)

/-- R81: JAMMED_OPEN. LOCK_JAM is raised with the claim as it stood. -/
def State.jam (s : State) (c : Claim) : State :=
  (((s.raiseLockJam c).onClaim c.dock fun c => { c with state := .jammedOpen, deadline :=
      none }).setCommand c.dock .none).tellDock
    c.dock

/-- R80, R83, R88: RELOCKING with a RELOCK pending and 5 s. -/
def State.relock (s : State) (c : Claim) : State :=
  ((s.onClaim c.dock fun c =>
      { c with state := .relocking, orphanCause := none, deadline := some (s.now + Config.lockLimit) }).setCommand c.dock
    .relock).tellDock c.dock

/-- R80: ORPHAN with cause LINK. -/
def State.orphan (s : State) (c : Claim) : State :=
  let s1 := (s.onClaim c.dock fun c => { c with state := .orphan, orphanCause := some .link, deadline := none }).tellDock c.dock
  if c.kind = .van then s1.post (.vanClaimNotice c.dock (c.order.getD 0) .orphaned) else s1

/-- CLAIM_LOCK_CHANGE (R78 to R83). -/
def execClaimLockChange (d : DockNo) (lock : LockState) (completed : Bool) (s : State) : Host.Outcome State Fault Refusal :=
  act (.claimLockChange d lock completed) s fun s =>
    match s.claimOn d with
    | none => s
    | some c =>
      match c.state, lock with
      | .releaseSent, .opened => s.released c
      | .releaseSent, .failed => (s.raiseLockJam c).fail c .none
      | .releaseSent, .locked => s
      | .released, .locked => s.lapse c .none
      | .released, .opened => s
      | .released, .failed => s
      | .relocking, .locked => s.lapse c .none
      | .relocking, .failed => s.jam c
      | .relocking, .opened => s
      | .jammedOpen, .locked => s.lapse c .none
      | .jammedOpen, .opened => s
      | .jammedOpen, .failed => s
      | .reserved, _ => s
      | .orphan, _ => s

/-- CLAIM_REMOVAL (R77, R79 to R84). -/
def execClaimRemoval (d : DockNo) (bike : Option BikeId) (s : State) : Host.Outcome State Fault Refusal :=
  act (.claimRemoval d bike) s fun s =>
    match s.claimOn d with
    | none => s
    | some c =>
      match c.state with
      | .reserved => s.dropClaim c .droppedByEvent
      | .releaseSent => s.fail c .none
      | .released => s.take c bike false false
      | .relocking => s.take c bike true false
      | .jammedOpen => s.take c bike true false
      | .orphan => s.take c bike (c.orphanCause != some .reset) (c.orphanCause == some .reset)

/-- The claim of a dock in a state whose deadline is reached. -/
def State.dueClaim (s : State) (d : DockNo) (st : ClaimState) : Option Claim :=
  (s.claimOn d).filter fun c => c.state == st && s.reached c.deadline

/-- RELEASE_DEADLINE (R79). -/
def execReleaseDeadline (d : DockNo) (s : State) : Host.Outcome State Fault Refusal :=
  act (.releaseDeadline d) s fun s =>
    match s.dueClaim d .releaseSent with
    | none => s
    | some c => (s.raiseLockJam c).fail c .relock

/-- TAKE_WINDOW_DEADLINE (R80). -/
def execTakeWindowDeadline (d : DockNo) (s : State) : Host.Outcome State Fault Refusal :=
  act (.takeWindowDeadline d) s fun s =>
    match s.dueClaim d .released with
    | none => s
    | some c => if (s.dock? d).any (fun r => r.link == .lost) then s.orphan c else s.relock c

/-- RELOCK_DEADLINE (R81). -/
def execRelockDeadline (d : DockNo) (s : State) : Host.Outcome State Fault Refusal :=
  act (.relockDeadline d) s fun s =>
    match s.dueClaim d .relocking with
    | none => s
    | some c =>
      if (s.dock? d).any (fun r => r.command == .none && r.lock == .locked) then s.lapse c .none else s.jam c

/-- LOCK_JAM_CLEARED (R82): the claim ends LAPSED and the RELOCK outlives it. -/
def execLockJamCleared (d : DockNo) (s : State) : Host.Outcome State Fault Refusal :=
  act (.lockJamCleared d) s fun s =>
    match s.claimOn d with
    | none => s
    | some c => if c.state = .jammedOpen then s.lapse c .relock else s

/-- R83: an ORPHAN claim at the join completion of its dock, OCCUPIED with this lock state. -/
def State.reconcile (s : State) (c : Claim) (lock : LockState) : State :=
  match lock with
  | .locked => s.lapse c .none
  | .opened => if c.kind ≠ .van ∧ ¬ c.holder.any (s.releasingHolder · (some c.dock)) then s.relock c else s.lapse c .relock
  | .failed => if c.kind ≠ .van ∧ ¬ c.holder.any (s.releasingHolder · (some c.dock)) then s.relock c else s.lapse c .relock

/-- ORPHAN_RECONCILE (R83). At a dock that is not OCCUPIED the claim stays ORPHAN, the model's choice (log 39). -/
def execOrphanReconcile (d : DockNo) (occupancy : Occupancy) (lock : LockState) (s : State) : Host.Outcome State Fault Refusal :=
  act (.orphanReconcile d occupancy lock) s fun s =>
    match s.claimOn d with
    | none => s
    | some c => if c.state = .orphan ∧ occupancy = .occupied then s.reconcile c lock else s

/-! ### The grace list (R93, R94) -/

/-- GRACE_EXPIRY (R93). -/
def execGraceExpiry (bike : BikeId) (s : State) : Host.Outcome State Fault Refusal :=
  act (.graceExpiry bike) s fun s =>
    s.onRelease fun u => { u with grace := u.grace.filter fun g => !(g.bike == bike && g.expiry ≤ s.now) }

/-- BIKE_TAKEN_NOTICE (R94): a bike taken into a dock record without an entry of its own leaves the grace list. -/
def execBikeTakenNotice (bike : BikeId) (entryWritten : Bool) (s : State) : Host.Outcome State Fault Refusal :=
  act (.bikeTakenNotice bike entryWritten) s fun s => if entryWritten then s else s.dropGrace bike

end Sys2Proof.Machine
end

