-- ==== Sys2Proof/Machine/Faults.lean ====
section
/-! DEFINITION. The Fault Unit (chapter 8): raising, resolving, clearing, bike holds that follow the bike, and its requests. -/

namespace Sys2Proof.Machine

/-! ### Contexts (R155) -/

/-- What the context shows of the claim: as the dock carries it, or as a LOCK_JAM raise carries it. -/
def State.contextClaim (s : State) (d : DockNo) (carried : Carried) : Option (ClaimKind × ClaimState × Option CardId) :=
  match carried with
  | .claim k st h => some (k, st, h)
  | .nothing => (s.claimOn d).map fun c => (c.kind, c.state, c.holder)
  | .tag _ => (s.claimOn d).map fun c => (c.kind, c.state, c.holder)

/-- What the context shows of the bike: the dock's, or the refused tag of a TAG_CONFLICT. -/
def DockRecord.contextBike (r : DockRecord) (carried : Carried) : Option BikeId :=
  match carried with
  | .tag b => some b
  | .nothing => r.bike.map (·.id)
  | .claim _ _ _ => r.bike.map (·.id)

/-- The dock part of the context frozen with a record (R155), with the unrecorded flag (R19). -/
def State.contextOf (s : State) (d : DockNo) (carried : Carried) : Option DockContext :=
  (s.dock? d).map fun r =>
    { dock := d, link := r.link, lock := r.lock, occupancy := r.occupancy, commanded := r.commanded,
      acknowledged := r.acknowledged, claim := s.contextClaim d carried, lastTap := r.lastTap, lastSense := r.lastSense,
      bike := r.contextBike carried, unrecorded := r.unrecorded }

/-- The dock that a raise concerns: the subject dock, or the dock that raised a bike kind (R155). -/
def FaultSubject.contextDock (x : FaultSubject) (raiser : Option DockNo) : Option DockNo :=
  match x with
  | .dock d => some d
  | .bike _ => raiser
  | .terminal _ => none

/-! ### Raising (R157 to R159) -/

/-- The dock record holds this bike. -/
def State.dockHolds (s : State) (d : DockNo) (b : BikeId) : Bool := (s.dock? d).any fun r => r.bike.any fun x => x.id == b

/-- A change of a dock's hold sets is an input change (R35), and one that changes a set is told to the Order Unit (R142). -/
def State.changeHolds (s : State) (d : DockNo) (f : DockRecord → DockRecord) : State :=
  let s1 := s.changeInput d (·.onDock d f)
  if (s.dock? d).any (fun r => (f r).dockHolds != r.dockHolds || (f r).bikeHolds != r.bikeHolds) then s1.postPass else s1

/-- R157, R160: the hold of a kind is written (`on`) or taken out, as one input change. -/
def State.setHold (s : State) (x : FaultSubject) (k : FaultKind) (dock : Option DockNo) (on : Bool) : State :=
  match x, dock with
  | .dock d, _ => s.changeHolds d fun r => { r with dockHolds := r.dockHolds.put k on }
  | .bike b, some d => if s.dockHolds d b then s.changeHolds d fun r => { r with bikeHolds := r.bikeHolds.put k on } else s
  | .bike _, none => s
  | .terminal _, _ => s

def State.onRecord (s : State) (x : FaultSubject) (k : FaultKind) (f : FaultRecord → FaultRecord) : State :=
  s.onFaults fun u => { u with table := u.table.map fun r => if r.subject = x ∧ r.kind = k then f r else r }

/-- R158: a raise of a held record repeats it. -/
def FaultRecord.repeated (r : FaultRecord) (time : ClockTime) (unset : Bool) : FaultRecord :=
  { r with repeats := min Config.repeatLimit (r.repeats + 1), lastTime := time, lastUnset := unset, condition := .active }

/-- R158, R159: the record side of a raise, with the context as taken when the raise arrived. -/
def State.recordRaise (s : State) (x : FaultSubject) (k : FaultKind) (context : Option DockContext) : State :=
  if (s.faultOf x k).isSome then s.onRecord x k (·.repeated s.store.clock s.store.clockUnset)
  else if s.fault.table.length < s.faultRoom then
    (s.onFaults fun u => { u with table := u.table ++
      [{ subject := x, kind := k, firstTime := s.store.clock, firstUnset := s.store.clockUnset, lastTime := s.store.clock,
         lastUnset := s.store.clockUnset, repeats := 0, condition := .active, report := .new, context := context,
         power := s.supply.power }] }).join .faultNew
  else (s.onFaults fun u => { u with lost := min Config.countLimit (u.lost + 1) }).join .faultOverflow

/-- The subject exists: a dock below the dock count, any bike, any terminal; and the kind is one of its kinds (8.1). -/
def State.raisable (s : State) (x : FaultSubject) (k : FaultKind) : Bool :=
  x.fits k && (match x with
    | .dock d => d < s.dockCount
    | .bike _ => true
    | .terminal _ => true)

/-- FAULT_RAISE (R157 to R159): first the hold, then the record. The context is the state as the raise found it (R155, log 27); a
bike kind whose raising dock has no record, or is not named, is recorded with the dock fields of its context absent (log 24). -/
def execFaultRaise (x : FaultSubject) (k : FaultKind) (dock : Option DockNo) (carried : Carried) (s : State) :
    Host.Outcome State Fault Refusal :=
  act (.faultRaise x k dock carried) s fun s =>
    if s.raisable x k then
      (s.setHold x k dock true).recordRaise x k ((x.contextDock dock).bind (s.contextOf · carried))
    else s

/-! ### Resolution (R160) -/

/-- R160, steps 2 and 3: the record becomes RESOLVED, and leaves the table when it is ACKED. -/
def State.resolveRecord (s : State) (x : FaultSubject) (k : FaultKind) : State :=
  s.onFaults fun u =>
    { u with table := (u.table.filter fun r => !(r.subject == x && r.kind == k && r.report == .acked)).map fun r =>
        if r.subject = x ∧ r.kind = k then { r with condition := .resolved } else r }

/-- R160: a resolution. -/
def State.resolveFault (s : State) (x : FaultSubject) (k : FaultKind) (dock : Option DockNo) : State :=
  (s.setHold x k dock false).resolveRecord x k

/-- FAULT_RESOLUTION (R160). -/
def execFaultResolution (x : FaultSubject) (k : FaultKind) (dock : Option DockNo)
    (s : State) : Host.Outcome State Fault Refusal :=
  act (.faultResolution x k dock) s fun s => s.resolveFault x k dock

/-! ### Hold clear (R161) -/

/-- The sets as a hold clear leaves them. -/
def DockRecord.cleared (r : DockRecord) : DockRecord :=
  { r with dockHolds := {}, bikeHolds := { r.bikeHolds with riderReport := false } }

/-- LOCK_JAM was cleared at a dock whose claim is JAMMED_OPEN: the Release Controller is told (R161, R162). -/
def State.tellJamCleared (s : State) (d : DockNo) : State :=
  s.postIf ((s.claimOn d).any fun c => c.state == .jammedOpen) (.lockJamCleared d)

/-- LOCK_JAM stands at the dock, by its hold or by an ACTIVE record. -/
def State.jamStands (s : State) (d : DockNo) : Bool :=
  (s.dock? d).any (fun r => r.dockHolds.lockJam) || (s.faultOf (.dock d) .lockJam).any fun r => r.condition == .active

/-- R161: every clearable kind at the dock, as one act. RIDER_REPORT at a dock that holds no bike id is taken out of the set and no record
of it is resolved, the model's choice (log 50). -/
def State.clearHolds (s : State) (d : DockNo) (r : DockRecord) : State :=
  let s1 := s.changeHolds d DockRecord.cleared
  let s2 := clearableKinds.foldl (fun s k => s.resolveRecord (.dock d) k) s1
  let s3 := match r.bikeHolds.riderReport, r.bike with
    | true, some b => s2.resolveRecord (.bike b.id) .riderReport
    | true, none => s2
    | false, _ => s2
  if s.jamStands d then s3.tellJamCleared d else s3

/-- HOLD_CLEAR (R161). -/
def execHoldClear (d : DockNo) (s : State) : Host.Outcome State Fault Refusal :=
  act (.holdClear d) s fun s =>
    match s.dock? d with
    | none => s
    | some r => (s.clearHolds d r).readerDecided d .allow

/-! ### Bikes that come and go (R163, R164) -/

/-- BIKE_ARRIVAL_NOTICE (R164): an ACTIVE RIDER_REPORT is written into the dock the bike stands in (log 21). -/
def execBikeArrivalNotice (d : DockNo) (bike : BikeId) (s : State) : Host.Outcome State Fault Refusal :=
  act (.bikeArrivalNotice d bike) s fun s =>
    if (s.faultOf (.bike bike) .riderReport).any (fun r => r.condition == .active) then s.setHold
        (.bike bike) .riderReport (some d) true
    else s

/-- The sets as a removal leaves them (R163, R164): without the tag kinds, and without bike holds when a bike id was held. -/
def DockRecord.bikeGone (r : DockRecord) (bike : Option BikeId) : DockRecord :=
  { r with dockHolds := { r.dockHolds with tagUnread := false, tagConflict := false },
           bikeHolds := if bike.isSome then {} else r.bikeHolds }

/-- FAULT_REMOVAL_NOTICE (R163, R164). -/
def execFaultRemovalNotice (d : DockNo) (bike : Option BikeId) (s : State) : Host.Outcome State Fault Refusal :=
  act (.faultRemovalNotice d bike) s fun s =>
    let s1 := s.changeHolds d (·.bikeGone bike)
    let s2 := (s1.resolveRecord (.dock d) .tagUnread).resolveRecord (.dock d) .tagConflict
    match bike with
    | some b => s2.resolveRecord (.bike b) .batteryLow
    | none => s2

/-! ### Requests (R162, R165, R166) -/

/-- FAULT_LIST (R166). -/
def execFaultList (tag : Byte) (body : List Byte) (s : State) : Host.Outcome State Fault Refusal :=
  request (.faultList tag body) 0x17 tag s (Operands.faultList body) fun q s =>
    let selected := if q.1 then s.fault.table.filter (fun r => r.report == .new) else s.fault.table
    s.reply 0x17 tag .ok (.faults
      { held := s.fault.table.length, selected := selected.length, size := s.faultRoom, lost := s.fault.lost,
        records := (selected.drop q.2.1).take q.2.2 })

/-- R165: the record becomes ACKED, and a RESOLVED one leaves. -/
def State.acknowledge (s : State) (x : FaultSubject) (k : FaultKind) : State :=
  s.onFaults fun u =>
    { u with table := (u.table.filter fun r => !(r.subject == x && r.kind == k && r.condition == .resolved)).map fun r =>
        if r.subject = x ∧ r.kind = k then { r with report := .acked } else r }

/-- FAULT_ACK (R165). -/
def execFaultAck (tag : Byte) (body : List Byte) (s : State) : Host.Outcome State Fault Refusal :=
  request (.faultAck tag body) 0x18 tag s (Operands.faultName s body) fun q s =>
    match s.faultOf q.1 q.2 with
    | none => s.reply 0x18 tag .notFound
    | some r => (s.acknowledge q.1 q.2).reply 0x18 tag .ok (.condition r.condition)

/-- The dock whose record holds a bike. -/
def State.dockOfBike (s : State) (b : BikeId) : Option DockNo := (List.range s.dockCount).find? (s.dockHolds · b)

/-- R162, a dock kind other than LINK_LOSS. -/
def State.clearDockKind (s : State) (d : DockNo) (k : FaultKind) : ReplyCode × State :=
  if (s.faultOf (.dock d) k).isSome ∨ (s.dock? d).any (fun r => r.dockHolds.has k) then
    let s1 := s.resolveFault (.dock d) k none
    (.ok, if k = .lockJam ∧ s.jamStands d then s1.tellJamCleared d else s1)
  else (.notFound, s)

/-- R162, LINK_LOSS of a LOST dock: an ORPHAN claim ends LAPSED in the same act. -/
def State.clearLinkLoss (s : State) (d : DockNo) : ReplyCode × State :=
  if (s.dock? d).any (fun r => r.link == .lost) then
    match (s.claimOn d).filter (fun c => c.state == .orphan) with
    | some c => (.ok, (s.resolveFault (.dock d) .linkLoss none).lapse c .none)
    | none =>
      if (s.faultOf (.dock d) .linkLoss).isSome then (.ok, s.resolveFault (.dock d) .linkLoss none) else (.notFound, s)
  else (.wrongState, s)

/-- R162, RIDER_REPORT. -/
def State.clearRiderReport (s : State) (b : BikeId) : ReplyCode × State :=
  let d := s.dockOfBike b
  if (s.faultOf (.bike b) .riderReport).isSome ∨ (d.bind s.dock?).any (fun r => r.bikeHolds.riderReport) then
    (.ok, s.resolveFault (.bike b) .riderReport d)
  else (.notFound, s)

/-- R162: what FAULT_CLEAR of a subject and kind answers and does. -/
def State.clearFault (s : State) (x : FaultSubject) (k : FaultKind) : ReplyCode × State :=
  match x, k with
  | .dock d, .linkLoss => s.clearLinkLoss d
  | .dock d, .lockJam => s.clearDockKind d .lockJam
  | .dock d, .sensor => s.clearDockKind d .sensor
  | .dock d, .chatter => s.clearDockKind d .chatter
  | .dock d, .forcedRemoval => s.clearDockKind d .forcedRemoval
  | .bike b, .riderReport => s.clearRiderReport b
  | _, _ => (.wrongState, s)

/-- FAULT_CLEAR (R162). -/
def execFaultClear (tag : Byte) (body : List Byte) (s : State) : Host.Outcome State Fault Refusal :=
  request (.faultClear tag body) 0x19 tag s (Operands.faultName s body) fun q s =>
    let r := s.clearFault q.1 q.2
    r.2.reply 0x19 tag r.1

end Sys2Proof.Machine
end

