-- ==== Sys2Proof/Machine/Restart.lean ====
section
/-! DEFINITION. The Supply Monitor, supply shutdown, the kinds of reset and the store check (chapter 9), with what every block
takes at a reset. -/

namespace Sys2Proof.Machine

/-! ### Samples (R168, R169) -/

/-- R169: the mains reading enters the run. -/
def enterRun (run : Option (Bool × Nat)) (mains : Bool) : Bool × Nat :=
  match run with
  | none => (mains, 1)
  | some (v, n) => if v = mains then (v, min 3 (n + 1)) else (mains, 1)

/-- R169: one sample of both inputs. -/
def SupplyMonitor.sample (m : SupplyMonitor) (mains : Bool) (level : Byte) : SupplyMonitor :=
  let run := enterRun m.run mains
  { m with run := some run, level := some level, debounced := if run.2 = 3 then some run.1 else m.debounced }

/-- One second of the timebase and of the Station Clock (R188; log 1). -/
def State.tick (s : State) : State :=
  { s with now := s.now + 1, store := { s.store with clock := s.store.clock + 1 } }

/-! ### Stops (R173, R176, R177) -/

/-- The part takes no further arrival: the poll in progress is ended, frames from the host are discarded, and work handed on and
not yet taken is not carried further (R173, R177). -/
def State.stopped (s : State) (p : Phase) : State :=
  { s with
    phase := p, inFlight := [], dock := { s.dock with poll := none },
    host := { s.host with rx := [], waiting := [] } }

/-- R173: the last NOTICE stands after every frame already in the outgoing order; one that waits unbegun is moved
there (log 8). -/
def HostLink.lastNotice (h : HostLink) : HostLink :=
  { h with noticeSet := h.noticeSet ||| NoticeKind.powerChanged.bit,
           outgoing := h.outgoing.filter (fun f => f != .notice none) ++ [.notice none] }

/-- R173: supply shutdown begins. A TERMINAL_POWER_SET handed on before is dropped with the work in flight, so the outputs stay as they
are until supply reset, the model's choice between R173 and R101 (log 49). -/
def State.shutDown (s : State) : State := (s.stopped .shutdown).onHost HostLink.lastNotice

/-! ### Power states (R170 to R172) -/

/-- R172: a change of power state is handed on to four blocks; a state that stays as it is, is no change. -/
def State.changePower (s : State) (p : PowerState) : State :=
  if p = s.supply.power then s
  else
    let s1 := ((s.onSupply fun m => { m with power := p }).join .powerChanged).post (.dockCapChange (.power p))
    let s2 := s1.post (.terminalPowerSet p none)
    if s.supply.power = .reserve then s2.postPass else s2

/-- The power state that mains and level call for when both are known (R170, R171 first table). -/
def Settings.powerFor (x : Settings) (mains : Bool) (level : Nat) : PowerState :=
  if mains then .mains else if level < x.supplyLow then .reserve else .battery

/-- R171, second step, and R170's last sentence: the level, tested in the state as it stands. -/
def State.testLevel (s : State) (level : Nat) : State :=
  let x := s.settings
  match s.supply.power with
  | .mains => s
  | .battery => if level < x.supplyCutoff then s.shutDown else if level < x.supplyLow then s.changePower .reserve else s
  | .reserve =>
    if level < x.supplyCutoff then s.shutDown
    else if x.supplyLow + x.supplyHysteresis ≤ level then s.changePower .battery else s

/-- R170: the power state is decided at the first sample with a debounced mains. -/
def State.decidePower (s : State) (level : Nat) : State :=
  match s.supply.debounced with
  | none => s
  | some mains =>
    let s1 := s.onSupply fun m => { m with decided := true }
    let p := s.settings.powerFor mains level
    let s2 := s1.changePower p
    if p ≠ .mains ∧ level < s.settings.supplyCutoff then s2.shutDown else s2

/-- R171: the mains, when the debounced value changed at this sample, and then the level. -/
def State.followPower (s : State) (before : Option Bool) (level : Nat) : State :=
  (match s.supply.debounced with
    | none => s
    | some mains => if before = some mains then s else s.changePower (s.settings.powerFor mains level)).testLevel level

/-- A sample of a running part (R169 to R171). -/
def State.takeSample (s : State) (mains : Bool) (level : Byte) : State :=
  let s1 := s.tick.onSupply (·.sample mains level)
  if s.supply.decided then s1.followPower s.supply.debounced level.toNat else s1.decidePower level.toNat

/-! ### What each block takes at a warm start -/

/-- R2: one dock record after a warm reset. -/
def DockRecord.warm (r : DockRecord) : DockRecord :=
  { r with link := .stale, misses := 0, tagWait := 0, command := .none, candidate := none, saturation := 0, chatter := [],
           checkPending := false, readerResult := none, crewWindow := none, reportWindow := none }

/-- R2, R44: the Dock Controller, with the caps that hold at first: BATTERY, the link UP. -/
def DockUnit.warm (u : DockUnit) (st : StationState) (a : SilenceAction) : DockUnit :=
  { table := u.table.map DockRecord.warm, insertionCounter := u.insertionCounter,
    caps := { station := st, power := .battery, hostLost := false, action := a } }

/-- R71, R95: RESERVED claims are removed, booked ones become ORPHAN with cause RESET; requests and the grace list are gone. -/
def ReleaseUnit.warm (u : ReleaseUnit) : ReleaseUnit :=
  { claims := (u.claims.filter fun c => c.state.booked).map fun c =>
      { c with state := .orphan, orphanCause := some .reset, deadline := none, owner := .nobody } }

/-- R153: a van session is closed with RESTART, its entry written from its booking. -/
def State.closeForRestart (s : State) : State :=
  match s.order.session with
  | none => s
  | some v =>
    match s.orderOf v.order with
    | none => s.onOrders fun u => { u with session := none }
    | some o =>
      (s.writeRequested (.orderClosed v.order .restart o.done o.quantity)).onOrders fun u =>
        { queue := u.queue.filter fun x => x.id != v.order, session := none }

/-- R61: the card query list is empty and the next tag is 1. -/
def CardUnit.warm (u : CardUnit) : CardUnit := { table := u.table, installCounter := u.installCounter }

/-- R130: the account of one dock, taken again from the blocks. An ORPHAN claim at an EMPTY dock with an effectively OPEN slot has two
places, by the list of R130, the model's choice (log 44). -/
def State.recount (s : State) (d : DockNo) (r : DockRecord) : DockAccount :=
  { occupancy := r.occupancy, slotOpen := r.effOpen, owed := r.returnEntry.isSome, booked := s.bookedAt d }

/-- R130: every count is taken again, and the withheld set is the docks whose withheld flag stands. -/
def State.recountJournal (s : State) : State :=
  let docks := s.dock.table.zipIdx
  s.onJournal fun j =>
    { entries := j.entries, account := docks.map fun p => s.recount p.2 p.1,
      withheld := (docks.filter fun p => p.1.withheld).map Prod.snd }

/-- R44: every dock's slot want is taken and its lamp derived. -/
def State.retakeDocks (s : State) : State :=
  (List.range s.dockCount).foldl (fun s d => (s.takeSlot d).relamp d) s

/-- R96: the LINE_FAILED record of every terminal is resolved. -/
def State.resolveLines (s : State) : State :=
  terminals.foldl (fun s t => s.resolveRecord (.terminal t) .lineFailed) s

/-- R180, R197: the host link as every reset leaves it, with START and CLOCK_UNSET joined and their NOTICE queued. -/
def HostLink.afterReset (straps : BitVec 2) (limit : Nat) : HostLink :=
  ((HostLink.fresh straps 0 limit).join .start |>.join .clockUnset).beginSending

/-- The retained state with what each block takes before the work of a warm start (R175). -/
def State.warmBlocks (s : State) (cause : ResetCause) : State :=
  { s with
    phase := .running, now := 0, inFlight := [],
    host := HostLink.fresh s.straps 0 s.settings.silenceLimit,
    dock := s.dock.warm s.store.station s.settings.silenceAction,
    card := s.card.warm, release := s.release.warm, term := ⟨{}, {}, {}, {}⟩,
    fault := { s.fault with lost := 0 }, supply := {},
    store := { s.store with clock := 0, clockUnset := true, resetCause := cause, warm := true } }

/-- A warm start, as one act (R175): ORPHAN claims, the closing entry, the slots, the recount and its admissions, which raise no
notice (R130). -/
def State.warmStart (s : State) (cause : ResetCause) : State :=
  let s1 := (s.warmBlocks cause).closeForRestart.resolveLines.retakeDocks
  let s2 := s1.recountJournal.admitWithheld
  { s2 with inFlight := [], host := HostLink.afterReset s.straps s.settings.silenceLimit }

/-- A cold start (R179): every block at its cold values, the cause and the straps as they are, the waiting commands kept. -/
def State.coldStart (s : State) (cause : ResetCause) : State :=
  { State.reset with
    pending := s.pending, straps := s.straps, resetLow := s.resetLow, host := HostLink.afterReset s.straps 60,
    store := { State.reset.store with resetCause := cause } }

/-- R175, R179: a reset. The start is warm when the store is valid, unless the cause is COLD. -/
def State.restart (s : State) (cause : ResetCause) : State :=
  if s.store.checkAgrees ∧ cause ≠ .cold then s.warmStart cause else s.coldStart cause

/-! ### Supply reset and the reset line (R174, R176) -/

/-- Nothing of the host link or of work in flight survives, and the terminal outputs are OFF (R174, R176). -/
def State.darkened (s : State) (p : Phase) : State :=
  let s1 := s.stopped p
  { s1 with host := { s1.host with outgoing := [], requestOpen := false }, term :=
      s1.term.map fun x => { x with power := false } }

/-- A reset made while the reset line is low: the part is held in reset from its end on, before it takes an arrival (R176;
log 20). -/
def State.restartUnlessHeld (s : State) (cause : ResetCause) : State :=
  let s1 := s.restart cause
  if s1.resetLow then s1.darkened .lineLow else s1

/-- R174: the supply is recovered. -/
def State.recovered (s : State) : Bool :=
  s.supply.run == some (true, 3)
    || s.supply.level.any fun l => s.settings.supplyCutoff + s.settings.supplyHysteresis ≤ l.toNat

/-- A sample in supply reset (R174). -/
def State.sampleInReset (s : State) (mains : Bool) (level : Byte) : State :=
  let s1 := s.tick.onSupply (·.sample mains level)
  if s1.recovered then s1.restartUnlessHeld .supply else s1

/-! ### Meanings -/

/-- SUPPLY_SAMPLE (R169 to R174): taken while running and in supply reset. -/
def execSupplySample (mains : Bool) (level : Byte) (s : State) : Host.Outcome State Fault Refusal :=
  match s.phase with
  | .running => act (.supplySample mains level) s fun s => s.takeSample mains level
  | .supplyReset => .next (s.sampleInReset mains level)
  | .resetAsked => .next s
  | .shutdown => .next s
  | .lineLow => .next s
  | .pinsDown => .next s

/-- RESET (R177): OK, and from here on the part takes no further arrival. -/
def execReset (tag : Byte) (body : List Byte) (s : State) : Host.Outcome State Fault Refusal :=
  request (.reset tag body) 0x04 tag s (Operands.empty body) fun _ s => (s.reply 0x04 tag .ok).stopped .resetAsked

/-- REQUEST_RESET (R177): once the reply has been sent, which is the last frame of the outgoing order. -/
def execRequestReset (s : State) : Host.Outcome State Fault Refusal :=
  .next (if s.phase = .resetAsked ∧ s.host.outgoing = [] then s.restartUnlessHeld .request else s)

/-- SUPPLY_RESET_ENTRY (R173, R174): once the last NOTICE has been sent. The mains run starts empty. -/
def execSupplyResetEntry (s : State) : Host.Outcome State Fault Refusal :=
  .next (if s.phase = .shutdown ∧ s.host.outgoing = [] then
      (s.darkened .supplyReset).onSupply fun m => { m with run := none } else s)

/-- RESET_LINE_LOW (R176): a part that runs or is stopping is held in reset. In supply reset, and without supply, only the level
of the line changes (R174). -/
def execResetLineLow (s : State) : Host.Outcome State Fault Refusal :=
  let s1 := { s with resetLow := true }
  .next (match s.phase with
    | .running => s1.darkened .lineLow
    | .resetAsked => s1.darkened .lineLow
    | .shutdown => s1.darkened .lineLow
    | .supplyReset => s1
    | .lineLow => s1
    | .pinsDown => s1)

/-- RESET_LINE_RELEASE (R176): a reset of cause LINE ends the hold. -/
def execResetLineRelease (s : State) : Host.Outcome State Fault Refusal :=
  let s1 := { s with resetLow := false }
  .next (if s.phase = .lineLow then s1.restart .line else s1)

/-- POWER_UP (R175): SUPPLY when the store is valid, COLD otherwise. -/
def execPowerUp (s : State) : Host.Outcome State Fault Refusal :=
  .next (if s.phase = .pinsDown then s.restartUnlessHeld (if s.store.checkAgrees then .supply else .cold) else s)

/-- SUPPLY_PINS_FALL (R174, R178): the part stops altogether. In the middle of an act, which a reset is as well (R175), the check
word is left behind. -/
def execSupplyPinsFall (midAct : Bool) (s : State) : Host.Outcome State Fault Refusal :=
  .next ((if s.phase = .pinsDown then s else s.darkened .pinsDown).onStore fun st =>
    { st with checkAgrees := st.checkAgrees && !midAct })

/-- BACKUP_CELL_FAILURE (R178, and the last course of the example of 9.6): the store loses its contents while the supply pins are
down, or while the supply is down in supply reset (log 13). -/
def execBackupCellFailure (s : State) : Host.Outcome State Fault Refusal :=
  .next (if s.phase = .pinsDown ∨ s.phase = .supplyReset then s.onStore fun st => { st with checkAgrees := false } else s)

end Sys2Proof.Machine
end

