-- ==== Sys2Proof/Machine/Terminals.lean ====
section
/-! DEFINITION. The Terminal Unit (chapter 5): records and breaks on a line, terminal power, what a session is told, its
deadlines, and the two requests. -/

namespace Sys2Proof.Machine

/-! ### Arrivals on a line -/

/-- The row of an arrival on a line: one act (R108; log 11). -/
def lineArrival (i : Instr) (t : TerminalId) (a : LineArrival) (s : State) : Host.Outcome State Fault Refusal :=
  act i s fun s => s.lineTakes t a

/-- TERMINAL_HELLO (R97, R111, R112). -/
def execTerminalHello (t : TerminalId) (s : State) : Host.Outcome State Fault Refusal :=
  lineArrival (.terminalHello t) t .hello s

/-- TERMINAL_TAP (R103, R107, R111). -/
def execTerminalTap (t : TerminalId) (card : CardId) (s : State) : Host.Outcome State Fault Refusal :=
  lineArrival (.terminalTap t card) t (.tap card) s

/-- TERMINAL_PAID (R104, R107, R111). -/
def execTerminalPaid (t : TerminalId) (code : CardId) (rights : Byte) (expiry : ClockTime) (s : State) :
    Host.Outcome State Fault Refusal :=
  lineArrival (.terminalPaid t code rights expiry) t (.paid code rights expiry) s

/-- TERMINAL_PICK (R107). -/
def execTerminalPick (t : TerminalId) (cls : BikeClass) (s : State) : Host.Outcome State Fault Refusal :=
  lineArrival (.terminalPick t cls) t (.pick cls) s

/-- TERMINAL_CANCEL (R107, R111). -/
def execTerminalCancel (t : TerminalId) (s : State) : Host.Outcome State Fault Refusal :=
  lineArrival (.terminalCancel t) t .cancel s

/-- TERMINAL_BAD_RECORD (R98). -/
def execTerminalBadRecord (t : TerminalId) (s : State) : Host.Outcome State Fault Refusal :=
  lineArrival (.terminalBadRecord t) t .bad s

/-- TERMINAL_RECORD_DISCARDED (R98): a good check, and nothing else. -/
def execTerminalRecordDiscarded (t : TerminalId) (s : State) : Host.Outcome State Fault Refusal :=
  lineArrival (.terminalRecordDiscarded t) t .discarded s

/-- LINE_BREAK (R97). -/
def execLineBreak (t : TerminalId) (s : State) : Host.Outcome State Fault Refusal :=
  lineArrival (.lineBreak t) t .broken s

/-! ### Terminal power (R101) -/

/-- One terminal's output follows the power state. An output that was ON and is switched OFF is an arrival on its line (R97). -/
def State.powerTerminal (p : PowerState) (s : State) (t : TerminalId) : State :=
  let s1 := s.onTerminal t fun x => { x with power := p = .mains }
  if (s.terminal t).power ∧ p ≠ .mains then s1.lineTakes t .off else s1

/-- TERMINAL_POWER_SET (R101): all four outputs together. The part never names one terminal alone; a command that does sets
that one output (log 11). -/
def execTerminalPowerSet (p : PowerState) (only : Option TerminalId) (s : State) : Host.Outcome State Fault Refusal :=
  act (.terminalPowerSet p only) s fun s => ((only.map fun t => [t]).getD terminals).foldl (State.powerTerminal p) s

/-! ### What a session is told (R105, R106, R109) -/

/-- R106: the classes the card may take that are available decide the course. -/
def State.chooseClass (s : State) (t : TerminalId) (rights : Rights) : State :=
  match s.classAvailable .standard, rights == .standardElectric && s.classAvailable .electric with
  | true, true =>
    (s.onSession t fun x => { x with state := .choosing, deadline := some (s.now + s.settings.terminalIdle) }).sendTerminal t
      (.show .choose)
  | true, false => s.askAllocation t .standard none
  | false, true => s.askAllocation t .electric none
  | false, false => s.refuseSession t .noBike

/-- R105: the result a CHECKING session waits for. -/
def State.takeResult (s : State) (t : TerminalId) (r : CheckResult) : State :=
  match r with
  | .deny why => s.refuseSession t why
  | .vanOpened => s.finishSession t .vanOpened
  | .vanClosed => s.finishSession t .vanClosed
  | .member _ origin rights =>
    (s.onSession t fun x => { x with origin := some origin, rights := some rights }).chooseClass t rights

/-- CHECK_RESULT_AT_SESSION (R105, R113): a result the session no longer waits for is discarded. -/
def execCheckResultAtSession (t : TerminalId) (attempt : Nat) (r : CheckResult) (s : State) : Host.Outcome State Fault Refusal :=
  act (.checkResultAtSession t attempt r) s fun s =>
    let x := (s.terminal t).session
    if x.state = .checking ∧ ¬ x.allocating ∧ x.attempt = attempt then s.takeResult t r else s

/-- R109: FAILED. Once, another dock is asked for; the second time the attempt ends JAMMED. -/
def State.claimFailed (s : State) (t : TerminalId) (d : DockNo) : State :=
  let x := (s.terminal t).session
  if x.reallocated then s.refuseSession t .jammed
  else match x.cls with
    | some k => (s.onSession t fun x => { x with reallocated := true }).askAllocation t k (some d)
    | none => s.refuseSession t .jammed

/-- R109. -/
def State.takeClaimNews (s : State) (t : TerminalId) (d : DockNo) (news : ClaimNews) : State :=
  match news with
  | .released window =>
    (s.sendTerminal t (.show .take)).onSession t fun x =>
      { x with deadline := some (s.now + window + Config.takeMargin + s.settings.terminalIdle) }
  | .taken => s.finishSession t .hire
  | .lapsed => s.refuseSession t .lapsed
  | .failed => s.claimFailed t d

/-- CLAIM_NOTICE_AT_SESSION (R109): a notice of another dock, or at a session not OFFERED, is discarded. -/
def execClaimNoticeAtSession (t : TerminalId) (d : DockNo) (news : ClaimNews) (s : State) : Host.Outcome State Fault Refusal :=
  act (.claimNoticeAtSession t d news) s fun s =>
    let x := (s.terminal t).session
    if x.state = .offered ∧ x.claimDock = some d then s.takeClaimNews t d news else s

/-! ### Session deadlines (R107, R110) -/

/-- The session is in a state whose deadline is reached. -/
def State.sessionDue (s : State) (t : TerminalId) (st : TerminalState) : Bool :=
  (s.terminal t).session.state == st && s.reached (s.terminal t).session.deadline

/-- CHOOSING_DEADLINE (R107). -/
def execChoosingDeadline (t : TerminalId) (s : State) : Host.Outcome State Fault Refusal :=
  act (.choosingDeadline t) s fun s => if s.sessionDue t .choosing then s.abandonChoice t else s

/-- OFFERED_DEADLINE (R110). -/
def execOfferedDeadline (t : TerminalId) (s : State) : Host.Outcome State Fault Refusal :=
  act (.offeredDeadline t) s fun s => if s.sessionDue t .offered then (s.disown t).refuseSession t .jammed else s

/-! ### Requests (R99, R114) -/

/-- TERMINAL_GET (R114). -/
def execTerminalGet (tag : Byte) (body : List Byte) (s : State) : Host.Outcome State Fault Refusal :=
  request (.terminalGet tag body) 0x1A tag s (Operands.terminal body) fun t s =>
    let x := s.terminal t
    s.reply 0x1A tag .ok (.terminal
      { line := x.line, badCount := x.badCount, power := x.power, state := x.session.state, card := x.session.card,
        cls := x.session.cls, claimDock := x.session.claimDock, reallocated := x.session.reallocated })

/-- R99: a DISABLED line becomes DOWN, and its LINE_FAILED is resolved. -/
def State.enableLine (s : State) (t : TerminalId) : State :=
  if (s.terminal t).line = .disabled then
    ((s.onTerminal t fun x => { x with badCount := 0 }).setLine t .down).resolveFault (.terminal t) .lineFailed none
  else s

/-- TERMINAL_ENABLE (R99). -/
def execTerminalEnable (tag : Byte) (body : List Byte) (s : State) : Host.Outcome State Fault Refusal :=
  request (.terminalEnable tag body) 0x1B tag s (Operands.terminal body) fun t s => (s.enableLine t).reply 0x1B tag .ok

end Sys2Proof.Machine
end

