-- ==== Sys2Proof/Machine/Dispatch.lean ====
section
/-! DEFINITION. Every command to its meaning: one arm per row of the table. -/

namespace Sys2Proof.Machine

def exec (i : Instr) (s : State) : Host.Outcome State Fault Refusal :=
  match i with
  | .hostFrameGood bytes => Sys2Proof.Machine.execHostFrameGood bytes s
  | .hostFrameBad bytes => Sys2Proof.Machine.execHostFrameBad bytes s
  | .frameSent => Sys2Proof.Machine.execFrameSent s
  | .unknownKindRequest kind tag => Sys2Proof.Machine.execUnknownKindRequest kind tag s
  | .status tag body => Sys2Proof.Machine.execStatus tag body s
  | .noticeMask tag body => Sys2Proof.Machine.execNoticeMask tag body s
  | .timeSet tag body => Sys2Proof.Machine.execTimeSet tag body s
  | .reset tag body => Sys2Proof.Machine.execReset tag body s
  | .requestReset => Sys2Proof.Machine.execRequestReset s
  | .layoutGet tag body => Sys2Proof.Machine.execLayoutGet tag body s
  | .layoutSet tag body => Sys2Proof.Machine.execLayoutSet tag body s
  | .serviceStart tag body => Sys2Proof.Machine.execServiceStart tag body s
  | .serviceStop tag body => Sys2Proof.Machine.execServiceStop tag body s
  | .settingsGet tag body => Sys2Proof.Machine.execSettingsGet tag body s
  | .settingsStage tag body => Sys2Proof.Machine.execSettingsStage tag body s
  | .settingsDrop tag body => Sys2Proof.Machine.execSettingsDrop tag body s
  | .settingsSwitch => Sys2Proof.Machine.execSettingsSwitch s
  | .dockGet tag body => Sys2Proof.Machine.execDockGet tag body s
  | .dockSetService tag body => Sys2Proof.Machine.execDockSetService tag body s
  | .cardPut tag body => Sys2Proof.Machine.execCardPut tag body s
  | .cardGet tag body => Sys2Proof.Machine.execCardGet tag body s
  | .cardDrop tag body => Sys2Proof.Machine.execCardDrop tag body s
  | .cardVerdict tag body => Sys2Proof.Machine.execCardVerdict tag body s
  | .journalRead tag body => Sys2Proof.Machine.execJournalRead tag body s
  | .journalRelease tag body => Sys2Proof.Machine.execJournalRelease tag body s
  | .orderAdd tag body => Sys2Proof.Machine.execOrderAdd tag body s
  | .orderCancel tag body => Sys2Proof.Machine.execOrderCancel tag body s
  | .orderList tag body => Sys2Proof.Machine.execOrderList tag body s
  | .faultList tag body => Sys2Proof.Machine.execFaultList tag body s
  | .faultAck tag body => Sys2Proof.Machine.execFaultAck tag body s
  | .faultClear tag body => Sys2Proof.Machine.execFaultClear tag body s
  | .terminalGet tag body => Sys2Proof.Machine.execTerminalGet tag body s
  | .terminalEnable tag body => Sys2Proof.Machine.execTerminalEnable tag body s
  | .silenceDeadline => Sys2Proof.Machine.execSilenceDeadline s
  | .dockPoll => Sys2Proof.Machine.execDockPoll s
  | .dockReport bytes => Sys2Proof.Machine.execDockReport bytes s
  | .dockPollMissed => Sys2Proof.Machine.execDockPollMissed s
  | .reportWindowDeadline dock => Sys2Proof.Machine.execReportWindowDeadline dock s
  | .crewWindowDeadline dock => Sys2Proof.Machine.execCrewWindowDeadline dock s
  | .dockCapChange change => Sys2Proof.Machine.execDockCapChange change s
  | .dockClaimNotice dock => Sys2Proof.Machine.execDockClaimNotice dock s
  | .cardCheck card place => Sys2Proof.Machine.execCardCheck card place s
  | .queryDeadline queryTag => Sys2Proof.Machine.execQueryDeadline queryTag s
  | .passSale t attempt code rights expiry => Sys2Proof.Machine.execPassSale t attempt code rights expiry s
  | .charge dock card => Sys2Proof.Machine.execCharge dock card s
  | .refund card => Sys2Proof.Machine.execRefund card s
  | .claimRequest dock kind holder origin owner => Sys2Proof.Machine.execClaimRequest dock kind holder origin owner s
  | .claimGrant dock answer => Sys2Proof.Machine.execClaimGrant dock answer s
  | .reservationRequest dock order => Sys2Proof.Machine.execReservationRequest dock order s
  | .reservationDrop dock => Sys2Proof.Machine.execReservationDrop dock s
  | .vanReleaseRequest dock order card => Sys2Proof.Machine.execVanReleaseRequest dock order card s
  | .claimLockChange dock lock completed => Sys2Proof.Machine.execClaimLockChange dock lock completed s
  | .claimRemoval dock bike => Sys2Proof.Machine.execClaimRemoval dock bike s
  | .claimInsertion dock crew => Sys2Proof.Machine.execClaimInsertion dock crew s
  | .releaseDeadline dock => Sys2Proof.Machine.execReleaseDeadline dock s
  | .takeWindowDeadline dock => Sys2Proof.Machine.execTakeWindowDeadline dock s
  | .relockDeadline dock => Sys2Proof.Machine.execRelockDeadline dock s
  | .displacement dock => Sys2Proof.Machine.execDisplacement dock s
  | .lockJamCleared dock => Sys2Proof.Machine.execLockJamCleared dock s
  | .orphanReconcile dock occupancy lock => Sys2Proof.Machine.execOrphanReconcile dock occupancy lock s
  | .allocation t cls holder origin exclude => Sys2Proof.Machine.execAllocation t cls holder origin exclude s
  | .graceExpiry bike => Sys2Proof.Machine.execGraceExpiry bike s
  | .bikeTakenNotice bike entryWritten => Sys2Proof.Machine.execBikeTakenNotice bike entryWritten s
  | .bookingRequest dock => Sys2Proof.Machine.execBookingRequest dock s
  | .bookingGivenBack dock => Sys2Proof.Machine.execBookingGivenBack dock s
  | .vanBooking card place => Sys2Proof.Machine.execVanBooking card place s
  | .journalEntryWrite request => Sys2Proof.Machine.execJournalEntryWrite request s
  | .journalWithheldNotice dock joins => Sys2Proof.Machine.execJournalWithheldNotice dock joins s
  | .journalCountNotice dock change => Sys2Proof.Machine.execJournalCountNotice dock change s
  | .crewTap card place => Sys2Proof.Machine.execCrewTap card place s
  | .placementPass => Sys2Proof.Machine.execPlacementPass s
  | .vanClaimNotice dock order news => Sys2Proof.Machine.execVanClaimNotice dock order news s
  | .crewInsertionNotice dock news => Sys2Proof.Machine.execCrewInsertionNotice dock news s
  | .vanInNotice order dock seq identified => Sys2Proof.Machine.execVanInNotice order dock seq identified s
  | .vanIdleDeadline => Sys2Proof.Machine.execVanIdleDeadline s
  | .faultRaise subject kind dock carried => Sys2Proof.Machine.execFaultRaise subject kind dock carried s
  | .faultResolution subject kind dock => Sys2Proof.Machine.execFaultResolution subject kind dock s
  | .holdClear dock => Sys2Proof.Machine.execHoldClear dock s
  | .bikeArrivalNotice dock bike => Sys2Proof.Machine.execBikeArrivalNotice dock bike s
  | .faultRemovalNotice dock bike => Sys2Proof.Machine.execFaultRemovalNotice dock bike s
  | .terminalHello t => Sys2Proof.Machine.execTerminalHello t s
  | .terminalTap t card => Sys2Proof.Machine.execTerminalTap t card s
  | .terminalPaid t code rights expiry => Sys2Proof.Machine.execTerminalPaid t code rights expiry s
  | .terminalPick t cls => Sys2Proof.Machine.execTerminalPick t cls s
  | .terminalCancel t => Sys2Proof.Machine.execTerminalCancel t s
  | .terminalBadRecord t => Sys2Proof.Machine.execTerminalBadRecord t s
  | .terminalRecordDiscarded t => Sys2Proof.Machine.execTerminalRecordDiscarded t s
  | .lineBreak t => Sys2Proof.Machine.execLineBreak t s
  | .terminalPowerSet power only => Sys2Proof.Machine.execTerminalPowerSet power only s
  | .checkResultAtSession t attempt result => Sys2Proof.Machine.execCheckResultAtSession t attempt result s
  | .claimNoticeAtSession t dock news => Sys2Proof.Machine.execClaimNoticeAtSession t dock news s
  | .choosingDeadline t => Sys2Proof.Machine.execChoosingDeadline t s
  | .offeredDeadline t => Sys2Proof.Machine.execOfferedDeadline t s
  | .supplySample mainsPresent level => Sys2Proof.Machine.execSupplySample mainsPresent level s
  | .supplyResetEntry => Sys2Proof.Machine.execSupplyResetEntry s
  | .resetLineLow => Sys2Proof.Machine.execResetLineLow s
  | .resetLineRelease => Sys2Proof.Machine.execResetLineRelease s
  | .powerUp => Sys2Proof.Machine.execPowerUp s
  | .supplyPinsFall midAct => Sys2Proof.Machine.execSupplyPinsFall midAct s
  | .backupCellFailure => Sys2Proof.Machine.execBackupCellFailure s

end Sys2Proof.Machine
end

