-- ==== Sys2Proof/Machine/Work.lean ====
section
/-! DEFINITION. What the part takes of its own accord when no command waits (log 2): the work handed on between its blocks, oldest
first, the deadlines that are reached, and the next poll of the dock bus. -/

namespace Sys2Proof.Machine

/-- The row of a claim's deadline, when it is reached. -/
def State.claimWork (s : State) (c : Claim) : Option Instr :=
  if s.reached c.deadline then
    match c.state with
    | .releaseSent => some (.releaseDeadline c.dock)
    | .released => some (.takeWindowDeadline c.dock)
    | .relocking => some (.relockDeadline c.dock)
    | .reserved => none
    | .jammedOpen => none
    | .orphan => none
  else none

/-- The row of a dock's windows, when one is reached. -/
def State.windowWork (s : State) (p : DockRecord × DockNo) : Option Instr :=
  if s.reached p.1.reportWindow then some (.reportWindowDeadline p.2)
  else if s.reached (p.1.crewWindow.map (·.deadline)) then some (.crewWindowDeadline p.2)
  else none

/-- The row of a terminal session's deadline, when it is reached. -/
def State.sessionWork (s : State) (t : TerminalId) : Option Instr :=
  if s.reached (s.terminal t).session.deadline then
    match (s.terminal t).session.state with
    | .choosing => some (.choosingDeadline t)
    | .offered => some (.offeredDeadline t)
    | .idle => none
    | .checking => none
  else none

/-- The deadlines reached, in a fixed order. -/
def State.deadlineWork (s : State) : List Instr :=
  (if s.switchDue then [.settingsSwitch] else [])
    ++ (if ¬ s.host.lost ∧ s.reached s.host.deadline then [.silenceDeadline] else [])
    ++ ((s.card.queries.filter fun q => q.deadline ≤ s.now).map fun q => .queryDeadline q.tag)
    ++ ((s.release.grace.filter fun g => g.expiry ≤ s.now).map fun g => .graceExpiry g.bike)
    ++ s.release.claims.filterMap s.claimWork
    ++ s.dock.table.zipIdx.filterMap s.windowWork
    ++ terminals.filterMap s.sessionWork
    ++ (if s.order.session.any (fun v => v.state == .opened && s.reached v.idleDeadline) then [.vanIdleDeadline] else [])

/-- The work of a running part. -/
def State.runningWork (s : State) : Option Instr :=
  match s.inFlight, s.deadlineWork with
  | i :: _, _ => some i
  | [], i :: _ => some i
  | [], [] => if s.dock.poll.isNone then some .dockPoll else none

/-- What the part takes next of its own accord: its work while it runs, and the end of a stop once everything has been sent. -/
def State.ownWork (s : State) : Option Instr :=
  match s.phase with
  | .running => s.runningWork
  | .resetAsked => if s.host.outgoing = [] then some .requestReset else none
  | .shutdown => if s.host.outgoing = [] then some .supplyResetEntry else none
  | .supplyReset => none
  | .lineLow => none
  | .pinsDown => none

end Sys2Proof.Machine
end

