-- ==== Sys2Proof/Machine/Step.lean ====
section
/-! DEFINITION. One step: the command at the front of the queue, or what the part takes of its own accord. -/

namespace Sys2Proof.Machine

/-- The front of the queue is executed on the state with the rest; on an empty queue the part goes on with its own work, and
idles when it has none (log 2). -/
def step (s : State) : Host.Outcome State Fault Refusal :=
  match s.pending with
  | i :: rest => exec i { s with pending := rest }
  | [] =>
    match s.ownWork with
    | some i => exec i s
    | none => .next s

/-- The command a word spells, put at the front of the queue (log 14). -/
def State.withFetchWord (s : State) (nbits w : Nat) : State :=
  match decodeTableWord nbits w with
  | none => s
  | some i => { s with pending := i :: s.pending }

end Sys2Proof.Machine
end

