-- ==== Sys2Proof/Safety.lean ====
section
/-! DEFINITION. What statements about the part are made of: which parts of the state a command may change, and the laws of the
manual that every step keeps. -/

namespace Sys2Proof.Machine

/-! ### Frames -/

/-- The parts of the state, one for each block and one for each field beside them. -/
inductive Part
  | phase | now | pending | inFlight | straps | resetLow | host | dock | card | release | term | journal | order | fault | supply
  | store
deriving DecidableEq, Repr

/-- Two states agree in one part. -/
def SamePart (p : Part) (s t : State) : Prop :=
  match p with
  | .phase => t.phase = s.phase
  | .now => t.now = s.now
  | .pending => t.pending = s.pending
  | .inFlight => t.inFlight = s.inFlight
  | .straps => t.straps = s.straps
  | .resetLow => t.resetLow = s.resetLow
  | .host => t.host = s.host
  | .dock => t.dock = s.dock
  | .card => t.card = s.card
  | .release => t.release = s.release
  | .term => t.term = s.term
  | .journal => t.journal = s.journal
  | .order => t.order = s.order
  | .fault => t.fault = s.fault
  | .supply => t.supply = s.supply
  | .store => t.store = s.store

/-- From `s` to `t` only the listed parts may have changed. -/
def Only (w : List Part) (s t : State) : Prop := ∀ p, p ∉ w → SamePart p s t

/-- Every dock record but that of `d` is as it was, and no dock joined or left. -/
def OtherDocksSame (d : DockNo) (s t : State) : Prop :=
  t.dock.table.length = s.dock.table.length ∧ ∀ e, e ≠ d → t.dock? e = s.dock? e

/-! ### Conditions under which a command is taken -/

/-- No NOTICE waits unbegun at the front of the outgoing order: what is at the front is being sent (R193; log 8). -/
def HostLink.begun (h : HostLink) : Bool :=
  match h.outgoing with
  | .notice none :: _ => false
  | _ => true

/-- The part takes arrivals, and what it sends has begun. -/
abbrev State.ready (s : State) : Prop := s.phase = .running ∧ s.host.begun = true

/-- The reply stands at the end of the outgoing order. -/
def Answered (t : State) (kind : Nat) (tag : Byte) (code : ReplyCode) (payload : Payload) : Prop :=
  t.host.outgoing.getLast? = some (.reply (byteOf (kind + 0x80)) tag code payload)

/-- Nothing but the outgoing order and the work in flight differs, and the outgoing order only by this reply. -/
def OnlyAnswered (s t : State) (kind : Nat) (tag : Byte) (code : ReplyCode) (payload : Payload) : Prop :=
  Only [.host, .inFlight] s t ∧ t.host = s.host.send (.reply (byteOf (kind + 0x80)) tag code payload)

/-- The command left the work in flight, and this work was handed on, oldest first (R5, R72; its order within one act
is log 7). -/
def HandedOn (c : Instr) (s t : State) (work : List Instr) : Prop := t.inFlight = s.inFlight.erase c ++ work

/-! ### Laws -/

/-- R116: the entries carry consecutive sequence numbers, and `next` is one more than the newest. -/
def Consecutive : List Entry → SeqNo → Prop
  | [], _ => True
  | [e], next => seqAfter e.seq = next
  | e :: f :: rest, next => seqAfter e.seq = f.seq ∧ Consecutive (f :: rest) next

/-- R116: no number is 0, and the entries are numbered without a gap up to the next number. -/
def State.numbered (s : State) : Prop :=
  s.store.nextSeq ≠ 0 ∧ (∀ e ∈ s.journal.entries, e.seq ≠ 0) ∧ Consecutive s.journal.entries s.store.nextSeq

/-- R184, R185, R1: the layout and the settings, live and pending, are valid, and there is one dock record and one account for
each configured dock. -/
def State.configured (s : State) : Prop :=
  s.store.layout.valid = true ∧ s.store.live.valid = true ∧ (∀ p ∈ s.store.pendingSet, p.settings.valid = true)
    ∧ s.dock.table.length = s.store.layout.dockCount ∧ s.journal.account.length = s.store.layout.dockCount

/-- R190, R191, R193: at most two frames wait, the counts stay in their ranges, and the frame at the front is being sent. -/
def State.hostBounded (s : State) : Prop :=
  s.host.waiting.length ≤ 2 ∧ s.host.badFrames ≤ 65535 ∧ s.host.overruns ≤ 65535 ∧ s.host.begun = true

/-- R154, R158, R159, R160: the fault table fits its partition, holds at most one record for a subject and kind, none of them both
RESOLVED and ACKED, and the counts stay in their ranges. -/
def State.faultsKept (s : State) : Prop :=
  s.fault.table.length ≤ s.faultRoom ∧ (s.fault.table.map fun r => (r.subject, r.kind)).Nodup
    ∧ (∀ r ∈ s.fault.table, r.repeats ≤ 255 ∧ ¬ (r.condition = .resolved ∧ r.report = .acked)) ∧ s.fault.lost ≤ 65535

/-- R45: the card table fits its partition, holds at most one record for a card, and in each offline used is no greater than
offline credit. -/
def State.cardsKept (s : State) : Prop :=
  s.card.table.length ≤ s.cardRoom ∧ (s.card.table.map (·.card)).Nodup ∧ ∀ r ∈ s.card.table, r.used ≤ r.credit

/-- R61: up to 8 queries, at most one for a card and one for a tag, each with up to 4 waiters, and no tag 0. -/
abbrev State.queriesKept (s : State) : Prop :=
  s.card.queries.length ≤ 8 ∧ (s.card.queries.map (·.card)).Nodup ∧ (s.card.queries.map (·.tag)).Nodup
    ∧ (∀ q ∈ s.card.queries, q.waiters.length ≤ 4 ∧ q.tag ≠ 0) ∧ s.card.nextTag ≠ 0

/-- R70: which fields of a claim are present. -/
abbrev Claim.shaped (c : Claim) : Prop :=
  (c.state = .reserved → c.kind = .van) ∧ (c.holder.isSome ↔ c.state ≠ .reserved) ∧ (c.order.isSome ↔ c.kind = .van)
    ∧ (c.orphanCause.isSome ↔ c.state = .orphan) ∧ (c.deadline.isSome ↔ c.state.releasing)

/-- R70, R74: a dock carries at most one claim and is held by at most one request, each claim has the fields of its state, and a
card is holder of at most one claim in RELEASE_SENT, RELEASED or RELOCKING. -/
abbrev State.claimsKept (s : State) : Prop :=
  (s.release.claims.map (·.dock)).Nodup ∧ (s.release.requests.map (·.dock)).Nodup
    ∧ (∀ c ∈ s.release.claims, c.shaped) ∧ (∀ q ∈ s.release.requests, q.order.isSome ↔ q.kind = .van)
    ∧ ∀ c ∈ s.release.claims, ∀ e ∈ s.release.claims,
        c.state.releasing → e.state.releasing → c.holder = e.holder → c.dock = e.dock

/-- The law of R88: no claim in RESERVED or RELEASE_SENT stands on a dock below the level its kind needs. -/
def State.levelsKept (s : State) : Prop :=
  ∀ c ∈ s.release.claims, c.state = .reserved ∨ c.state = .releaseSent → (s.level c.dock).permits c.kind

/-- R91: the grace list holds up to 64 entries, at most one for a bike. -/
def State.graceKept (s : State) : Prop := s.release.grace.length ≤ 64 ∧ (s.release.grace.map (·.bike)).Nodup

/-- R132: up to 8 orders, at most one of an id, none with more done than its quantity. -/
abbrev State.ordersKept (s : State) : Prop :=
  s.order.queue.length ≤ 8 ∧ (s.order.queue.map (·.id)).Nodup ∧ ∀ o ∈ s.order.queue, o.done ≤ o.quantity

/-- R102: a session that is IDLE holds nothing (but the model's attempt number, log 12). -/
def Terminal.restful (x : Terminal) : Prop := x.session.state = .idle → x.session = { attempt := x.session.attempt }

/-- R97, R98, R102: every bad-record count is below 4, and an IDLE session holds nothing. -/
def State.terminalsKept (s : State) : Prop := ∀ t, (s.terminal t).badCount < 4 ∧ (s.terminal t).restful

/-! ### What statements say -/

/-- The commands that a stopped part still takes: its own frames, resets, the supply and its pins. -/
def takenStopped : Instr → Bool
  | .frameSent => true
  | .requestReset => true
  | .supplySample _ _ => true
  | .supplyResetEntry => true
  | .resetLineLow => true
  | .resetLineRelease => true
  | .powerUp => true
  | .supplyPinsFall _ => true
  | .backupCellFailure => true
  | _ => false

/-- The fault table once the record of this subject and kind is RESOLVED; an ACKED one leaves (R160). -/
def resolvedIn (s : State) (x : FaultSubject) (k : FaultKind) : List FaultRecord :=
  (s.fault.table.filter fun y => !(y.subject == x && y.kind == k && y.report == .acked)).map fun y =>
    if y.subject = x ∧ y.kind = k then { y with condition := .resolved } else y

/-- A pending set is due: NOW, or its switch time reached by a set clock (R186, R187). -/
def dueAt (s : State) (p : PendingSettings) : Prop :=
  p.switchTime = none ∨ ∃ x, p.switchTime = some x ∧ s.store.clockUnset = false ∧ x ≤ s.store.clock

/-- A switch to the set `p` puts the silence deadline of an UP link into the past (R187). -/
def overdueAt (s : State) (p : PendingSettings) : Prop :=
  s.host.lost = false ∧ p.settings.silenceLimit ≠ s.store.live.silenceLimit
    ∧ s.host.lastGood + p.settings.silenceLimit ≤ s.now

/-- What a switch to the set `p` brings beside the live set (R187, R197): the notice joins, a changed action is told,
and a changed
limit moves the deadline of an UP link, which is LOST at once when that lies in the past. -/
def Switched (s t : State) (p : PendingSettings) : Prop :=
  NoticeKind.settingsSwitched.inSet t.host.noticeSet = true
  ∧ (p.settings.silenceAction ≠ s.store.live.silenceAction →
      .dockCapChange (.silenceAction p.settings.silenceAction) ∈ t.inFlight)
  ∧ (¬ overdueAt s p → t.host.lost = s.host.lost ∧ t.card = s.card ∧ t.dock = s.dock
      ∧ t.host.deadline = (if s.host.lost = true ∨ p.settings.silenceLimit = s.store.live.silenceLimit then s.host.deadline
          else some (s.host.lastGood + p.settings.silenceLimit)))
  ∧ (overdueAt s p → t.host.lost = true ∧ t.host.deadline = none ∧ t.card.queries = []
      ∧ .dockCapChange (.hostLink true) ∈ t.inFlight)

/-- The fields of a set with a range, as SETTINGS_STAGE carries them: the place of each behind the switch time, its bytes, its
least value and its greatest (R185; the two bounds that set one field against another are not among them). -/
def settingRanges : List (Nat × Nat × Nat × Nat) :=
  [(0, 1, 10, 120), (1, 2, 0, 600), (3, 2, 0, 300), (5, 1, 2, 30), (6, 1, 15, 180), (7, 2, 60, 1800), (9, 1, 5, 60), (10, 2, 10, 600),
   (12, 1, 0, 1), (13, 1, 0, 1), (14, 2, 20, 2000), (18, 1, 5, 50), (19, 2, 8, 512), (23, 1, 32, 250), (24, 1, 16, 240), (25, 1, 2, 32)]

/-- A LINE_FAILED record of a terminal, which every reset resolves (R96). -/
def lineFault (y : FaultRecord) : Bool :=
  y.kind == .lineFailed && match y.subject with
    | .terminal _ => true
    | .dock _ => false
    | .bike _ => false

/-- What is handed on with a change of the power state (R172; in the order of log 7). -/
def powerTold (s : State) (p : PowerState) : List Instr :=
  if s.supply.power = p then []
  else [.dockCapChange (.power p), .terminalPowerSet p none] ++ (if s.supply.power = .reserve then
    (if s.sessionOpen then [.placementPass] else []) else [])

/-- R170, R171: the power state that a sample of this level leaves when its debounced mains is `after`, and whether the sample begins
supply shutdown. -/
def poweredBy (s : State) (after : Option Bool) (level : Nat) : PowerState × Bool :=
  let called : Bool → PowerState := fun mains =>
    if mains = true then .mains else if level < s.store.live.supplyLow then .reserve else .battery
  if s.supply.decided = false then
    match after with
    | none => (s.supply.power, false)
    | some mains => (called mains, !mains && decide (level < s.store.live.supplyCutoff))
  else
    match (match after with
      | none => s.supply.power
      | some mains => if s.supply.debounced = after then s.supply.power else called mains) with
    | .mains => (.mains, false)
    | .battery =>
      if level < s.store.live.supplyCutoff then (.battery, true)
      else if level < s.store.live.supplyLow then (.reserve, false) else (.battery, false)
    | .reserve =>
      if level < s.store.live.supplyCutoff then (.reserve, true)
      else if level < s.store.live.supplyLow + s.store.live.supplyHysteresis then (.reserve, false) else (.battery, false)

/-- The commands that end a stop by a reset, the phase each is taken in, and its cause (R175 to R177). -/
def resets : List (Instr × Phase × ResetCause) :=
  [(.requestReset, .resetAsked, .request), (.resetLineRelease, .lineLow, .line), (.powerUp, .pinsDown, .supply)]

/-- Where an urgent poll looks for a dock: after the urgent position, wrapping, or from dock 0 (R4). -/
def urgentKey (pos : Option DockNo) (n d : Nat) : Nat :=
  match pos with
  | none => d
  | some p => if p < d then d else d + n

/-- A poll of dock `d` is in progress, and these bytes are its dock's good report. -/
abbrev reported (s : State) (d : DockNo) (p : Poll) (r : DockRecord) (b : List Byte) (q : DockReport) : Prop :=
  s.dock.poll = some p ∧ p.dock = d ∧ s.dock? d = some r ∧ readReport b = some q ∧ q.dock = d

/-- The placement pass of R142, due while a session is OPEN. -/
def passDue (s : State) : List Instr := if s.sessionOpen then [.placementPass] else []

/-- The docks that a placement pass takes of `candidates`, in their order, while the session docks are fewer than the target
(R142). -/
def passTakes (target : Nat) : List (DockNo × Mark) → List DockNo → List DockNo
  | _, [] => []
  | docks, d :: candidates =>
    if docks.length < target then d :: passTakes target (docks.filter (fun p => p.1 != d) ++ [(d, .reserved)]) candidates else []

/-- The claim of a reservation (R75; the two values that its release captures are 0 until then, log 48). -/
def reservation (d : DockNo) (o : OrderId) : Claim :=
  { dock := d, kind := .van, state := .reserved, holder := none, owner := .order o, order := some o, orphanCause := none,
    takeWindow := 0, tariff := 0, offline := false, deadline := none }

/-- The dock carries a VAN claim of the order that its session counts (R139; log 32). -/
def countsAt (s : State) (d : DockNo) (o : OrderId) : Prop :=
  ∃ c, s.claimOn d = some c ∧ c.kind = .van ∧ c.order = some o ∧ c.state ≠ .orphan

/-- A session dock stands: its claim counts, and no drop of it is on its way (R139; log 36). -/
def standsIn (s : State) (v : VanSession) (d : DockNo) : Prop := countsAt s d v.order ∧ .reservationDrop d ∉ s.inFlight

/-- A session dock whose reservation can be given up (R139, R144; logs 36 and 42): marked RESERVED and standing, its claim RESERVED, with no
release of it asked for. -/
def canGiveUp (s : State) (v : VanSession) (d : DockNo) : Prop :=
  (d, Mark.reserved) ∈ v.docks ∧ standsIn s v d ∧ (∃ c, s.claimOn d = some c ∧ c.state = .reserved) ∧ s.requestOn d = none
    ∧ ∀ o card, .vanReleaseRequest d o card ∉ s.inFlight

/-- What a terminal that owns the claim is told (R87). -/
def ownerTold (c : Claim) (news : ClaimNews) : List Instr :=
  match c.owner with
  | .terminal t => [.claimNoticeAtSession t c.dock news]
  | .reader _ => []
  | .order _ => []
  | .nobody => []

/-- What an ending LAPSED or FAILED hands on: the dock and the journal are told, a charge is refunded, a VAN loss and the owner
are told (R72, R85, R87; in the order of log 7). -/
def untakenTold (s : State) (c : Claim) (news : ClaimNews) : List Instr :=
  [.dockClaimNotice c.dock] ++ passDue s ++ [.journalCountNotice c.dock (.booked false)]
    ++ (if c.offline then [.refund (c.holder.getD 0)] else [])
    ++ (if c.kind = .van then [.vanClaimNotice c.dock (c.order.getD 0) .lapsedOrFailed] else []) ++ ownerTold c news

/-- The command `i` ends the claim `c` untaken: it leaves the table, the dock's pending command is `command`, and `first` and
then the news of the ending are handed on (R85; the order of what one act hands on is log 7). -/
def EndsUntaken (i : Instr) (s : State) (c : Claim) (command : LockCommand) (news : ClaimNews) (first : List Instr) : Prop :=
  exec i s = .next
    { s with
      release := { s.release with claims := s.release.claims.filter fun x => x.dock != c.dock }
      dock := { s.dock with table := s.dock.table.modify c.dock fun r => { r with command := command } }
      inFlight := s.inFlight.erase i ++ first ++ untakenTold s c news }

/-- LOCK_JAM as it is raised with the claim as it stood (R155). -/
def jamRaise (c : Claim) : Instr := .faultRaise (.dock c.dock) .lockJam (some c.dock) (.claim c.kind c.state c.holder)

/-- The command `i` moves the claim `c` to `c'` and its dock's pending command to `command`; `first`, the notice to the dock and
`last` are handed on (R72; in the order of log 7). -/
def MovesClaim (i : Instr) (s : State) (c c' : Claim) (command : LockCommand) (first last : List Instr) : Prop :=
  exec i s = .next
    { s with
      release := { s.release with claims := s.release.claims.map fun x => if x.dock = c.dock then c' else x }
      dock := { s.dock with table := s.dock.table.modify c.dock fun r => { r with command := command } }
      inFlight := s.inFlight.erase i ++ first ++ [.dockClaimNotice c.dock] ++ last }

/-- The command has no effect but being taken. -/
def OnlyTaken (i : Instr) (s : State) : Prop := exec i s = .next { s with inFlight := s.inFlight.erase i }

/-- The request `i` is refused: this reply code joins the outgoing order, and there is no other effect (R192). -/
def OnlyRefused (i : Instr) (s : State) (kind : Nat) (tag : Byte) (code : ReplyCode) : Prop :=
  exec i s = .next
    { s with
      host := { s.host with outgoing := s.host.outgoing ++ [.reply (byteOf (kind + 0x80)) tag code .nothing] }
      inFlight := s.inFlight.erase i }

/-- The length of a body whose presence byte stands at `offset`, `without` bytes long without the optional field and `extra` more
with it, does not fit that byte (R192 step 2). -/
def lengthUnfit (body : List Byte) (offset without extra : Nat) : Prop :=
  body.length ≤ offset ∨ (fieldAt body offset 1 = 0 ∧ body.length ≠ without)
    ∨ (fieldAt body offset 1 = 1 ∧ body.length ≠ without + extra)

/-- The bodies of good length that the owning rule refuses BAD_FIELD, as far as no clause about the request itself gives them: the kind of
each request and its request, with the ground (R48, R42, R99, R114, R133, R162, R165, R166, R184, R198; the
subject of a fault coded as log 15 has it). -/
def fieldsRefused (s : State) (tag : Byte) (body : List Byte) : List (Nat × Instr × Prop) :=
  let f := fieldAt body
  let faultNamed := body.length = 6 ∧ (9 < f 5 1 ∨ 2 < f 0 1 ∨ (f 0 1 = 0 ∧ (s.dockCount ≤ f 1 4 ∨ 6 < f 5 1))
    ∨ (f 0 1 = 1 ∧ (f 1 4 = 0 ∨ f 5 1 < 7 ∨ 8 < f 5 1)) ∨ (f 0 1 = 2 ∧ (3 < f 1 4 ∨ f 5 1 ≠ 9)))
  [(0x06, .layoutSet tag body, body.length = 5 ∧ (f 0 1 = 0 ∨ 64 < f 0 1 ∨ f 1 2 % 16 ≠ 0 ∨ f 3 2 % 16 ≠ 0 ∨ f 1 2 < 64
      ∨ f 3 2 < f 1 2 + (f 0 1 + 16) ∨ 4080 < f 3 2)),
   (0x0C, .dockGet tag body, body.length = 1 ∧ s.dockCount ≤ f 0 1),
   (0x0D, .dockSetService tag body, body.length = 2 ∧ (s.dockCount ≤ f 0 1 ∨ 2 < f 1 1)),
   (0x0E, .cardPut tag body, 10 < body.length ∧ ¬ lengthUnfit body 10 11 4 ∧ (1 < f 10 1 ∨ f 0 4 = 0 ∨ 3 < f 4 1 ∨ 1 < f 5 1 ∨ 1 < f 6 1
      ∨ 15 < f 7 1 ∨ f 7 1 < f 8 1 ∨ (f 4 1 = 3 ∧ (f 10 1 = 0 ∨ f 0 4 < 0x80000000)) ∨ (f 4 1 ≠ 3 ∧ 0x80000000 ≤ f 0 4))),
   (0x14, .orderAdd tag body, 5 < body.length ∧ ¬ lengthUnfit body 5 6 4 ∧ (1 < f 5 1 ∨ f 0 2 = 0 ∨ 1 < f 2 1 ∨ 3 < f 3 1 ∨ f 4 1 = 0
      ∨ 64 < f 4 1 ∨ (f 2 1 = 1 ∧ f 3 1 = 3))),
   (0x17, .faultList tag body, body.length = 4 ∧ (1 < f 0 1 ∨ 4095 < f 1 2 ∨ f 3 1 = 0 ∨ 16 < f 3 1)),
   (0x18, .faultAck tag body, faultNamed), (0x19, .faultClear tag body, faultNamed),
   (0x1A, .terminalGet tag body, body.length = 1 ∧ 3 < f 0 1), (0x1B, .terminalEnable tag body, body.length = 1 ∧ 3 < f 0 1)]

/-- The claim `c` stands on its dock, and no other entry of the table is on that dock (R70). -/
abbrev stands (s : State) (c : Claim) : Prop :=
  c ∈ s.release.claims ∧ ∀ x ∈ s.release.claims, x.dock = c.dock → x = c

/-- The tests of R73 in their order, beside the requests `others`: the reason of the first that fails. -/
def refusal (s : State) (others : List ClaimRequest) (d : DockNo) (r : DockRecord) (kind : ClaimKind) (holder : CardId) :
    Option DenyReason :=
  if (∃ c ∈ s.release.claims, c.state.releasing = true ∧ c.holder = some holder) ∨ (∃ q ∈ others, q.holder = holder) then
    some .already
  else if r.link ≠ .online then some .dockLimit
  else if ∃ c ∈ s.release.claims, c.dock = d ∧ c.kind = .van ∧ c.state = .reserved then some .reserved
  else if (∃ c ∈ s.release.claims, c.dock = d) ∨ (∃ q ∈ others, q.dock = d) then some .claimed
  else if r.occupancy ≠ .occupied ∨ r.bike = none then some .noBike
  else if r.lock ≠ .locked then some .dockLimit
  else if kind = .member ∧ s.level d ≠ .full then some .dockLimit
  else none

/-- The record with a fresh stamp takes its place in the table (R45). -/
def installed (s : State) (r : CardRecord) : CardUnit :=
  { s.card with
    table := if ∃ x ∈ s.card.table, x.card = r.card then
        s.card.table.map fun x => if x.card = r.card then { r with stamp := s.card.installCounter } else x
      else s.card.table ++ [{ r with stamp := s.card.installCounter }]
    installCounter := s.card.installCounter + 1 }

/-- The record is expired: the clock is set and at or after its expiry (R47). -/
def isExpired (s : State) (r : CardRecord) : Bool := r.expiry.any fun e => !s.store.clockUnset && decide (e ≤ s.store.clock)

/-- The records that are expired. -/
def expiredCards (s : State) : List CardRecord := s.card.table.filter (isExpired s)

/-- How far the record's stamp lies behind the install counter, wrapped (R50). -/
def behind (s : State) (r : CardRecord) : Nat := (s.card.installCounter - r.stamp).toNat

/-- Of these records the one that gives up its slot: the furthest behind, and of a tie the first in the table (R50; log 37). -/
def givesUp (s : State) (among : List CardRecord) (r : CardRecord) : Prop :=
  ∃ before rest, among = before ++ r :: rest ∧ (∀ y ∈ before, behind s y < behind s r) ∧ ∀ y ∈ rest, behind s y ≤ behind s r

/-- The record can be placed without an eviction: one of its card is there, or a slot is free (R50). -/
def hasSlot (s : State) (r : CardRecord) : Prop :=
  (∃ x ∈ s.card.table, x.card = r.card) ∨ s.card.table.length < s.store.layout.journalBase

/-- `u` is the Card Unit once the record is placed: without an eviction, or in the slot of one of `evictable` (R50, R65). -/
def Placed (s : State) (r : CardRecord) (evictable : List CardRecord) (u : CardUnit) : Prop :=
  (hasSlot s r ∧ u = installed s r)
  ∨ (¬ hasSlot s r ∧ ∃ old, givesUp s evictable old
      ∧ u = installed { s with card := { s.card with table := s.card.table.filter fun x => x.card != old.card } } r)

/-- What the record of a sale may evict: the expired records, or with none of those the PROVISIONAL ones (R50). -/
def saleEvicts (s : State) : List CardRecord :=
  if expiredCards s = [] then s.card.table.filter fun r => r.origin == .provisional else expiredCards s

/-- The record of a pass that is sold (R50). -/
def soldPass (code : CardId) (rights : Rights) (expiry : ClockTime) : CardRecord :=
  { card := code, role := .pass, standing := .good, rights := rights, credit := 0, used := 0, origin := .terminal
    expiry := some expiry, stamp := 0 }

/-- The record that the unknown-card rule installs (R65). -/
def admitted (card : CardId) : CardRecord :=
  { card := card, role := .member, standing := .good, rights := .standard, credit := 1, used := 0, origin := .provisional
    expiry := none, stamp := 0 }

/-- Steps 1 to 6 of the check of a tap at a terminal, in their order (R51 to R55): the first that fails. -/
def refusalAtTerminal (s : State) (r : CardRecord) : Option DenyReason :=
  if s.store.station ≠ .serving then some .outOfService
  else if r.role = .service then some .role
  else if r.standing = .barred then some .barred
  else if isExpired s r = true then some .expired
  else if (r.role = .member ∨ r.role = .pass)
      ∧ ∃ c ∈ s.release.claims, c.state.releasing = true ∧ c.holder = some r.card then some .already
  else if r.role = .member ∧ (s.host.lost = true ∨ r.origin = .provisional) ∧ r.credit ≤ r.used then some .credit
  else none

/-- What a tap at a terminal, decided by this record, is handed on as: the result to its session, or a CREW tap to the Order Unit
(R51, R56, R57). -/
def terminalHandedOn (s : State) (x : TerminalId) (attempt : Nat) (r : CardRecord) : Instr :=
  match refusalAtTerminal s r with
  | some why => .checkResultAtSession x attempt (.deny why)
  | none =>
    if r.role = .crew then .crewTap r.card (.terminal x attempt)
    else .checkResultAtSession x attempt (.member r.card r.origin r.rights)

/-- Steps 1 to 6 of the check of a tap at dock `d`, in their order (R51 to R55): the first that fails. -/
def checkRefusal (s : State) (x : DockRecord) (r : CardRecord) : Option DenyReason :=
  if s.store.station ≠ .serving then some .outOfService
  else if r.standing = .barred then some .barred
  else if isExpired s r = true then some .expired
  else if (r.role = .member ∨ r.role = .pass) ∧ r.rights = .standard ∧ x.bike.map (·.cls) = some .electric then some .noRight
  else if ∃ c ∈ s.release.claims, c.state.releasing = true ∧ c.holder = some r.card then some .already
  else if r.role = .member ∧ (s.host.lost = true ∨ r.origin = .provisional) ∧ r.credit ≤ r.used then some .credit
  else none

/-- What a tap that passes the check of its record is handed on as (R56 to R58). -/
def tapHandedOn (d : DockNo) (x : DockRecord) (r : CardRecord) : Instr :=
  match r.role with
  | .member => .claimRequest d .member r.card r.origin (.reader d)
  | .pass => .claimRequest d .member r.card r.origin (.reader d)
  | .crew => .crewTap r.card (.reader d)
  | .service => if x.clearable then .holdClear d else .claimRequest d .service r.card r.origin (.reader d)

/-- Why a tap at dock `d` is denied: a step of the check, or NO_BIKE for a SERVICE card with nothing to do (R51 to R58). -/
def tapRefusal (s : State) (x : DockRecord) (r : CardRecord) : Option DenyReason :=
  (checkRefusal s x r).or (if r.role = .service ∧ x.clearable = false ∧ x.occupancy ≠ .occupied then some .noBike else none)

/-- The dock record once its reader's tap has been decided (R12). -/
def decidedAt (x : DockRecord) (result : ReaderResult) : DockRecord :=
    { x with checkPending := false, readerResult := some result }

/-- A waiting tap at dock `d` has been checked again in the state `s`, with `r` standing for its card (R64). -/
def ReaderResolved (s t : State) (d : DockNo) (x : DockRecord) (r : CardRecord) : Prop :=
  match tapRefusal s x r with
  | some why => t.dock? d = some (decidedAt x (.deny why))
  | none => t.dock? d = some x ∧ tapHandedOn d x r ∈ t.inFlight

/-- A waiting tap at dock `d` has been checked again in the state `s`, its query ended without a verdict or by NONE: by the record
that the table holds, or else by the unknown-card rule (R64 to R66, R68). -/
def ReaderEndsWithout (s t : State) (d : DockNo) (x : DockRecord) (card : CardId) : Prop :=
  (∀ r, s.cardRecord card = some r → ReaderResolved s t d x r)
  ∧ (s.cardRecord card = none → s.store.station ≠ .serving → t.dock? d = some (decidedAt x (.deny .outOfService)))
  ∧ (s.cardRecord card = none → s.store.station = .serving → s.store.live.unknownCard = .deny ∨ card.msb = true →
      t.dock? d = some (decidedAt x (.deny .unknown)))
  ∧ (s.cardRecord card = none → s.store.station = .serving → s.store.live.unknownCard = .provisional → card.msb = false →
      (s.card.table.length < s.store.layout.journalBase ∨ expiredCards s ≠ [] → ReaderResolved s t d x (admitted card))
      ∧ (s.store.layout.journalBase ≤ s.card.table.length → expiredCards s = [] →
          t.dock? d = some (decidedAt x (.deny .unknown)) ∧ NoticeKind.cardTableFull.inSet t.host.noticeSet = true))

/-- R29, as the table of its caps reads. -/
def levelByTable (caps : DockCaps) (r : DockRecord) : Level :=
  if r.hostSetting = .closed ∨ caps.station = .configuring ∨ r.dockHolds.lockJam = true ∨ r.dockHolds.sensor = true
      ∨ r.dockHolds.chatter = true ∨ r.dockHolds.forcedRemoval = true then .closed
  else if r.hostSetting = .returnOnly ∨ caps.power = .reserve ∨ (caps.hostLost = true ∧ caps.action = .restrict)
      ∨ r.dockHolds.tagUnread = true ∨ r.dockHolds.tagConflict = true ∨ r.bikeHolds.riderReport = true
      ∨ r.bikeHolds.batteryLow = true then .returnOnly
  else .full

/-- R43, as the table of the lamp reads. -/
def lampByTable (caps : DockCaps) (claim : Option Claim) (r : DockRecord) : Lamp :=
  if r.link ≠ .online then .off
  else if ∃ c, claim = some c ∧ c.state = .released then .flash
  else if ∃ c, claim = some c ∧ c.kind = .van ∧ c.state = .reserved then .white
  else if r.occupancy = .occupied ∧ r.lock = .locked ∧ r.bike ≠ none ∧ claim = none ∧ levelByTable caps r = .full then .green
  else if r.occupancy = .empty ∧ r.commanded = .opened then .amber
  else .red

/-- The notices of a fall of the slack (R125, R126). -/
def FallIsNoticed (s t : State) : Prop :=
  (s.slack > s.store.live.yellowMargin → t.slack ≤ s.store.live.yellowMargin →
      NoticeKind.journalYellow.inSet t.host.noticeSet = true)
  ∧ (2 ≤ s.slack → t.slack < 2 → NoticeKind.journalTight.inSet t.host.noticeSet = true)

/-- The state with one terminal replaced. -/
def withTerminal (s : State) (x : TerminalId) (f : Terminal → Terminal) : State :=
    { s with term := s.term.set x (f (s.term.get x)) }

/-- What an abort leaves of the other blocks (R112): the terminal out of every waiter list, its claim without an owner. -/
def aborted (s : State) (x : TerminalId) : State :=
  { s with
    card := { s.card with queries := s.card.queries.map fun q => { q with waiters := q.waiters.filter fun p => !p.isAt x } }
    release := { s.release with
      claims := s.release.claims.map fun c => if c.owner = .terminal x then { c with owner := .nobody } else c } }

/-- R37: a dock whose slot is commanded OPEN, or that waits for its admission, has a level above CLOSED. -/
def slotsKept (s : State) : Prop :=
  ∀ d r, s.dock? d = some r → r.commanded = .opened ∨ r.withheld = true → s.level d ≠ .closed

/-- R91: a bike is held by at most one dock record. -/
def bikesKept (s : State) : Prop := (s.dock.table.filterMap fun r => r.bike.map (·.id)).Nodup

/-- Every step that answers a next state keeps the property. -/
def keptByStep (p : State → Prop) : Prop := ∀ s t, p s → step s = .next t → p t

end Sys2Proof.Machine
end

