-- ==== Sys2Proof/Certificates/Slice0/Obligations.lean ====
section
/-! DEFINITION. The statements about the part, from the numbered rules of the manual, for the provers. -/

open Sys2Proof Sys2Proof.Machine

/-! ### The queue and the step -/

/-- The tier 1 statement of a block: a step runs the command at the front of the queue on the state with the queue's rest. -/
def Obligations.StepRunsFront : Prop :=
  ∀ (c : Instr) (rest : List Instr) (s : State), s.pending = c :: rest → step s = exec c { s with pending := rest }

/-- Every command answers a next state, and no command touches the commands that wait or the rate straps. With no command
waiting the part takes its own work, and idles when it has none (the model's choice, log 2). -/
def Obligations.EveryStepAnswers : Prop :=
  (∀ (c : Instr) (s : State), ∃ t, exec c s = .next t ∧ t.pending = s.pending ∧ t.straps = s.straps)
  ∧ ∀ s : State, s.pending = [] →
    (∀ i, s.ownWork = some i → step s = exec i s) ∧ (s.ownWork = none → step s = .next s)

/-- A part that a reset request, supply shutdown, supply reset, the reset line or its pins have stopped takes no other arrival
(R173, R174, R176, R177; log 4). -/
def Obligations.StoppedPartTakesNothing : Prop :=
  ∀ (c : Instr) (s : State), s.phase ≠ .running → takenStopped c = false → exec c s = .next s

/-! ### The host link -/

/-- R190, 11.7: among bytes that are no start byte, hunting finds exactly the frame that was sent, with its kind, tag and body. -/
def Obligations.HuntFindsFrameSent : Prop :=
  ∀ (noise : List Byte) (kind tag : Byte) (body : List Byte), 0xC3 ∉ noise → body.length ≤ 512 →
    hunt ((noise ++ hostFrame kind tag body).length + 1) (noise ++ hostFrame kind tag body) = ([.good ⟨kind, tag, body⟩], [])

/-- R190, R191, R197: a good frame restarts the silence deadline and, with no request open and none waiting, is taken
at once, its request handed on as an act of its own (the model's choice, log 47); while a reply is unsent it waits,
when fewer than two frames wait, and with two waiting it is an overrun, the request in progress not counted among them
(the model's choice, log 41); it ends a silence all the same. A frame that is over-long or has a bad check is counted,
and nothing else changes. -/
def Obligations.FramesAreTakenOverrunOrBad : Prop :=
  (∀ (s : State) (kind tag : Byte) (body : List Byte), s.ready → s.host.rx = [] → body.length ≤ 512 →
     (s.host.waiting = [] → s.host.requestOpen = false → s.host.outgoing.any OutFrame.isReply = false → s.host.lost = false →
       exec (.hostFrameGood (hostFrame kind tag body)) s = .next
         { s with
           host := { s.host with requestOpen := true, lastGood := s.now, deadline := some (s.now + s.settings.silenceLimit) }
           inFlight := s.inFlight.erase (.hostFrameGood (hostFrame kind tag body)) ++ [requestOf ⟨kind, tag, body⟩] })
     ∧ (s.host.waiting.length < 2 → s.host.requestOpen = true ∨ s.host.outgoing.any OutFrame.isReply = true
         → s.host.lost = false →
       exec (.hostFrameGood (hostFrame kind tag body)) s = .next
         { s with
           host := { s.host with waiting := s.host.waiting ++ [⟨kind, tag, body⟩], lastGood := s.now,
                                 deadline := some (s.now + s.settings.silenceLimit) }
           inFlight := s.inFlight.erase (.hostFrameGood (hostFrame kind tag body)) })
     ∧ (s.host.waiting.length = 2 → s.host.requestOpen = true ∨ s.host.outgoing.any OutFrame.isReply = true
         → s.host.lost = false →
       exec (.hostFrameGood (hostFrame kind tag body)) s = .next
         { s with
           host := { s.host with overruns := min 65535 (s.host.overruns + 1), lastGood := s.now,
                                 deadline := some (s.now + s.settings.silenceLimit) }
           inFlight := s.inFlight.erase (.hostFrameGood (hostFrame kind tag body)) })
     ∧ (s.host.lost = true → ∃ t, exec (.hostFrameGood (hostFrame kind tag body)) s = .next t ∧ t.host.lost = false
         ∧ t.host.deadline = some (s.now + s.settings.silenceLimit) ∧ NoticeKind.linkResumed.inSet t.host.noticeSet = true
         ∧ Instr.dockCapChange (.hostLink false) ∈ t.inFlight ∧ Only [.host, .inFlight] s t))
  ∧ (∀ (s : State) (b : List Byte), s.ready → s.host.rx = [] → 0xC3 ∉ b →
     ((2 ≤ b.length ∧ 512 < fieldAt b 0 2)
       ∨ (fieldAt b 0 2 ≤ 512 ∧ b.length = fieldAt b 0 2 + 6
           ∧ crc16 (b.take (fieldAt b 0 2 + 4)) ≠ halfAt b (fieldAt b 0 2 + 4))) →
     exec (.hostFrameBad (0xC3 :: b)) s = .next
       { s with
         host := { s.host with badFrames := min 65535 (s.host.badFrames + 1) }
         inFlight := s.inFlight.erase (.hostFrameBad (0xC3 :: b)) })

/-- R191, R193: a frame sent leaves the outgoing order and the next begins; once a reply has been sent the oldest
waiting request is taken, handed on as an act of its own (the model's choice, log 47). -/
def Obligations.FrameSentGoesOn : Prop :=
  ∀ (s : State) (f : OutFrame) (rest : List OutFrame), s.phase = .running → s.host.outgoing = f :: rest →
    (f.isReply = false → exec .frameSent s = .next
      { s with host := HostLink.beginSending { s.host with outgoing := rest }, inFlight := s.inFlight.erase .frameSent })
    ∧ (f.isReply = true → s.host.waiting = [] → exec .frameSent s = .next
      { s with
        host := HostLink.beginSending { s.host with outgoing := rest, requestOpen := false }
        inFlight := s.inFlight.erase .frameSent })
    ∧ (∀ g more, f.isReply = true → s.host.waiting = g :: more → rest.any OutFrame.isReply = false →
        exec .frameSent s = .next
          { s with
            host := HostLink.beginSending { s.host with outgoing := rest, requestOpen := true, waiting := more }
            inFlight := s.inFlight.erase .frameSent ++ [requestOf g] })

/-- R192: a kind that is no request is answered UNKNOWN_KIND under its kind with the top bit set; a request whose body
has not the length that its fields require is answered BAD_LENGTH, and one with a presence byte or an outcome outside
its values BAD_FIELD; a field outside its range is refused BAD_FIELD by the owning rule. None has an effect. The
bodies of SETTINGS_STAGE, the reserved bits of NOTICE_MASK, the number 0 of JOURNAL_READ and JOURNAL_RELEASE and the
card id 0 of CARD_VERDICT are in the statements about these requests. How FAULT_ACK and FAULT_CLEAR code the subject
they name is the model's choice (log 15). -/
def Obligations.FormIsExaminedFirst : Prop :=
  (∀ (s : State) (kind tag : Byte), s.ready →
     exec (.unknownKindRequest kind tag) s = .next
       { s with
         host := { s.host with outgoing := s.host.outgoing ++ [.reply (kind ||| 0x80) tag .unknownKind .nothing] }
         inFlight := s.inFlight.erase (.unknownKindRequest kind tag) })
  ∧ (∀ (s : State) (tag : Byte) (body : List Byte), s.ready → body ≠ [] →
     ∀ p ∈ [(0x01, Instr.status tag body), (0x04, .reset tag body), (0x05, .layoutGet tag body), (0x07, .serviceStart tag body),
            (0x08, .serviceStop tag body), (0x09, .settingsGet tag body), (0x0B, .settingsDrop tag body),
            (0x16, .orderList tag body)],
       exec p.2 s = .next
         { s with
           host := { s.host with outgoing := s.host.outgoing ++ [.reply (byteOf (p.1 + 0x80)) tag .badLength .nothing] }
           inFlight := s.inFlight.erase p.2 })
  ∧ (∀ (s : State) (tag : Byte) (body : List Byte), s.ready →
     ∀ p ∈ [(0x02, Instr.noticeMask tag body, 2), (0x03, .timeSet tag body, 4), (0x06, .layoutSet tag body, 5), (0x0C, .dockGet tag body, 1),
            (0x0D, .dockSetService tag body, 2), (0x0F, .cardGet tag body, 4), (0x10, .cardDrop tag body, 4),
            (0x12, .journalRead tag body, 5), (0x13, .journalRelease tag body, 4), (0x15, .orderCancel tag body, 2),
            (0x17, .faultList tag body, 4), (0x18, .faultAck tag body, 6), (0x19, .faultClear tag body, 6),
            (0x1A, .terminalGet tag body, 1), (0x1B, .terminalEnable tag body, 1)],
       body.length ≠ p.2.2 → OnlyRefused p.2.1 s p.1 tag .badLength)
  ∧ (∀ (s : State) (tag : Byte) (body : List Byte), s.ready →
     (lengthUnfit body 10 11 4 → OnlyRefused (.cardPut tag body) s 0x0E tag .badLength)
     ∧ (lengthUnfit body 5 6 4 → OnlyRefused (.orderAdd tag body) s 0x14 tag .badLength)
     ∧ (body.length < 6 ∨ ((fieldAt body 5 1 = 1 ∨ fieldAt body 5 1 = 2) ∧ body.length ≠ 6)
           ∨ (fieldAt body 5 1 = 0 ∧ lengthUnfit body 16 17 4) → OnlyRefused (.cardVerdict tag body) s 0x11 tag .badLength)
     ∧ (6 ≤ body.length → 2 < fieldAt body 5 1 ∨ (fieldAt body 5 1 = 0 ∧ 16 < body.length ∧ 1 < fieldAt body 16 1) →
         OnlyRefused (.cardVerdict tag body) s 0x11 tag .badField)
     ∧ ∀ p ∈ fieldsRefused s tag body, p.2.2 → OnlyRefused p.2.1 s p.1 tag .badField)

/-- R197, R66, R34: at the silence deadline the link becomes LOST, every card query ends, and the Dock Controller is told, last of
what the act hands on (log 7). What the waiters of the queries get is in `QueriesEnd`. -/
def Obligations.SilenceLosesTheLink : Prop :=
  ∀ (s : State) (d : Elapsed), s.ready → s.host.lost = false → s.host.deadline = some d → d ≤ s.now →
    ∃ t, exec .silenceDeadline s = .next t ∧ t.host.lost = true ∧ t.host.deadline = none ∧ t.card.queries = []
      ∧ t.inFlight.getLast? = some (.dockCapChange (.hostLink true)) ∧ Only [.host, .inFlight, .card, .dock] s t

/-- R195: a mask with none of bits 12 to 15 set becomes the notice mask and is answered OK with it. Nothing else changes, so
kinds in the set stay and no NOTICE is due; the next joining of a kind it enables makes one due. A mask with one of those bits
is refused BAD_FIELD, with no effect. -/
def Obligations.NoticeMaskSets : Prop :=
  ∀ (s : State) (tag : Byte) (m : Half), s.ready →
    (m &&& 0xF000 = 0 → ∃ t, exec (.noticeMask tag (bytesHalf m)) s = .next t
      ∧ t = { s with
              host := { s.host with noticeMask := m, outgoing := s.host.outgoing ++ [.reply 0x82 tag .ok (.mask m)] }
              inFlight := s.inFlight.erase (.noticeMask tag (bytesHalf m)) }
      ∧ ∀ k : NoticeKind, k.inSet m = true → (t.host.join k).outgoing.any OutFrame.isNotice = true)
    ∧ (m &&& 0xF000 ≠ 0 → exec (.noticeMask tag (bytesHalf m)) s = .next
        { s with
          host := { s.host with outgoing := s.host.outgoing ++ [.reply 0x82 tag .badField .nothing] }
          inFlight := s.inFlight.erase (.noticeMask tag (bytesHalf m)) })

/-- R196: STATUS is answered OK with the notice set and every value listed with it, as they stand; in the same act the notice
set is emptied, and nothing else changes. -/
def Obligations.StatusReportsAndEmpties : Prop :=
  ∀ (s : State) (tag : Byte), s.ready →
    exec (.status tag []) s = .next
      { s with
        host := { s.host with
          noticeSet := 0
          outgoing := s.host.outgoing ++ [.reply 0x81 tag .ok (.status
            { notices := s.host.noticeSet, station := s.store.station, cause := s.store.resetCause, warm := s.store.warm,
              power := s.supply.power, decided := s.supply.decided, debounced := s.supply.debounced, level := s.supply.level,
              hostLost := s.host.lost, badFrames := s.host.badFrames, overruns := s.host.overruns, lostReports := s.fault.lost,
              clock := s.store.clock, clockUnset := s.store.clockUnset, nextSeq := s.store.nextSeq, slack := s.slack,
              claims := s.release.claims.length, session := s.order.session.map (·.state),
              lines := ⟨s.term.t0.line, s.term.t1.line, s.term.t2.line, s.term.t3.line⟩, mask := s.host.noticeMask })] }
        inFlight := s.inFlight.erase (.status tag []) }

/-! ### The Store Controller -/

/-- R189, R187: TIME_SET sets the clock, and switches a pending set that is NOW or whose switch time the new value has
reached. At the switch the pending set is live whole, the notice joins, a changed silence action is told to the Dock
Controller, and a changed silence limit moves the deadline of an UP link to the last good frame plus the new limit;
where that time is at or before now the link is LOST in the same act, which is the model's reading (log 35). That a
candidate of a presence detector stands at the switch is the model's choice (log 46). That the clock reaches a switch
time and that the set is switched are two acts is the model's choice (log 40). That the reply to TIME_SET stands after
the NOTICE that the switch makes due is the model's choice as well (log 7). -/
def Obligations.ClockIsSetAndSettingsSwitch : Prop :=
  (∀ (s : State) (tag : Byte) (w : ClockTime), s.ready →
     ((∀ p ∈ s.store.pendingSet, ∃ x, p.switchTime = some x ∧ w < x) →
       exec (.timeSet tag (bytesWord w)) s = .next
         { s with
           store := { s.store with clock := w, clockUnset := false }
           host := { s.host with outgoing := s.host.outgoing ++ [.reply 0x83 tag .ok .nothing] }
           inFlight := s.inFlight.erase (.timeSet tag (bytesWord w)) })
     ∧ ∀ p, s.store.pendingSet = some p → (∀ x, p.switchTime = some x → x ≤ w) →
         ∃ t, exec (.timeSet tag (bytesWord w)) s = .next t
           ∧ t.store = { s.store with clock := w, clockUnset := false, live := p.settings, pendingSet := none }
           ∧ Switched s t p ∧ Answered t 0x03 tag .ok .nothing ∧ Only [.host, .inFlight, .store, .card, .dock] s t)
  ∧ (∀ (s : State) (p : PendingSettings), s.phase = .running → s.store.pendingSet = some p → dueAt s p →
     ∃ t, exec .settingsSwitch s = .next t ∧ t.store = { s.store with live := p.settings, pendingSet := none } ∧ Switched s t p
       ∧ (¬ overdueAt s p → HandedOn .settingsSwitch s t
           (if p.settings.silenceAction = s.store.live.silenceAction then []
            else [.dockCapChange (.silenceAction p.settings.silenceAction)]))
       ∧ Only [.host, .inFlight, .store, .card, .dock] s t)

/-- R186: SETTINGS_STAGE puts the set in place, switched at once when it is due; SETTINGS_DROP discards it. A silence
deadline that the switch puts at or before now makes the link LOST in the same act, which is the model's reading (log
35). That a candidate of a presence detector stands at a switch is the model's choice (log 46). That the reply stands
after the NOTICE that a switch makes due is the model's choice (log 7). A body of another length, a presence byte
other than 0 and 1, or a field outside its range (R185) is refused. That NOW is an absent switch time, and so the
presence byte and the lengths 27 and 31, is the model's choice (log 15). -/
def Obligations.SettingsAreStagedAndDropped : Prop :=
  ∀ (s : State) (tag : Byte), s.ready →
    (∀ body p, Operands.settingsStage body = .ok p → ¬ dueAt s p →
      exec (.settingsStage tag body) s = .next
        { s with
          store := { s.store with pendingSet := some p }
          host := { s.host with outgoing := s.host.outgoing
            ++ [.reply 0x8A tag (if s.store.pendingSet.isSome then .replaced else .ok) .nothing] }
          inFlight := s.inFlight.erase (.settingsStage tag body) })
    ∧ (∀ body p, Operands.settingsStage body = .ok p → dueAt s p →
      ∃ t, exec (.settingsStage tag body) s = .next t ∧ t.store = { s.store with live := p.settings, pendingSet := none }
        ∧ Switched s t p ∧ Answered t 0x0A tag (if s.store.pendingSet.isSome then .replaced else .ok) .nothing
        ∧ Only [.host, .inFlight, .store, .card, .dock] s t)
    ∧ (∀ body code, Operands.settingsStage body = .error code
          ∨ (body = [] ∧ code = .badLength)
          ∨ (2 ≤ fieldAt body 0 1 ∧ body ≠ [] ∧ code = .badField)
          ∨ (fieldAt body 0 1 = 0 ∧ body ≠ [] ∧ body.length ≠ 27 ∧ code = .badLength)
          ∨ (fieldAt body 0 1 = 1 ∧ body.length ≠ 31 ∧ code = .badLength)
          ∨ (∃ o, ((o = 1 ∧ fieldAt body 0 1 = 0 ∧ body.length = 27) ∨ (o = 5 ∧ fieldAt body 0 1 = 1 ∧ body.length = 31))
              ∧ (∃ f ∈ settingRanges, fieldAt body (o + f.1) f.2.1 < f.2.2.1 ∨ f.2.2.2 < fieldAt body (o + f.1) f.2.1)
              ∧ code = .badField) →
      exec (.settingsStage tag body) s = .next
        { s with
          host := { s.host with outgoing := s.host.outgoing ++ [.reply 0x8A tag code .nothing] }
          inFlight := s.inFlight.erase (.settingsStage tag body) })
    ∧ exec (.settingsDrop tag []) s = .next
        { s with
          store := { s.store with pendingSet := none }
          host := { s.host with outgoing := s.host.outgoing
            ++ [.reply 0x8B tag (if s.store.pendingSet.isSome then .ok else .notFound) .nothing] }
          inFlight := s.inFlight.erase (.settingsDrop tag []) }

/-- R183, R185, R49, R198 and the reading requests of 11.5: each answers what the part holds and changes nothing else.
That CARD_GET of card id 0 is answered NOT_FOUND is the model's choice (log 51). The order in which ORDER_LIST lists
the session docks and windows is log 33. -/
def Obligations.ReadingRequestsAnswer : Prop :=
  ∀ (s : State) (tag : Byte), s.ready →
    exec (.layoutGet tag []) s = .next
      { s with
        host := { s.host with outgoing := s.host.outgoing ++ [.reply 0x85 tag .ok (.layout s.store.layout)] }
        inFlight := s.inFlight.erase (.layoutGet tag []) }
    ∧ exec (.settingsGet tag []) s = .next
      { s with
        host := { s.host with
          outgoing := s.host.outgoing ++ [.reply 0x89 tag .ok (.settings s.store.live s.store.pendingSet)] }
        inFlight := s.inFlight.erase (.settingsGet tag []) }
    ∧ (∀ d r, s.dock? d = some r → d < 64 → exec (.dockGet tag [byteOf d]) s = .next
      { s with
        host := { s.host with
          outgoing := s.host.outgoing ++ [.reply 0x8C tag .ok (.dock
            { record := r, level := s.level d, claim := (s.claimOn d).map fun c => (c.kind, c.state, c.holder, c.owner) })] }
        inFlight := s.inFlight.erase (.dockGet tag [byteOf d]) })
    ∧ (∀ card r, s.cardRecord card = some r → exec (.cardGet tag (bytesWord card)) s = .next
      { s with
        host := { s.host with outgoing := s.host.outgoing ++ [.reply 0x8F tag .ok (.card r)] }
        inFlight := s.inFlight.erase (.cardGet tag (bytesWord card)) })
    ∧ exec (.orderList tag []) s = .next
      { s with
        host := { s.host with
          outgoing := s.host.outgoing ++ [.reply 0x96 tag .ok (.orders s.order.queue (s.order.session.map fun v =>
            { state := v.state, order := v.order, card := v.card, cause := v.cause, idleLeft := v.idleDeadline.map (· - s.now),
              docks := v.docks, awaiting := v.awaiting, windows := v.windows }))] }
        inFlight := s.inFlight.erase (.orderList tag []) }
    ∧ ∀ t : TerminalId, exec (.terminalGet tag [byteOf (Code.terminal t)]) s = .next
      { s with
        host := { s.host with
          outgoing := s.host.outgoing ++ [.reply 0x9A tag .ok (.terminal
            { line := (s.terminal t).line, badCount := (s.terminal t).badCount, power := (s.terminal t).power,
              state := (s.terminal t).session.state, card := (s.terminal t).session.card, cls := (s.terminal t).session.cls,
              claimDock := (s.terminal t).session.claimDock, reallocated := (s.terminal t).session.reallocated })] }
        inFlight := s.inFlight.erase (.terminalGet tag [byteOf (Code.terminal t)]) }

/-- R181, R182: SERVICE_START moves a CONFIGURING station to SERVING and is refused WRONG_STATE in SERVING; SERVICE_STOP is
refused BUSY while a claim or a van session exists, else moves it back, and is refused WRONG_STATE in CONFIGURING. Each change
is told to the Dock Controller. -/
def Obligations.ServiceStartsAndStops : Prop :=
  ∀ (s : State) (tag : Byte), s.ready →
    (s.store.station = .configuring → exec (.serviceStart tag []) s = .next
      { s with
        store := { s.store with station := .serving }
        host := { s.host with outgoing := s.host.outgoing ++ [.reply 0x87 tag .ok .nothing] }
        inFlight := s.inFlight.erase (.serviceStart tag []) ++ [.dockCapChange (.station .serving)] })
    ∧ (s.store.station = .serving → exec (.serviceStart tag []) s = .next
      { s with
        host := { s.host with outgoing := s.host.outgoing ++ [.reply 0x87 tag .wrongState .nothing] }
        inFlight := s.inFlight.erase (.serviceStart tag []) })
    ∧ (s.store.station = .serving → s.release.claims = [] → s.order.session = none → exec (.serviceStop tag []) s = .next
      { s with
        store := { s.store with station := .configuring }
        host := { s.host with outgoing := s.host.outgoing ++ [.reply 0x88 tag .ok .nothing] }
        inFlight := s.inFlight.erase (.serviceStop tag []) ++ [.dockCapChange (.station .configuring)] })
    ∧ (s.store.station = .serving → s.release.claims ≠ [] ∨ s.order.session.isSome = true →
      exec (.serviceStop tag []) s = .next
        { s with
          host := { s.host with outgoing := s.host.outgoing ++ [.reply 0x88 tag .busy .nothing] }
          inFlight := s.inFlight.erase (.serviceStop tag []) })
    ∧ (s.store.station = .configuring → exec (.serviceStop tag []) s = .next
      { s with
        host := { s.host with outgoing := s.host.outgoing ++ [.reply 0x88 tag .wrongState .nothing] }
        inFlight := s.inFlight.erase (.serviceStop tag []) })

/-- R184: a valid LAYOUT_SET, taken in CONFIGURING with an empty journal, puts its layout in force with cold dock records,
empties the collections and keeps the counters; it is refused WRONG_STATE in SERVING, and NOT_DRAINED while an entry is held. -/
def Obligations.LayoutSetRebuilds : Prop :=
  ∀ (s : State) (tag : Byte) (body : List Byte) (l : Layout), s.ready → Operands.layoutSet body = .ok l →
    (s.store.station = .configuring → s.journal.entries = [] → ∃ t, exec (.layoutSet tag body) s = .next t
      ∧ t.store = { s.store with layout := l }
      ∧ t.dock.table = List.replicate l.dockCount {} ∧ t.dock.insertionCounter = s.dock.insertionCounter
      ∧ t.card.table = [] ∧ t.card.installCounter = s.card.installCounter ∧ t.card.queries = [] ∧ t.card.nextTag = 1
      ∧ t.release.claims = [] ∧ t.release.grace = [] ∧ t.order.queue = [] ∧ t.fault.table = [] ∧ t.fault.lost = s.fault.lost
      ∧ t.journal.entries = [] ∧ t.journal.withheld = [] ∧ t.slack = (l.faultBase - l.journalBase : Nat)
      ∧ Answered t 0x06 tag .ok .nothing
      ∧ Only [.host, .inFlight, .dock, .card, .release, .journal, .order, .fault, .store] s t)
    ∧ (s.store.station = .serving → exec (.layoutSet tag body) s = .next
      { s with
        host := { s.host with outgoing := s.host.outgoing ++ [.reply 0x86 tag .wrongState .nothing] }
        inFlight := s.inFlight.erase (.layoutSet tag body) })
    ∧ (s.store.station = .configuring → s.journal.entries ≠ [] → exec (.layoutSet tag body) s = .next
      { s with
        host := { s.host with outgoing := s.host.outgoing ++ [.reply 0x86 tag .notDrained .nothing] }
        inFlight := s.inFlight.erase (.layoutSet tag body) })

/-! ### Resets and the supply -/

/-- R177, R176, R173, R174, R178: RESET is answered and stops the part; the reset line held low darkens a part that
runs or is stopping, and elsewhere only its level is kept, which is the model's choice, as is that a release outside
the hold only raises the level (log 20). After the last frame supply shutdown becomes supply reset. The pins' fall
stops the part altogether, and leaves the check word behind only in the middle of an act, of which nothing else is
left, which is the model's choice (log 13); a backup cell that fails while the supply is down makes the store invalid.
-/
def Obligations.PartIsStopped : Prop :=
  (∀ (s : State) (tag : Byte),
     (s.ready → exec (.reset tag []) s = .next
       { s with
         phase := .resetAsked
         inFlight := []
         dock := { s.dock with poll := none }
         host := { s.host with
           rx := []
           waiting := []
           outgoing := s.host.outgoing ++ [.reply 0x84 tag .ok .nothing] } })
     ∧ (s.phase ∈ [Phase.running, .resetAsked, .shutdown] → exec .resetLineLow s = .next
       { s with
         phase := .lineLow
         resetLow := true
         inFlight := []
         dock := { s.dock with poll := none }
         host := { s.host with rx := [], waiting := [], outgoing := [], requestOpen := false }
         term := ⟨{ s.term.t0 with power := false }, { s.term.t1 with power := false }, { s.term.t2 with power := false },
           { s.term.t3 with power := false }⟩ })
     ∧ (s.phase ∈ [Phase.supplyReset, .lineLow, .pinsDown] → exec .resetLineLow s = .next { s with resetLow := true })
     ∧ (s.phase ≠ .lineLow → exec .resetLineRelease s = .next { s with resetLow := false }))
  ∧ (∀ (s : State),
     (s.phase = .shutdown → s.host.outgoing = [] → ∃ t, exec .supplyResetEntry s = .next t ∧ t.phase = .supplyReset
       ∧ t.supply = { s.supply with run := none } ∧ t.inFlight = [] ∧ t.host.outgoing = [] ∧ t.term.t0.power = false
       ∧ t.term.t1.power = false ∧ t.term.t2.power = false ∧ t.term.t3.power = false
       ∧ Only [.phase, .host, .inFlight, .dock, .term, .supply] s t)
     ∧ (∀ midAct, s.phase ≠ .pinsDown → ∃ t, exec (.supplyPinsFall midAct) s = .next t ∧ t.phase = .pinsDown
       ∧ t.store = { s.store with checkAgrees := s.store.checkAgrees && !midAct }
       ∧ t.inFlight = [] ∧ t.host.outgoing = [] ∧ Only [.phase, .host, .inFlight, .dock, .term, .store] s t)
     ∧ (∀ midAct, s.phase = .pinsDown → exec (.supplyPinsFall midAct) s = .next
         { s with store := { s.store with checkAgrees := s.store.checkAgrees && !midAct } })
     ∧ (s.phase ∈ [Phase.pinsDown, .supplyReset] → exec .backupCellFailure s = .next
         { s with store := { s.store with checkAgrees := false } })
     ∧ (s.phase ∉ [Phase.pinsDown, .supplyReset] → exec .backupCellFailure s = .next s))

/-- R175, R178, R179, R180, R2, R71, R95, R96, R130, R153: with a valid store a reset is a warm start. The retained
state of the store, the cards, the journal, the orders, the faults and the docks stands, but for these: a van session
is closed with its ORDER_CLOSED entry of outcome RESTART and its order leaves the queue; LINE_FAILED is resolved;
RESERVED claims and the grace list are gone and every booked claim is ORPHAN; every dock is STALE, and a slot
commanded OPEN stays so while it is wanted OPEN. The links and the supply start afresh, the timebase at 0, which is
the model's choice (log 20). With a store check word that does not agree it is a cold start; a power-up then has cause
COLD. With the reset line low the reset ends held in reset (R176), which is the model's choice for the resets that
R176 does not name (log 20). -/
def Obligations.RestartIsWarmOrCold : Prop :=
  (∀ (s : State), ∀ x ∈ resets, s.phase = x.2.1 → s.host.outgoing = [] → s.store.checkAgrees = true →
     x.1 = .resetLineRelease ∨ s.resetLow = false →
     ∃ t, exec x.1 s = .next t ∧ t.phase = .running ∧ t.now = 0 ∧ t.inFlight = [] ∧ t.store.resetCause = x.2.2
       ∧ t.store.warm = true
       ∧ t.store.station = s.store.station ∧ t.store.layout = s.store.layout ∧ t.store.live = s.store.live
       ∧ t.store.pendingSet = s.store.pendingSet ∧ t.store.clock = 0 ∧ t.store.clockUnset = true
       ∧ t.supply = { power := .battery, decided := false, debounced := none, run := none, level := none }
       ∧ t.card.table = s.card.table ∧ t.card.installCounter = s.card.installCounter ∧ t.card.queries = [] ∧ t.card.nextTag = 1
       ∧ t.release.claims = (s.release.claims.filter fun c => c.state.booked).map (fun c =>
           { c with state := .orphan, orphanCause := some .reset, deadline := none, owner := .nobody })
       ∧ t.release.requests = [] ∧ t.release.grace = [] ∧ t.fault.lost = 0
       ∧ t.fault.table = (s.fault.table.filter fun y => !(lineFault y && y.report == .acked)).map (fun y =>
           if lineFault y = true then { y with condition := .resolved } else y)
       ∧ t.order.session = none
       ∧ (∀ v o, s.order.session = some v → s.orderOf v.order = some o →
           (∃ e, t.journal.entries = s.journal.entries ++ [e] ∧ e.kind = .orderClosed ∧ e.seq = s.store.nextSeq
             ∧ e.reference = some (v.order.setWidth 32) ∧ e.outcome = some .restart ∧ e.done = some o.done
             ∧ e.quantity = some o.quantity)
           ∧ t.store.nextSeq = (if s.store.nextSeq = 0xFFFFFFFF then 1 else s.store.nextSeq + 1)
           ∧ t.order.queue = s.order.queue.filter (fun y => y.id != v.order))
       ∧ (s.order.session = none → t.journal.entries = s.journal.entries ∧ t.store.nextSeq = s.store.nextSeq
           ∧ t.order.queue = s.order.queue)
       ∧ t.dock.insertionCounter = s.dock.insertionCounter
       ∧ t.dock.table.map (fun r => ((r.link, r.command, r.checkPending), (r.occupancy, r.bike, r.dockHolds, r.bikeHolds),
             (r.acknowledged, r.baseline, r.hostSetting, r.insertionOrder), (r.returnEntry, r.unrecorded, r.lock, r.battery),
             r.lastTap, r.lastSense))
           = s.dock.table.map (fun r => ((.stale, .none, false), (r.occupancy, r.bike, r.dockHolds, r.bikeHolds),
             (r.acknowledged, r.baseline, r.hostSetting, r.insertionOrder), (r.returnEntry, r.unrecorded, r.lock, r.battery),
             r.lastTap, r.lastSense))
       ∧ (∀ (d : DockNo) (r r' : DockRecord) (wanted : Bool), s.dock? d = some r → t.dock? d = some r' →
           wanted = (decide (s.store.station = .serving) && decide (levelByTable t.dock.caps r ≠ .closed)
             && (decide (r.occupancy = .empty) || t.bookedAt d)) →
           (wanted = false → r'.commanded = .shut ∧ r'.withheld = false)
           ∧ (wanted = true → r.commanded = .opened → r'.commanded = .opened))
       ∧ t.dock.caps = { station := s.store.station, power := .battery, hostLost := false, action := s.store.live.silenceAction }
       ∧ t.host = { rate := s.straps, deadline := some s.store.live.silenceLimit, noticeSet := 0x0003,
                    outgoing := [.notice (some 0x0003)] }
       ∧ t.term = ⟨{}, {}, {}, {}⟩)
  ∧ (∀ (s : State), ∀ x ∈ resets, s.phase = x.2.1 → s.host.outgoing = [] → s.store.checkAgrees = false →
     x.1 = .resetLineRelease ∨ s.resetLow = false →
     exec x.1 s = .next
       { State.reset with
         pending := s.pending
         straps := s.straps
         host := { State.reset.host with rate := s.straps }
         store := { State.reset.store with resetCause := if x.1 = .powerUp then .cold else x.2.2 } })
  ∧ (∀ (s : State), ∀ x ∈ resets, s.phase = x.2.1 → s.host.outgoing = [] → x.1 ≠ .resetLineRelease → s.resetLow = true →
     ∃ t, exec x.1 s = .next t ∧ t.phase = .lineLow ∧ t.resetLow = true ∧ t.inFlight = [] ∧ t.host.outgoing = []
       ∧ t.store.warm = s.store.checkAgrees
       ∧ t.store.resetCause = (if x.1 = .powerUp ∧ s.store.checkAgrees = false then .cold else x.2.2))

/-- R168 to R174, R188: one sample of a running part advances the timebase and the clock by a second (log 1), takes
the level, and lengthens or restarts the mains run, whose third sample moves the debounced value. The power state is
decided at the first debounced value, and follows the tables of R170 and R171 afterwards: a change is handed on to the
docks, the terminals and, out of RESERVE, an open van session, in an order that is the model's choice (log 7), and a
sample that settles nothing changes nothing else. Below CUTOFF off the mains the part shuts down, at the sample that
decides as well, and its last frame is a NOTICE. In supply reset a sample recovers the supply, with a reset of cause
SUPPLY, or only advances what it reads. The second in which the clock reaches the switch time does not itself switch
the pending set, which is the model's choice (log 40). A sample that begins shutdown drops the work handed on, a
TERMINAL_POWER_SET among it, so the terminals' outputs stay as they are until supply reset, which is the model's
choice (log 49). A recovery with the reset line low ends held in reset, which is the model's choice (log 20). -/
def Obligations.SupplyIsSampled : Prop :=
  (∀ (s : State) (mains : Bool) (level : Byte), s.phase = .running →
     ∃ t run, exec (.supplySample mains level) s = .next t
       ∧ run = (if s.supply.run.any (fun r => r.1 == mains) then min 3 ((s.supply.run.map Prod.snd).getD 0 + 1) else 1)
       ∧ t.supply.run = some (mains, run) ∧ t.supply.level = some level
       ∧ t.supply.debounced = (if run = 3 then some mains else s.supply.debounced)
       ∧ t.now = s.now + 1 ∧ t.store = { s.store with clock := s.store.clock + 1 }
       ∧ t.supply.decided = (s.supply.decided || t.supply.debounced.isSome)
       ∧ t.supply.power = (poweredBy s t.supply.debounced level.toNat).1
       ∧ Only [.phase, .now, .inFlight, .host, .dock, .supply, .store] s t)
  ∧ (∀ (s : State) (mains : Bool) (level : Byte), s.ready →
     ∃ t, exec (.supplySample mains level) s = .next t
       ∧ ((poweredBy s t.supply.debounced level.toNat).2 = false →
           t.phase = .running ∧ HandedOn (.supplySample mains level) s t (powerTold s t.supply.power)
           ∧ (t.supply.power ≠ s.supply.power → NoticeKind.powerChanged.inSet t.host.noticeSet = true
               ∧ Only [.now, .inFlight, .host, .supply, .store] s t)
           ∧ (t.supply.power = s.supply.power → Only [.now, .inFlight, .supply, .store] s t))
       ∧ ((poweredBy s t.supply.debounced level.toNat).2 = true →
           t.phase = .shutdown ∧ NoticeKind.powerChanged.inSet t.host.noticeSet = true ∧ t.dock = { s.dock with poll := none }
           ∧ t.inFlight = [] ∧ t.host.waiting = [] ∧ ∃ content, t.host.outgoing.getLast? = some (.notice content)))
  ∧ (∀ (s : State) (mains : Bool) (level : Byte), s.phase = .supplyReset →
      ∀ run recovered, run = (if s.supply.run.any (fun r => r.1 == mains) then min 3
          ((s.supply.run.map Prod.snd).getD 0 + 1) else 1) →
      recovered = ((mains = true ∧ run = 3) ∨ s.store.live.supplyCutoff + s.store.live.supplyHysteresis ≤ level.toNat) →
      ∃ t, exec (.supplySample mains level) s = .next t
        ∧ (recovered → t.phase = (if s.resetLow = true then .lineLow else .running) ∧ t.store.resetCause = .supply
            ∧ t.store.warm = s.store.checkAgrees)
        ∧ (¬ recovered → t.phase = .supplyReset ∧ t.supply.run = some (mains, run) ∧ t.supply.level = some level
            ∧ t.now = s.now + 1 ∧ t.store = { s.store with clock := s.store.clock + 1 } ∧ Only [.now, .supply, .store] s t))

/-! ### The Dock Controller -/

/-- R3, R4: with no poll in progress, an urgent dock is polled while the urgent run is below 2, the first one after the urgent
position; otherwise the rotation goes on. A poll carries what the dock record holds. -/
def Obligations.PollChoosesItsDock : Prop :=
  ∀ (s : State) (d : DockNo) (r : DockRecord), s.ready → s.dock.poll = none → s.dock.table[d]? = some r →
    (s.dock.urgentRun < 2 → r.urgent = true →
      (∀ e x, s.dock.table[e]? = some x → x.urgent = true →
        urgentKey s.dock.urgentPos s.dockCount d ≤ urgentKey s.dock.urgentPos s.dockCount e) →
      exec .dockPoll s = .next
        { s with
          dock := { s.dock with
            poll := some { dock := d, command := r.command, mode := r.commanded, lamp := r.lamp, result := r.readerResult,
                           superseded := false }
            urgentPos := some d
            urgentRun := s.dock.urgentRun + 1 }
          inFlight := s.inFlight.erase .dockPoll })
    ∧ ((2 ≤ s.dock.urgentRun ∨ ∀ x ∈ s.dock.table, x.urgent = false) → d = s.dock.rotation →
      exec .dockPoll s = .next
        { s with
          dock := { s.dock with
            poll := some { dock := d, command := r.command, mode := r.commanded, lamp := r.lamp, result := r.readerResult,
                           superseded := false }
            rotation := if d + 1 < s.dockCount then d + 1 else 0
            urgentRun := 0 }
          inFlight := s.inFlight.erase .dockPoll })

/-- R6, R8 to R13, R25 to R27, R43: what an answered report leaves in its dock's record, and what it hands on of its
own steps: the reader result of the poll delivered, a tap handed to the Card Unit or answered BUSY, a press in an open
report window, a battery reading, the SENSOR test, and the completion of a join. A reader result that came while the
poll carried an older one stays waiting, which is the model's reading (log 23). The lamp is that of the record as the
report has left it. -/
def Obligations.AnsweredReportIsRecorded : Prop :=
  ∀ (s : State) (d : DockNo) (p : Poll) (r : DockRecord) (b : List Byte) (q : DockReport), s.phase = .running →
    reported s d p r b q →
    ∃ t r', exec (.dockReport b) s = .next t ∧ t.dock.poll = none ∧ t.dock? d = some r' ∧ r'.misses = 0
      ∧ r'.link = (match r.link with
          | .absent => .joining .absent
          | .lost => .joining .lost
          | .stale => .joining .stale
          | .joining _ => .online
          | .silent => .online
          | .online => .online)
      ∧ r'.lock = (if q.poweredUp then .locked else q.lock)
      ∧ r'.acknowledged = (if q.poweredUp then .shut else q.slot)
      ∧ r'.command = (if (r.command = .release ∧ r'.lock = .opened) ∨ (r.command = .relock ∧ r'.lock = .locked) then .none
          else r.command)
      ∧ r'.battery = q.battery
      ∧ r'.lastTap = (match q.tap with
          | none => r.lastTap
          | some card => some ⟨card, s.store.clock, s.store.clockUnset⟩)
      ∧ r'.readerResult = (if q.tap.isSome = true ∧ (r'.link ≠ .online ∨ r.checkPending = true) then some (.deny .busy)
          else if p.result.isSome = true ∧ p.superseded = false then none else r.readerResult)
      ∧ r'.checkPending = (r.checkPending || (q.tap.isSome && decide (r'.link = .online)))
      ∧ (∀ card, q.tap = some card → r'.link = .online → r.checkPending = false → .cardCheck card (.reader d) ∈ t.inFlight)
      ∧ (∀ k w, r'.bike = some k → r'.reportWindow = some w → 0 < q.presses →
          .faultRaise (.bike k.id) .riderReport (some d) .nothing ∈ t.inFlight)
      ∧ (∀ k n, r'.bike = some k → q.battery = some n →
          (n < s.store.live.batteryLow → r.bikeHolds.batteryLow = false →
            .faultRaise (.bike k.id) .batteryLow (some d) .nothing ∈ t.inFlight)
          ∧ (s.store.live.batteryLow + 10 ≤ n → r.bikeHolds.batteryLow = true →
            .faultResolution (.bike k.id) .batteryLow (some d) ∈ t.inFlight))
      ∧ (r.dockHolds.sensor = false → r'.saturation = 3 ∨ (∃ n, r'.baseline = some n ∧ (n < 100 ∨ 3000 < n)) →
          .faultRaise (.dock d) .sensor (some d) .nothing ∈ t.inFlight)
      ∧ (∀ origin, r.link = .joining origin → .faultResolution (.dock d) .linkLoss none ∈ t.inFlight
          ∧ .orphanReconcile d r'.occupancy r'.lock ∈ t.inFlight)
      ∧ r'.lamp = lampByTable s.dock.caps (s.claimOn d) r'
      ∧ OtherDocksSame d s t ∧ Only [.host, .inFlight, .dock] s t

/-- R13, R14, R15, R16: a reading of 4095 raises the saturation count, clears the candidate and moves neither baseline nor
decision. Any other reading clears the count, moves the baseline of an EMPTY dock by a sixteenth of the difference, truncated
toward zero, when it lies below the upper bound, and moves candidate and occupancy by the bounds. -/
def Obligations.PresenceDetectorDecides : Prop :=
  ∀ (s : State) (d : DockNo) (p : Poll) (r : DockRecord) (b : List Byte) (q : DockReport), s.phase = .running →
    reported s d p r b q →
    ∃ (t : State) (r' : DockRecord) (base up low : Nat), exec (.dockReport b) s = .next t ∧ t.dock? d = some r'
        ∧ r'.lastSense = some q.sense
      ∧ base = r.baseline.getD q.emptyRef ∧ up = base + s.store.live.threshold ∧ low = up - s.store.live.hysteresis
      ∧ (q.sense = 4095 → r'.saturation = min 3 (r.saturation + 1) ∧ r'.baseline = some base ∧ r'.candidate = none
          ∧ r'.occupancy = r.occupancy)
      ∧ (q.sense ≠ 4095 → r'.saturation = 0
          ∧ r'.baseline = some (
              if r.occupancy = .empty ∧ q.sense < up then
                (if base ≤ q.sense then base + (q.sense - base) / 16 else base - (base - q.sense) / 16)
              else base)
          ∧ (r'.occupancy, r'.candidate) =
              (match r.occupancy with
                | .empty =>
                  if q.sense < up then (.empty, none)
                  else if r.candidate = some .occupied then (.occupied, none) else (.empty, some .occupied)
                | .occupied =>
                  if low ≤ q.sense then (.occupied, none)
                  else if r.candidate = some .empty then (.empty, none) else (.occupied, some .empty)
                | .unknown =>
                  if up ≤ q.sense then
                    (if r.candidate = some .occupied then (.occupied, none) else (.unknown, some .occupied))
                  else if q.sense < low then
                    (if r.candidate = some .empty then (.empty, none) else (.unknown, some .empty))
                  else (.unknown, none)))

/-- R17 to R24: a confirmed insertion takes an insertion order, and is counted with a return entry pending when the
slot was effectively OPEN, uncounted with SENSOR raised when it was not; the entry is late when the report completes a
join from LOST or STALE. At a dock with a claim the Release Controller is told, with the crew mark a counted insertion
takes; a counted one at a dock with a VAN claim or with a crew window is told to the Order Unit as well (R77, R147). A
confirmed removal clears the bike, identified or not, and tells the Fault Unit and the Journal Unit, and is forced
when no open lock explains it. Each joins the chatter history, and the seventh within 20 s raises CHATTER. A first
decision gives a bike found its insertion order, and nothing pending. A wanted tag identifies the bike, or raises
TAG_CONFLICT when another dock holds it; the third report without it raises TAG_UNREAD. The entry that the insertion
left pending is asked to be written, with the bike or without. -/
def Obligations.InsertionsAndRemovals : Prop :=
  (∀ (s : State) (d : DockNo) (p : Poll) (r : DockRecord) (b : List Byte) (q : DockReport) (history : List Elapsed) (bike : Option Bike),
    s.phase = .running → reported s d p r b q → q.sense ≠ 4095 →
    history = (r.chatter ++ [s.now]).filter (fun x => s.now ≤ x + 20) →
    (r.occupancy = .empty → r.candidate = some .occupied → r.baseline.getD q.emptyRef + s.store.live.threshold ≤ q.sense →
      ∃ t r', exec (.dockReport b) s = .next t ∧ t.dock? d = some r' ∧ r'.insertionOrder = s.dock.insertionCounter
        ∧ t.dock.insertionCounter = s.dock.insertionCounter + 1 ∧ r'.occupancy = .occupied
        ∧ r'.reportWindow = (if s.store.live.reportWindow = 0 then r.reportWindow else some (s.now + s.store.live.reportWindow))
        ∧ r'.chatter = history.drop (history.length - 7)
        ∧ (7 ≤ history.length → .faultRaise (.dock d) .chatter (some d) .nothing ∈ t.inFlight)
        ∧ (r.commanded = .opened ∨ (q.poweredUp = false ∧ q.slot = .opened) →
            r'.unrecorded = false ∧ r'.tagWait = 0 ∧ r'.crewWindow = none
            ∧ r'.returnEntry = some ⟨decide (r.link = .joining .lost ∨ r.link = .joining .stale), r.crewWindow.map (·.order)⟩
            ∧ .journalCountNotice d .inserted ∈ t.inFlight
            ∧ (s.claimOn d ≠ none → .claimInsertion d (r.crewWindow.map (·.order)) ∈ t.inFlight)
            ∧ ((∃ c, s.claimOn d = some c ∧ c.kind = .van) ∨ r.crewWindow ≠ none →
                .crewInsertionNotice d (.inserted (r.crewWindow.map (·.order))) ∈ t.inFlight))
        ∧ (r.commanded = .shut → (q.poweredUp = true ∨ q.slot = .shut) →
            r'.unrecorded = true ∧ r'.crewWindow = r.crewWindow ∧ r'.returnEntry = r.returnEntry
            ∧ .journalCountNotice d (.occupancy .occupied) ∈ t.inFlight
            ∧ (s.claimOn d ≠ none → .claimInsertion d none ∈ t.inFlight)
            ∧ .faultRaise (.dock d) .sensor (some d) .nothing ∈ t.inFlight))
    ∧ (r.occupancy = .occupied → r.candidate = some .empty →
        q.sense < r.baseline.getD q.emptyRef + s.store.live.threshold - s.store.live.hysteresis →
        (r.bike.isSome = true ∨ r.dockHolds.tagUnread = true ∨ r.dockHolds.tagConflict = true → bike = r.bike) →
        (r.bike = none → r.dockHolds.tagUnread = false → r.dockHolds.tagConflict = false →
          bike = q.tag.filter fun k => !(s.dock.table.zipIdx.any fun x => x.2 != d && x.1.bike.any fun y => y.id == k.id)) →
      ∃ t r', exec (.dockReport b) s = .next t ∧ t.dock? d = some r' ∧ r'.occupancy = .empty ∧ r'.bike = none
        ∧ r'.unrecorded = false ∧ r'.tagWait = 0 ∧ r'.reportWindow = none ∧ r'.returnEntry = none
        ∧ r'.insertionOrder = r.insertionOrder
        ∧ r'.chatter = history.drop (history.length - 7)
        ∧ (7 ≤ history.length → .faultRaise (.dock d) .chatter (some d) .nothing ∈ t.inFlight)
        ∧ (∀ e, r.returnEntry = some e →
            .journalEntryWrite (.pendingReturn d (if r.bike.isSome then none else bike.map (·.id)) e.late e.crew) ∈ t.inFlight)
        ∧ .faultRemovalNotice d (bike.map (·.id)) ∈ t.inFlight
        ∧ .journalCountNotice d (.occupancy .empty) ∈ t.inFlight
        ∧ ((∀ c, s.claimOn d = some c → c.state = .reserved ∨ c.state = .releaseSent) →
            .faultRaise (.dock d) .forcedRemoval (some d) .nothing ∈ t.inFlight)
        ∧ (∀ c, s.claimOn d = some c → .claimRemoval d (bike.map (·.id)) ∈ t.inFlight))
    ∧ (r.occupancy = .unknown → r.candidate = some .occupied → r.baseline.getD q.emptyRef + s.store.live.threshold ≤ q.sense →
      ∃ t r', exec (.dockReport b) s = .next t ∧ t.dock? d = some r' ∧ r'.occupancy = .occupied
        ∧ r'.insertionOrder = s.dock.insertionCounter ∧ t.dock.insertionCounter = s.dock.insertionCounter + 1
        ∧ r'.returnEntry = none ∧ r'.unrecorded = false ∧ r'.reportWindow = r.reportWindow ∧ r'.bike = r.bike
        ∧ r'.chatter = r.chatter ∧ r'.crewWindow = r.crewWindow ∧ .journalCountNotice d (.occupancy .occupied) ∈ t.inFlight)
    ∧ (r.occupancy = .unknown → r.candidate = some .empty →
        q.sense < r.baseline.getD q.emptyRef + s.store.live.threshold - s.store.live.hysteresis →
      ∃ t r', exec (.dockReport b) s = .next t ∧ t.dock? d = some r' ∧ r'.occupancy = .empty
        ∧ r'.insertionOrder = r.insertionOrder ∧ t.dock.insertionCounter = s.dock.insertionCounter
        ∧ r'.returnEntry = r.returnEntry ∧ r'.unrecorded = r.unrecorded ∧ r'.reportWindow = r.reportWindow ∧ r'.bike = r.bike
        ∧ r'.chatter = r.chatter ∧ r'.crewWindow = r.crewWindow ∧ .journalCountNotice d (.occupancy .empty) ∈ t.inFlight))
  ∧ ∀ (s : State) (d : DockNo) (p : Poll) (r : DockRecord) (b : List Byte) (q : DockReport), s.phase = .running →
    reported s d p r b q → r.occupancy = .occupied → r.bike = none → r.dockHolds.tagUnread = false →
    r.dockHolds.tagConflict = false →
    (∀ k, q.tag = some k → (∀ e x y, e ≠ d → s.dock? e = some x → x.bike = some y → y.id ≠ k.id) →
      ∃ t r', exec (.dockReport b) s = .next t ∧ t.dock? d = some r' ∧ r'.tagWait = 0 ∧ r'.returnEntry = none
        ∧ (r'.occupancy = .occupied → r'.bike = some k)
        ∧ (∀ e, r.returnEntry = some e → .journalEntryWrite (.pendingReturn d (some k.id) e.late e.crew) ∈ t.inFlight)
        ∧ .bikeArrivalNotice d k.id ∈ t.inFlight ∧ .bikeTakenNotice k.id r.returnEntry.isSome ∈ t.inFlight)
    ∧ (∀ k e x y, q.tag = some k → e ≠ d → s.dock? e = some x → x.bike = some y → y.id = k.id →
      ∃ t r', exec (.dockReport b) s = .next t ∧ t.dock? d = some r' ∧ r'.tagWait = 0 ∧ r'.returnEntry = none ∧ r'.bike = none
        ∧ (∀ e, r.returnEntry = some e → .journalEntryWrite (.pendingReturn d none e.late e.crew) ∈ t.inFlight)
        ∧ .faultRaise (.dock d) .tagConflict (some d) (.tag k.id) ∈ t.inFlight)
    ∧ (q.tag = none → 2 ≤ r.tagWait →
      ∃ t r', exec (.dockReport b) s = .next t ∧ t.dock? d = some r' ∧ r'.tagWait = 0 ∧ r'.returnEntry = none ∧ r'.bike = none
        ∧ (∀ e, r.returnEntry = some e → .journalEntryWrite (.pendingReturn d none e.late e.crew) ∈ t.inFlight)
        ∧ .faultRaise (.dock d) .tagUnread (some d) .nothing ∈ t.inFlight)
    ∧ (q.tag = none → r.tagWait < 2 →
      ∃ t r', exec (.dockReport b) s = .next t ∧ t.dock? d = some r' ∧ r'.bike = none
        ∧ (r'.occupancy = .occupied → r'.tagWait = r.tagWait + 1 ∧ r'.returnEntry = r.returnEntry))

/-- R3, R7: a poll without a good report of its dock is missed. The link state and the miss count move, LINK_LOSS is
raised as the dock becomes LOST, and no other field of the record changes but its lamp, which is that of the record as
it then is (R43). That the raise stands before the placement pass in what is handed on is the model's choice (log 7).
-/
def Obligations.MissedPollIsCounted : Prop :=
  ∀ (s : State) (p : Poll) (r : DockRecord) (b : List Byte), s.phase = .running → s.dock.poll = some p →
    s.dock? p.dock = some r → (∀ q, readReport b = some q → q.dock ≠ p.dock) →
    ∀ c ∈ [Instr.dockPollMissed, .dockReport b], ∃ (t : State) (after : LinkState × Nat)
        (rest : List Instr), exec c s = .next t ∧ t.dock.poll = none
      ∧ after = (match r.link with
          | .absent => (.absent, 0)
          | .joining .absent => (.absent, 0)
          | .joining .lost => (.lost, 3)
          | .joining .stale => (.stale, 1)
          | .online => (.silent, 1)
          | .silent => if r.misses < 2 then (.silent, r.misses + 1) else (.lost, 3)
          | .stale => if r.misses < 2 then (.stale, r.misses + 1) else (.lost, 3)
          | .lost => (.lost, 3))
      ∧ t.dock? p.dock = some { r with
          link := after.1
          misses := after.2
          lamp := lampByTable s.dock.caps (s.claimOn p.dock) { r with link := after.1 } }
      ∧ HandedOn c s t ((if (r.link = .silent ∨ r.link = .stale) ∧ 2 ≤ r.misses then
          [.faultRaise (.dock p.dock) .linkLoss (some p.dock) .nothing] else []) ++ rest)
      ∧ (∀ i ∈ rest, i = .placementPass) ∧ OtherDocksSame p.dock s t ∧ Only [.host, .inFlight, .dock] s t

/-! ### The course of a claim -/

/-- R26, R28, R93, R94: at its deadline a report window, or a crew window, becomes absent, and the dock of the crew window
leaves the session's crew window docks; before it nothing changes. An entry leaves the grace list at its expiry, and when its
bike is taken into a dock record without an entry of its own. -/
def Obligations.WindowsAndGraceRunOut : Prop :=
  (∀ (s : State) (d : DockNo) (r : DockRecord) (at_ : Elapsed), s.ready → s.dock? d = some r →
     (r.reportWindow = some at_ → exec (.reportWindowDeadline d) s = .next
       { s with
         dock := { s.dock with
           table := if at_ ≤ s.now then s.dock.table.set d { r with reportWindow := none } else s.dock.table }
         inFlight := s.inFlight.erase (.reportWindowDeadline d) })
     ∧ (∀ w, r.crewWindow = some w → exec (.crewWindowDeadline d) s = .next
       { s with
         dock := { s.dock with
           table := if w.deadline ≤ s.now then s.dock.table.set d { r with crewWindow := none } else s.dock.table }
         order := if w.deadline ≤ s.now then
             { s.order with session := s.order.session.map fun v => { v with windows := v.windows.filter (· != d) } }
           else s.order
         inFlight := s.inFlight.erase (.crewWindowDeadline d) }))
  ∧ (∀ (s : State) (bike : BikeId), s.ready →
     exec (.graceExpiry bike) s = .next
       { s with
         release := { s.release with grace := s.release.grace.filter fun g => !(g.bike == bike && decide (g.expiry ≤ s.now)) }
         inFlight := s.inFlight.erase (.graceExpiry bike) }
     ∧ exec (.bikeTakenNotice bike false) s = .next
       { s with
         release := { s.release with grace := s.release.grace.filter fun g => g.bike != bike }
         inFlight := s.inFlight.erase (.bikeTakenNotice bike false) }
     ∧ OnlyTaken (.bikeTakenNotice bike true) s)

/-- R78 to R83: what a change of lock state does to the claim of its dock. The order of what one act hands on is the
model's choice (log 7). -/
def Obligations.ClaimsFollowTheLock : Prop :=
  ∀ (s : State) (c : Claim) (lock : LockState) (done : Bool), s.ready → stands s c →
    match c.state, lock with
    | .releaseSent, .opened => MovesClaim (.claimLockChange c.dock lock done) s c
        { c with state := .released, deadline := some (s.now + c.takeWindow) } .none [] (ownerTold c (.released c.takeWindow))
    | .releaseSent, .failed => EndsUntaken (.claimLockChange c.dock lock done) s c .none .failed [jamRaise c]
    | .released, .locked => EndsUntaken (.claimLockChange c.dock lock done) s c .none .lapsed []
    | .relocking, .locked => EndsUntaken (.claimLockChange c.dock lock done) s c .none .lapsed []
    | .relocking, .failed => MovesClaim (.claimLockChange c.dock lock done) s c
        { c with state := .jammedOpen, deadline := none } .none [jamRaise c] []
    | .jammedOpen, .locked => EndsUntaken (.claimLockChange c.dock lock done) s c .none .lapsed []
    | _, _ => OnlyTaken (.claimLockChange c.dock lock done) s

/-- R79 to R83: the three deadlines of a claim, each once it is reached and in its own state of the claim; the
clearing of LOCK_JAM ends a JAMMED_OPEN claim with a RELOCK that outlives it; join completion reconciles an ORPHAN
claim at an OCCUPIED dock, and at no other, where it stays ORPHAN by the model's choice (log 39). The order of what
one act hands on is the model's choice (log 7). -/
def Obligations.ClaimDeadlinesJamsAndOrphans : Prop :=
  (∀ (s : State) (c : Claim) (r : DockRecord) (d : Elapsed), s.ready → stands s c → s.dock? c.dock = some r
      → c.deadline = some d →
     (c.state = .releaseSent → d ≤ s.now →
       EndsUntaken (.releaseDeadline c.dock) s c .relock .failed [jamRaise c])
     ∧ (c.state = .released → d ≤ s.now → r.link ≠ .lost → MovesClaim (.takeWindowDeadline c.dock) s c
         { c with state := .relocking, orphanCause := none, deadline := some (s.now + 5) } .relock [] [])
     ∧ (c.state = .released → d ≤ s.now → r.link = .lost → MovesClaim (.takeWindowDeadline c.dock) s c
         { c with state := .orphan, orphanCause := some .link, deadline := none } r.command []
         (if c.kind = .van then [.vanClaimNotice c.dock (c.order.getD 0) .orphaned] else []))
     ∧ (c.state = .relocking → d ≤ s.now → r.command = .none → r.lock = .locked →
       EndsUntaken (.relockDeadline c.dock) s c .none .lapsed [])
     ∧ (c.state = .relocking → d ≤ s.now → r.command ≠ .none ∨ r.lock ≠ .locked → MovesClaim (.relockDeadline c.dock) s c
         { c with state := .jammedOpen, deadline := none } .none [jamRaise c] [])
     ∧ (s.now < d ∨ c.state ≠ .releaseSent → OnlyTaken (.releaseDeadline c.dock) s)
     ∧ (s.now < d ∨ c.state ≠ .released → OnlyTaken (.takeWindowDeadline c.dock) s)
     ∧ (s.now < d ∨ c.state ≠ .relocking → OnlyTaken (.relockDeadline c.dock) s))
  ∧ (∀ (s : State) (c : Claim) (lock : LockState), s.ready → stands s c →
     (c.state = .jammedOpen → EndsUntaken (.lockJamCleared c.dock) s c .relock .lapsed [])
     ∧ (c.state ≠ .jammedOpen → OnlyTaken (.lockJamCleared c.dock) s)
     ∧ (c.state = .orphan → EndsUntaken (.orphanReconcile c.dock .occupied .locked) s c .none .lapsed [])
     ∧ (c.state = .orphan → lock ≠ .locked → c.kind ≠ .van →
         (∀ h, c.holder = some h → ∀ x ∈ s.release.claims, x.state.releasing = true → x.holder = some h → x.dock = c.dock) →
         MovesClaim (.orphanReconcile c.dock .occupied lock) s c
           { c with state := .relocking, orphanCause := none, deadline := some (s.now + 5) } .relock [] [])
     ∧ (c.state = .orphan → lock ≠ .locked →
         (c.kind = .van ∨ ∃ h, c.holder = some h ∧ ∃ x ∈ s.release.claims, x.state.releasing = true
             ∧ x.holder = some h ∧ x.dock ≠ c.dock) →
         EndsUntaken (.orphanReconcile c.dock .occupied lock) s c .relock .lapsed [])
     ∧ (c.state ≠ .orphan → OnlyTaken (.orphanReconcile c.dock .occupied lock) s)
     ∧ OnlyTaken (.orphanReconcile c.dock .empty lock) s ∧ OnlyTaken (.orphanReconcile c.dock .unknown lock) s)

/-- R84, R116, R92: a removal at an open lock ends the claim TAKEN. The entry is written with the next sequence
number, with LATE_TAKE or RESET_TAKE as the claim's state gives, and, with grace above 0, a MEMBER's hire joins the
grace list, of which the oldest entry leaves first when 64 are held, and an older entry of the bike leaves. R77, R79:
a removal in RESERVED or RELEASE_SENT ends it DROPPED or FAILED. The order of what one act hands on is the model's
choice (log 7). -/
def Obligations.ClaimsEndAtRemoval : Prop :=
  ∀ (s : State) (c : Claim) (bike : Option BikeId), s.ready → stands s c →
    (c.state = .releaseSent → EndsUntaken (.claimRemoval c.dock bike) s c .none .failed [])
    ∧ (c.state = .reserved → exec (.claimRemoval c.dock bike) s = .next
        { s with
          release := { s.release with claims := s.release.claims.filter fun x => x.dock != c.dock }
          inFlight := s.inFlight.erase (.claimRemoval c.dock bike) ++ [.dockClaimNotice c.dock] ++ passDue s
            ++ [.vanClaimNotice c.dock (c.order.getD 0) .droppedByEvent] })
    ∧ (c.state ≠ .reserved → c.state ≠ .releaseSent → ∃ (t : State) (e : Entry), exec (.claimRemoval c.dock bike) s = .next t
        ∧ t.journal.entries = s.journal.entries ++ [e] ∧ e.seq = s.store.nextSeq ∧ e.time = s.store.clock
        ∧ e.unset = s.store.clockUnset
        ∧ e.kind = (match c.kind with | .member => .hireStart | .van => .vanOut | .service => .serviceOut)
        ∧ e.dock = some c.dock ∧ e.bike = bike ∧ e.card = c.holder
        ∧ e.reference = (match c.kind with
            | .member => some (c.tariff.setWidth 32)
            | .van => c.order.map (·.setWidth 32)
            | .service => none)
        ∧ e.flags.offline = c.offline
        ∧ e.flags.lateTake = (c.state == .relocking || c.state == .jammedOpen || c.state == .orphan && c.orphanCause != some .reset)
        ∧ e.flags.resetTake = (c.state == .orphan && c.orphanCause == some .reset)
        ∧ t.store.nextSeq = (if s.store.nextSeq = 0xFFFFFFFF then 1 else s.store.nextSeq + 1)
        ∧ t.release.claims = s.release.claims.filter (fun x => x.dock != c.dock)
        ∧ (∀ r', t.dock? c.dock = some r' → r'.command = .none)
        ∧ (∀ b h, c.kind = .member → bike = some b → c.holder = some h → s.store.live.grace ≠ 0 →
            t.release.grace =
              ((if 64 ≤ s.release.grace.length then s.release.grace.drop 1 else s.release.grace).filter fun g => g.bike != b)
                ++ [{ bike := b, card := h, start := s.store.nextSeq, offline := c.offline, expiry := s.now + s.store.live.grace }])
        ∧ (c.kind ≠ .member ∨ bike = none ∨ s.store.live.grace = 0 → t.release.grace = s.release.grace)
        ∧ (c.kind = .van → .vanClaimNotice c.dock (c.order.getD 0) .taken ∈ t.inFlight)
        ∧ (∀ i ∈ ownerTold c .taken, i ∈ t.inFlight)
        ∧ Only [.host, .inFlight, .dock, .release, .journal, .store] s t)

/-! ### Requests, grants, reservations -/

/-- R73, R74: a request that passes the tests holds its dock and holder and asks for the booking; one that fails is
refused with the first reason, told to its reader, and changes nothing else. That a dock held by another request is
refused CLAIMED at the place of that test, after DOCK_LIMIT for the link and RESERVED, is the model's choice (log 18).
-/
def Obligations.ClaimTestsInOrder : Prop :=
  ∀ (s : State) (d : DockNo) (r : DockRecord) (kind : ClaimKind) (holder : CardId) (origin : CardOrigin), s.ready →
    s.dock? d = some r → kind ≠ .van → s.claimsKept →
      (refusal s s.release.requests d r kind holder = none → exec (.claimRequest d kind holder origin (.reader d)) s = .next
        { s with
          release := { s.release with
            requests := s.release.requests
              ++ [{ dock := d, kind := kind, holder := holder, origin := origin, owner := .reader d, order := none }] }
          inFlight := s.inFlight.erase (.claimRequest d kind holder origin (.reader d)) ++ [.bookingRequest d] })
      ∧ (∀ why, refusal s s.release.requests d r kind holder = some why →
          ∃ t, exec (.claimRequest d kind holder origin (.reader d)) s = .next t
          ∧ t.dock? d = some { r with checkPending := false, readerResult := some (.deny why) }
          ∧ HandedOn (.claimRequest d kind holder origin (.reader d)) s t [] ∧ OtherDocksSame d s t
          ∧ Only [.inFlight, .dock] s t)

/-- R89, R90: the allocator takes, among the eligible docks but the excluded one, the one whose bike has stood longest, the lower
number first, and holds it for the terminal; with none eligible the session is refused NO_BIKE, and an arrival that waited on its
line for the answer is taken after it in the same act (R108; log 11). -/
def Obligations.AllocatorTakesTheLongestStanding : Prop :=
  ∀ (s : State) (x : TerminalId) (cls : BikeClass) (holder : CardId) (origin : CardOrigin) (exclude : Option DockNo), s.ready →
    (∀ d r, s.dock? d = some r → exclude ≠ some d → s.hireable cls d = true →
      (∀ e r', s.dock? e = some r' → exclude ≠ some e → s.hireable cls e = true →
        (s.dock.insertionCounter - r'.insertionOrder).toNat < (s.dock.insertionCounter - r.insertionOrder).toNat
        ∨ ((s.dock.insertionCounter - r'.insertionOrder).toNat = (s.dock.insertionCounter - r.insertionOrder).toNat ∧ d ≤ e)) →
      (∀ c ∈ s.release.claims, c.state.releasing = true → c.holder ≠ some holder) →
      (∀ q ∈ s.release.requests, q.holder ≠ holder) →
      exec (.allocation x cls holder origin exclude) s = .next
        { s with
          release := { s.release with
            requests := s.release.requests
              ++ [{ dock := d, kind := .member, holder := holder, origin := origin, owner := .terminal x, order := none }] }
          inFlight := s.inFlight.erase (.allocation x cls holder origin exclude) ++ [.bookingRequest d] })
    ∧ ((∀ d r, s.dock? d = some r → exclude ≠ some d → s.hireable cls d = false) →
        (s.terminal x).session.allocating = true → (s.terminal x).session.reallocated = false → (s.terminal x).line = .up →
        ((s.terminal x).deferred = [] →
          exec (.allocation x cls holder origin exclude) s = .next
            (withTerminal { s with inFlight := s.inFlight.erase (.allocation x cls holder origin exclude) } x fun z =>
              { z with session := { attempt := z.session.attempt }, out := z.out ++ [.refuse .noBike] }))
        ∧ (∀ card, (s.terminal x).deferred = [.tap card] → card ≠ 0 →
          exec (.allocation x cls holder origin exclude) s = .next
            (withTerminal { s with inFlight := s.inFlight.erase (.allocation x cls holder origin exclude)
                ++ [.cardCheck card (.terminal x ((s.terminal x).session.attempt + 1))] } x fun z =>
              { z with
                badCount := 0
                deferred := []
                session := { state := .checking, card := some card, attempt := z.session.attempt + 1 }
                out := z.out ++ [.refuse .noBike, .show .wait] })))

/-- R74: the answers of the booking and the charge. A grant puts the claim in RELEASE_SENT with the values captured
and RELEASE pending, and tells its dock reader ALLOW, or offers it at its terminal (R108); a refusal tells the reason
and gives back what was booked and charged. Of the tests made again OUT_OF_SERVICE comes before those of R73, the
model's choice (log 18). A VAN release takes its reservation's place, and is refused CLAIMED when that has gone (R76),
before any other reason by the model's choice (log 18). The order of what one act hands on is the model's choice (log
7). -/
def Obligations.GrantsAreAnswered : Prop :=
  ∀ (s : State) (q : ClaimRequest) (r : DockRecord) (x : DockNo), s.ready → s.claimsKept → s.requestOn q.dock = some q
      → s.dock? q.dock = some r →
    (q.owner = .reader x → q.kind ≠ .van →
    ∀ others why, others = s.release.requests.filter (fun y => y.dock != q.dock) →
    why = (if s.store.station ≠ .serving then some .outOfService else refusal s others q.dock r q.kind q.holder) →
    (∀ answer ∈ [GrantAnswer.charged, .free], why = none →
      ∃ t r', exec (.claimGrant q.dock answer) s = .next t
        ∧ t.release.claims = (s.release.claims.filter fun c => c.dock != q.dock)
            ++ [{ dock := q.dock, kind := q.kind, state := .releaseSent, holder := some q.holder, owner := .reader x,
                  order := q.order, orphanCause := none, takeWindow := s.store.live.takeWindow, tariff := s.store.live.tariff,
                  offline := answer == .charged, deadline := some (s.now + 5) }]
        ∧ t.release.requests = others ∧ t.dock? q.dock = some r' ∧ r'.command = .release
        ∧ (∀ y, t.dock? x = some y → y.readerResult = some .allow ∧ y.checkPending = false)
        ∧ HandedOn (.claimGrant q.dock answer) s t [.dockClaimNotice q.dock, .journalCountNotice q.dock (.booked true)]
        ∧ Only [.inFlight, .dock, .release] s t)
    ∧ (∀ answer reason, (answer = .tight ∧ reason = .tight) ∨ (answer = .credit ∧ reason = .credit)
          ∨ (answer ∈ [GrantAnswer.charged, .free] ∧ why = some reason) →
      ∃ t, exec (.claimGrant q.dock answer) s = .next t ∧ t.release = { s.release with requests := others }
        ∧ (∀ y, t.dock? x = some y → y.readerResult = some (.deny reason) ∧ y.checkPending = false)
        ∧ HandedOn (.claimGrant q.dock answer) s t
            (match answer with
              | .tight => []
              | .credit => [.bookingGivenBack q.dock]
              | .charged => [.bookingGivenBack q.dock, .refund q.holder]
              | .free => [.bookingGivenBack q.dock])
        ∧ Only [.inFlight, .dock] { s with release := { s.release with requests := others } } t))
    ∧ (∀ y others why, q.owner = .terminal y → q.kind = .member → (s.terminal y).line = .up →
        (s.terminal y).session.allocating = true → (s.terminal y).deferred = [] →
        others = s.release.requests.filter (fun z => z.dock != q.dock) →
        why = (if s.store.station ≠ .serving then some .outOfService else refusal s others q.dock r q.kind q.holder) →
      (∀ answer ∈ [GrantAnswer.charged, .free], why = none →
        ∃ t r', exec (.claimGrant q.dock answer) s = .next t
          ∧ t.release.claims = (s.release.claims.filter fun c => c.dock != q.dock)
              ++ [{ dock := q.dock, kind := .member, state := .releaseSent, holder := some q.holder, owner := .terminal y,
                    order := q.order, orphanCause := none, takeWindow := s.store.live.takeWindow, tariff := s.store.live.tariff,
                    offline := answer == .charged, deadline := some (s.now + 5) }]
          ∧ t.release.requests = others ∧ t.dock? q.dock = some r' ∧ r'.command = .release
          ∧ t.term = s.term.set y { s.terminal y with
              session := { (s.terminal y).session with
                state := .offered, claimDock := some q.dock, deadline := some (s.now + 10 + s.store.live.terminalIdle)
                allocating := false }
              out := (s.terminal y).out ++ [.offer q.dock s.store.live.takeWindow] }
          ∧ HandedOn (.claimGrant q.dock answer) s t [.dockClaimNotice q.dock, .journalCountNotice q.dock (.booked true)]
          ∧ OtherDocksSame q.dock s t ∧ Only [.inFlight, .dock, .release, .term] s t)
      ∧ (∀ answer reason, (answer = .tight ∧ reason = .tight) ∨ (answer = .credit ∧ reason = .credit)
            ∨ (answer ∈ [GrantAnswer.charged, .free] ∧ why = some reason) →
        exec (.claimGrant q.dock answer) s = .next
          (withTerminal { s with
            release := { s.release with requests := others }
            inFlight := s.inFlight.erase (.claimGrant q.dock answer)
              ++ (match answer with
                | .tight => []
                | .credit => [.bookingGivenBack q.dock]
                | .charged => [.bookingGivenBack q.dock, .refund q.holder]
                | .free => [.bookingGivenBack q.dock]) } y fun z =>
            { z with session := { attempt := z.session.attempt }
                     out := z.out ++ [.refuse (if z.session.reallocated then .jammed else reason)] })))
    ∧ (∀ v o, q.kind = .van → q.order = some o → q.owner = .order o → s.order.session = some v → v.order = o → v.state = .opened →
      (∀ c answer, answer ∈ [GrantAnswer.charged, .free] → s.claimOn q.dock = some c → c.kind = .van → c.state = .reserved →
        c.order = some o → s.store.station = .serving →
        (∀ y ∈ s.release.claims, y.state.releasing = true → y.holder ≠ some q.holder) →
        (∀ y ∈ s.release.requests, y.dock ≠ q.dock → y.holder ≠ q.holder) →
        r.link = .online → r.occupancy = .occupied → r.lock = .locked → s.level q.dock ≠ .closed →
        ∃ t r', exec (.claimGrant q.dock answer) s = .next t
          ∧ t.release.claims = (s.release.claims.filter fun c => c.dock != q.dock)
              ++ [{ dock := q.dock, kind := .van, state := .releaseSent, holder := some q.holder, owner := .order o,
                    order := some o, orphanCause := none, takeWindow := s.store.live.takeWindow, tariff := s.store.live.tariff,
                    offline := answer == .charged, deadline := some (s.now + 5) }]
          ∧ t.order.session = some { v with docks := v.docks.map fun p => if p.1 = q.dock then (q.dock, .booked) else p }
          ∧ t.dock? q.dock = some r' ∧ r'.command = .release ∧ r'.readerResult = some .allow ∧ r'.checkPending = false
          ∧ HandedOn (.claimGrant q.dock answer) s t [.dockClaimNotice q.dock, .journalCountNotice q.dock (.booked true)]
          ∧ OtherDocksSame q.dock s t ∧ Only [.inFlight, .dock, .release, .order] s t)
      ∧ ((∀ c, s.claimOn q.dock = some c → ¬ (c.kind = .van ∧ c.state = .reserved ∧ c.order = some o)) →
        ∃ t, exec (.claimGrant q.dock .free) s = .next t ∧ t.dock? q.dock = some (decidedAt r (.deny .claimed))
          ∧ HandedOn (.claimGrant q.dock .free) s t [.bookingGivenBack q.dock]
          ∧ OtherDocksSame q.dock s t ∧ Only [.inFlight, .dock, .release] s t))

/-- R75, R76, R77, R86: a reservation is placed for the session of its order on a dock free of claims and above
CLOSED, and not otherwise, nor at a dock that a request holds, which is the model's reading (log 10); it is dropped at
request, the session OPEN or CLOSING, and by an insertion; its release is tested and asks for the booking, or is
refused, CLAIMED at a dock that carries another claim. An order that no session works is refused NO_ORDER (log 10).
The take window and the tariff id of a RESERVED claim are 0, the model's choice (log 48). The order of what one act
hands on is the model's choice (log 7). -/
def Obligations.ReservationsComeAndGo : Prop :=
  ∀ (s : State) (d : DockNo) (r : DockRecord) (v : VanSession), s.ready → s.dock? d = some r → s.order.session = some v →
    (s.claimOn d = none → s.requestOn d = none → s.level d ≠ .closed →
      exec (.reservationRequest d v.order) s = .next
        { s with
          release := { s.release with claims := s.release.claims ++ [reservation d v.order] }
          order := { s.order with session := some { v with docks := v.docks.filter (fun p => p.1 != d) ++ [(d, .reserved)] } }
          inFlight := s.inFlight.erase (.reservationRequest d v.order) ++ [.dockClaimNotice d] })
    ∧ (s.claimOn d ≠ none ∨ s.requestOn d ≠ none ∨ s.level d = .closed → OnlyTaken (.reservationRequest d v.order) s)
    ∧ (∀ o, o ≠ v.order → OnlyTaken (.reservationRequest d o) s)
    ∧ (∀ c crew, stands s c → c.dock = d → c.state = .reserved →
        exec (.reservationDrop d) s = .next
          { s with
            release := { s.release with claims := s.release.claims.filter fun x => x.dock != d }
            inFlight := s.inFlight.erase (.reservationDrop d)
              ++ [.dockClaimNotice d] ++ passDue s ++ [.vanClaimNotice d (c.order.getD 0) .droppedAtRequest] }
        ∧ exec (.claimInsertion d crew) s = .next
          { s with
            release := { s.release with claims := s.release.claims.filter fun x => x.dock != d }
            inFlight := s.inFlight.erase (.claimInsertion d crew)
              ++ [.dockClaimNotice d] ++ passDue s ++ [.crewInsertionNotice d (.dropped crew)] })
    ∧ (∀ c crew, stands s c → c.dock = d → c.state ≠ .reserved →
        OnlyTaken (.reservationDrop d) s ∧ OnlyTaken (.claimInsertion d crew) s)
    ∧ (∀ c card, stands s c → c.dock = d → c.kind = .van → c.state = .reserved → c.order = some v.order → s.requestOn d = none →
        r.link = .online → r.occupancy = .occupied → r.lock = .locked → s.level d ≠ .closed →
        (∀ x ∈ s.release.claims, x.state.releasing = true → x.holder ≠ some card) → (∀ q ∈ s.release.requests, q.holder ≠ card) →
        exec (.vanReleaseRequest d v.order card) s = .next
          { s with
            release := { s.release with
              requests := s.release.requests
                ++ [{ dock := d, kind := .van, holder := card, origin := .host, owner := .order v.order, order := some v.order }] }
            inFlight := s.inFlight.erase (.vanReleaseRequest d v.order card) ++ [.bookingRequest d] })
    ∧ (∀ c card, stands s c → c.dock = d → c.kind = .van → c.state = .reserved → c.order = some v.order → s.requestOn d = none →
        v.state = .opened → r.link = .online → r.occupancy ≠ .occupied →
        (∀ x ∈ s.release.claims, x.state.releasing = true → x.holder ≠ some card) → (∀ q ∈ s.release.requests, q.holder ≠ card) →
        exec (.vanReleaseRequest d v.order card) s = .next
          { s with
            dock := { s.dock with
              table := s.dock.table.set d (decidedAt r (.deny .noBike))
              poll := s.dock.poll.map fun p => if p.dock = d then { p with superseded := true } else p }
            inFlight := s.inFlight.erase (.vanReleaseRequest d v.order card) })
    ∧ (∀ c card, stands s c → c.dock = d → c.kind ≠ .van ∨ c.state ≠ .reserved →
        exec (.vanReleaseRequest d v.order card) s = .next
          { s with
            dock := { s.dock with
              table := s.dock.table.set d (decidedAt r (.deny .claimed))
              poll := s.dock.poll.map fun p => if p.dock = d then { p with superseded := true } else p }
            inFlight := s.inFlight.erase (.vanReleaseRequest d v.order card) ++ passDue s })

/-! ### Cards -/

/-- R48, R49: CARD_PUT replaces a record of its card, takes a free slot, or is refused TABLE_FULL; CARD_DROP removes
one. That CARD_DROP of card id 0 is answered NOT_FOUND is the model's choice (log 51). -/
def Obligations.CardsArePutAndDropped : Prop :=
  ∀ (s : State) (tag : Byte), s.ready →
    (∀ body r, Operands.cardPut body = .ok r →
      exec (.cardPut tag body) s = .next
        { s with
          card := if (∃ x ∈ s.card.table, x.card = r.card) ∨ s.card.table.length < s.store.layout.journalBase then
              installed s { r with origin := .host } else s.card
          host := { s.host with outgoing := s.host.outgoing
            ++ [.reply 0x8E tag (if ∃ x ∈ s.card.table, x.card = r.card then .replaced
                else if s.card.table.length < s.store.layout.journalBase then .ok else .tableFull) .nothing] }
          inFlight := s.inFlight.erase (.cardPut tag body) })
    ∧ ∀ card, exec (.cardDrop tag (bytesWord card)) s = .next
        { s with
          card := { s.card with table := s.card.table.filter fun x => x.card != card }
          host := { s.host with outgoing := s.host.outgoing
            ++ [.reply 0x90 tag (if ∃ x ∈ s.card.table, x.card = card then .ok else .notFound) .nothing] }
          inFlight := s.inFlight.erase (.cardDrop tag (bytesWord card)) }

/-- R51 to R58: the check of a card that the table holds, at a dock reader and at a terminal. The first step that
fails denies; a tap that passes is handed on by its role. At a terminal a SERVICE card is refused ROLE, the rights are
not tested, a CREW card is not tested for a claim it holds, and the result goes to the session as an arrival (R105).
-/
def Obligations.CardCheckAtTheDock : Prop :=
  (∀ (s : State) (d : DockNo) (x : DockRecord) (card : CardId) (r : CardRecord), s.ready → s.dock? d = some x →
    s.cardRecord card = some r →
    (∀ why, tapRefusal s x r = some why →
      ∃ t, exec (.cardCheck card (.reader d)) s = .next t ∧ t.dock? d = some (decidedAt x (.deny why))
        ∧ HandedOn (.cardCheck card (.reader d)) s t [] ∧ OtherDocksSame d s t ∧ Only [.inFlight, .dock] s t)
    ∧ (tapRefusal s x r = none → exec (.cardCheck card (.reader d)) s = .next
        { s with inFlight := s.inFlight.erase (.cardCheck card (.reader d)) ++ [tapHandedOn d x r] }))
  ∧ ∀ (s : State) (x : TerminalId) (attempt : Nat) (card : CardId) (r : CardRecord), s.ready → s.cardRecord card = some r →
      exec (.cardCheck card (.terminal x attempt)) s = .next
        { s with inFlight := s.inFlight.erase (.cardCheck card (.terminal x attempt)) ++ [terminalHandedOn s x attempt r] }

/-- R52, R62, R63, R65: a card without a record, tapped at a dock reader or at a terminal. With the link UP it becomes
a query, under the first tag from the next tag on that no query holds, wrapping from 255 to 1, or joins the query
there is for it; with the link LOST, or the list full, the unknown-card rule denies it, or admits a card that is no
pass provisionally, in a free slot or in that of the oldest expired record (a tie is broken by the model's choice, log
37). With the table full and no record expired it is denied UNKNOWN, and CARD_TABLE_FULL joins. The record stays when
a later step denies the tap, which is the model's choice (log 43). -/
def Obligations.UnknownCardsAreAsked : Prop :=
  ∀ (s : State) (card : CardId), s.ready → s.cardRecord card = none → s.store.station = .serving →
    (∀ p : Place, s.host.lost = false → s.card.queries.length < 8 → (∀ q ∈ s.card.queries, q.card ≠ card) →
      ∃ (k : Nat) (tag : Byte), tag = (fun g : Byte => if g = 255 then 1 else g + 1)^[k] s.card.nextTag
        ∧ (∀ q ∈ s.card.queries, q.tag ≠ tag)
        ∧ (∀ j < k, ∃ q ∈ s.card.queries, q.tag = (fun g : Byte => if g = 255 then 1 else g + 1)^[j] s.card.nextTag)
        ∧ exec (.cardCheck card p) s = .next
        { s with
          card := { s.card with
            queries := s.card.queries
              ++ [{ tag := tag, card := card, waiters := [p], deadline := s.now + s.store.live.authWait }]
            nextTag := if tag = 255 then 1 else tag + 1 }
          host := { s.host with outgoing := s.host.outgoing ++ [.cardQuery tag card p] }
          inFlight := s.inFlight.erase (.cardCheck card p) })
    ∧ (∀ p : Place, ∀ q ∈ s.card.queries, q.card = card → s.queriesKept → q.waiters.length < 4 →
      exec (.cardCheck card p) s = .next
        { s with
          card := { s.card with
            queries := s.card.queries.map fun y => if y.tag = q.tag then { y with waiters := y.waiters ++ [p] } else y }
          inFlight := s.inFlight.erase (.cardCheck card p) })
    ∧ (∀ why, ((∃ q ∈ s.card.queries, q.card = card) ∧ s.queriesKept
            ∧ (∀ q ∈ s.card.queries, q.card = card → 4 ≤ q.waiters.length) ∧ why = .busy)
          ∨ ((s.host.lost = true ∨ 8 ≤ s.card.queries.length) ∧ (∀ q ∈ s.card.queries, q.card ≠ card)
            ∧ (s.store.live.unknownCard = .deny ∨ card.msb = true) ∧ why = .unknown) →
      (∀ d x, s.dock? d = some x →
        ∃ t, exec (.cardCheck card (.reader d)) s = .next t ∧ t.dock? d = some (decidedAt x (.deny why))
          ∧ HandedOn (.cardCheck card (.reader d)) s t [] ∧ t.card = s.card ∧ OtherDocksSame d s t ∧ Only [.inFlight, .dock] s t)
      ∧ ∀ x attempt, exec (.cardCheck card (.terminal x attempt)) s = .next
          { s with inFlight := s.inFlight.erase (.cardCheck card (.terminal x attempt)) ++ [.checkResultAtSession x attempt (.deny why)] })
    ∧ (s.host.lost = true ∨ 8 ≤ s.card.queries.length → (∀ q ∈ s.card.queries, q.card ≠ card) →
        s.store.live.unknownCard = .provisional → card.msb = false →
      (∀ u, Placed s (admitted card) (expiredCards s) u →
        (∀ d x, s.dock? d = some x →
          (tapRefusal s x (admitted card) = none → exec (.cardCheck card (.reader d)) s = .next
            { s with card := u, inFlight := s.inFlight.erase (.cardCheck card (.reader d)) ++ [tapHandedOn d x (admitted card)] })
          ∧ ∀ why, tapRefusal s x (admitted card) = some why →
            ∃ t, exec (.cardCheck card (.reader d)) s = .next t ∧ t.dock? d = some (decidedAt x (.deny why)) ∧ t.card = u
              ∧ HandedOn (.cardCheck card (.reader d)) s t [] ∧ OtherDocksSame d s t ∧ Only [.inFlight, .dock, .card] s t)
        ∧ ∀ x attempt, exec (.cardCheck card (.terminal x attempt)) s = .next
          { s with
            card := u
            inFlight := s.inFlight.erase (.cardCheck card (.terminal x attempt)) ++ [terminalHandedOn s x attempt (admitted card)] })
      ∧ (s.store.layout.journalBase ≤ s.card.table.length → expiredCards s = [] →
        (∀ d x, s.dock? d = some x →
          ∃ t, exec (.cardCheck card (.reader d)) s = .next t ∧ t.dock? d = some (decidedAt x (.deny .unknown))
            ∧ NoticeKind.cardTableFull.inSet t.host.noticeSet = true ∧ HandedOn (.cardCheck card (.reader d)) s t []
            ∧ OtherDocksSame d s t ∧ Only [.host, .inFlight, .dock] s t)
        ∧ ∀ x attempt, ∃ t, exec (.cardCheck card (.terminal x attempt)) s = .next t
          ∧ NoticeKind.cardTableFull.inSet t.host.noticeSet = true
          ∧ HandedOn (.cardCheck card (.terminal x attempt)) s t [.checkResultAtSession x attempt (.deny .unknown)]
          ∧ Only [.host, .inFlight] s t))

/-- R64, R66, R68, R69: a verdict installs its record, or with no room lets it stand for the card once, and ends its
query; after the query a verdict is LATE, and for another card it is refused MISMATCH; one whose fields are refused
has no effect; that a card id 0 is refused BAD_FIELD before the query is looked for is the model's reading (log 31). A
query ends without a verdict at its deadline and when the link is lost. Each waiter at a dock reader is then checked
again, and gets the result of that check; by the unknown-card rule one whose card finds the table full and no record
expired is denied UNKNOWN. That the reply to a verdict stands after a NOTICE that a check made again makes due is the
model's choice (log 7). -/
def Obligations.QueriesEnd : Prop :=
  (∀ (s : State) (tag : Byte) (body : List Byte) (v : Operands.Verdict) (rec : Option CardRecord), s.ready →
    Operands.cardVerdict body = .ok v → v.record = .ok rec → ∀ room,
    room = (∀ r, rec = some r → (∃ x ∈ s.card.table, x.card = r.card) ∨ s.card.table.length < s.store.layout.journalBase) →
    (∀ q ∈ s.card.queries, q.tag = v.queryTag → q.card = v.card → s.queriesKept →
      ∃ t, exec (.cardVerdict tag body) s = .next t ∧ t.card.queries = s.card.queries.filter (fun y => y.tag != q.tag)
        ∧ (∀ r, rec = some r → room → t.card = { installed s r with queries := t.card.queries })
        ∧ (¬ room → t.card = { s.card with queries := t.card.queries } ∧ Answered t 0x11 tag .tableFull .nothing)
        ∧ (room → Answered t 0x11 tag .ok .nothing)
        ∧ (∀ d x, .reader d ∈ q.waiters → s.dock? d = some x →
            (∀ r, rec = some r → ReaderResolved s t d x r) ∧ (rec = none → ReaderEndsWithout s t d x q.card))
        ∧ Only [.host, .inFlight, .dock, .card] s t)
    ∧ ((∀ q ∈ s.card.queries, q.tag ≠ v.queryTag) → room →
      exec (.cardVerdict tag body) s = .next
        { s with
          card := match rec with
            | some r => installed s r
            | none => s.card
          host := { s.host with outgoing := s.host.outgoing ++ [.reply 0x91 tag .late .nothing] }
          inFlight := s.inFlight.erase (.cardVerdict tag body) })
    ∧ ((∀ q ∈ s.card.queries, q.tag ≠ v.queryTag) → ¬ room →
      exec (.cardVerdict tag body) s = .next
        { s with
          host := { s.host with outgoing := s.host.outgoing ++ [.reply 0x91 tag .tableFull .nothing] }
          inFlight := s.inFlight.erase (.cardVerdict tag body) })
    ∧ (∀ q ∈ s.card.queries, q.tag = v.queryTag → q.card ≠ v.card → s.queriesKept →
      exec (.cardVerdict tag body) s = .next
        { s with
          host := { s.host with outgoing := s.host.outgoing ++ [.reply 0x91 tag .mismatch .nothing] }
          inFlight := s.inFlight.erase (.cardVerdict tag body) }))
  ∧ (∀ (s : State) (tag queryTag : Byte) (outcome : Byte), s.ready → queryTag ≠ 0 → outcome = 1 ∨ outcome = 2 →
      exec (.cardVerdict tag (queryTag :: bytesWord 0 ++ [outcome])) s = .next
        { s with
          host := { s.host with outgoing := s.host.outgoing ++ [.reply 0x91 tag .badField .nothing] }
          inFlight := s.inFlight.erase (.cardVerdict tag (queryTag :: bytesWord 0 ++ [outcome])) })
  ∧ (∀ (s : State), s.ready → s.queriesKept → ∀ q ∈ s.card.queries,
      (q.deadline ≤ s.now → ∃ t, exec (.queryDeadline q.tag) s = .next t
        ∧ t.card.queries = s.card.queries.filter (fun y => y.tag != q.tag)
        ∧ (∀ d x, .reader d ∈ q.waiters → s.dock? d = some x → ReaderEndsWithout s t d x q.card)
        ∧ Only [.host, .inFlight, .dock, .card] s t)
      ∧ (s.now < q.deadline → OnlyTaken (.queryDeadline q.tag) s)
      ∧ (∀ x, s.host.lost = false → s.host.deadline = some x → x ≤ s.now → ∃ t, exec .silenceDeadline s = .next t
        ∧ ∀ d x, .reader d ∈ q.waiters → s.dock? d = some x →
          s.card.queries = [q]
            ∨ (s.store.live.unknownCard = .deny ∧ ∀ y ∈ s.card.queries, .reader d ∈ y.waiters → y.card = q.card) →
          ReaderEndsWithout { s with host := { s.host with lost := true } } t d x q.card))

/-- R50: a pass sale installs its record, in place of one of the same card, in a free slot, or in the slot of the
oldest expired record, and with none expired of the oldest PROVISIONAL one (a tie is broken by the model's choice, log
37). With none of either CARD_TABLE_FULL joins and the session that waits for the sale keeps the pass (its install
stamp is log 52). The pass is then checked as a tap at the terminal. A sale is refused with nothing installed; which
refusal wins when several hold, ROLE, then NO_RIGHT, then EXPIRED, is the model's choice (log 28). R59, R60: a charge
counts a hire by a MEMBER card whose record cannot be confirmed, and a refund takes one back. -/
def Obligations.SalesChargesAndRefunds : Prop :=
  ∀ (s : State), s.ready →
    (∀ (x : TerminalId) (attempt : Nat) (code : CardId) (rights : Rights) (expiry : ClockTime),
      code.msb = true → (s.store.clockUnset = true ∨ s.store.clock < expiry) → ∀ c r, r = soldPass code rights expiry →
      c = Instr.passSale x attempt code (byteOf (Code.rights rights)) expiry →
      (∀ u, Placed s r (saleEvicts s) u →
        exec c s = .next { s with card := u, inFlight := s.inFlight.erase c ++ [terminalHandedOn s x attempt r] })
      ∧ (¬ hasSlot s r → saleEvicts s = [] →
        ∃ t, exec c s = .next t ∧ NoticeKind.cardTableFull.inSet t.host.noticeSet = true
          ∧ t.term = (withTerminal s x fun y => if y.session.state = .checking ∧ y.session.attempt = attempt then
              { y with session := { y.session with unstored := some r } } else y).term
          ∧ HandedOn c s t [terminalHandedOn s x attempt r] ∧ Only [.host, .inFlight, .term] s t))
    ∧ (∀ (x : TerminalId) (attempt : Nat) (code : CardId) (rights : Byte) (expiry : ClockTime) (why : DenyReason),
      why = (if code.msb = false then .role else if 2 ≤ rights.toNat then .noRight else .expired) →
      (code.msb = false ∨ 2 ≤ rights.toNat ∨ (s.store.clockUnset = false ∧ expiry ≤ s.store.clock)) →
      exec (.passSale x attempt code rights expiry) s = .next
        { s with inFlight := s.inFlight.erase (.passSale x attempt code rights expiry)
            ++ [.checkResultAtSession x attempt (.deny why)] })
    ∧ (∀ (d : DockNo) (q : ClaimRequest) (r : CardRecord), s.requestOn d = some q → s.cardRecord q.holder = some r →
      exec (.charge d q.holder) s = .next
        { s with
          card := if r.role = .member ∧ (s.host.lost = true ∨ r.origin = .provisional) ∧ r.used < r.credit then
              { s.card with table := s.card.table.map fun y => if y.card = q.holder then { y with used := y.used + 1 } else y }
            else s.card
          inFlight := s.inFlight.erase (.charge d q.holder)
            ++ [.claimGrant d (if r.role = .member ∧ (s.host.lost = true ∨ r.origin = .provisional) then
                  (if r.used < r.credit then .charged else .credit) else .free)] })
    ∧ (∀ (d : DockNo) (q : ClaimRequest), s.requestOn d = some q → s.cardRecord q.holder = none →
      exec (.charge d q.holder) s = .next
        { s with inFlight := s.inFlight.erase (.charge d q.holder) ++ [.claimGrant d .free] })
    ∧ (∀ card, exec (.refund card) s = .next
        { s with
          card := { s.card with table := s.card.table.map fun y => if y.card = card then { y with used := y.used - 1 } else y }
          inFlight := s.inFlight.erase (.refund card) })

/-! ### Levels and slots -/

/-- R29, R30, R32 to R34, R42: a told cap and a host setting are kept, every dock concerned then has the level the table of R29
gives, a dock that fell to CLOSED has its slot commanded SHUT, and the holds and the occupancy stay. The caps are those the Dock
Controller has been told (log 5). -/
def Obligations.LevelsFollowTheirCaps : Prop :=
  ∀ (s : State), s.ready →
    (∀ c : CapChange, ∃ t, exec (.dockCapChange c) s = .next t
      ∧ t.dock.caps = (match c with
          | .station st => { s.dock.caps with station := st }
          | .power p => { s.dock.caps with power := p }
          | .hostLink lost => { s.dock.caps with hostLost := lost }
          | .silenceAction a => { s.dock.caps with action := a })
      ∧ (∀ d r, s.dock? d = some r → ∃ r', t.dock? d = some r' ∧ t.level d = levelByTable t.dock.caps r
          ∧ (s.level d ≠ .closed → t.level d = .closed → r'.commanded = .shut ∧ r'.withheld = false)
          ∧ (r'.hostSetting, r'.dockHolds, r'.bikeHolds, r'.occupancy, r'.bike, r'.link, r'.lock)
              = (r.hostSetting, r.dockHolds, r.bikeHolds, r.occupancy, r.bike, r.link, r.lock))
      ∧ t.dockCount = s.dockCount ∧ Only [.inFlight, .dock, .release] s t)
    ∧ (∀ (tag : Byte) (d : DockNo) (r : DockRecord) (l : Level), s.dock? d = some r → d < 256 →
      ∃ t r', exec (.dockSetService tag [byteOf d, byteOf (Code.level l)]) s = .next t ∧ t.dock? d = some r'
        ∧ r'.hostSetting = l ∧ t.level d = levelByTable s.dock.caps { r with hostSetting := l }
        ∧ (s.level d ≠ .closed → t.level d = .closed → r'.commanded = .shut ∧ r'.withheld = false)
        ∧ Answered t 0x0D tag .ok (.level (t.level d)) ∧ OtherDocksSame d s t ∧ Only [.host, .inFlight, .dock, .release] s t)
    ∧ (∀ (tag : Byte) (d : DockNo) (l : Level), s.dock? d = none → d < 256 →
      exec (.dockSetService tag [byteOf d, byteOf (Code.level l)]) s = .next
        { s with
          host := { s.host with outgoing := s.host.outgoing ++ [.reply 0x8D tag .badField .nothing] }
          inFlight := s.inFlight.erase (.dockSetService tag [byteOf d, byteOf (Code.level l)]) })

/-- R37 to R41: when a dock's claim is told, its slot follows its want. A slot wanted OPEN is commanded OPEN at once
when it is effectively OPEN or its claim is booked, and is withheld otherwise; one wanted SHUT is commanded SHUT. R88:
a level below what the kind needs drops a RESERVED claim and turns a RELEASE_SENT claim to RELOCKING, and leaves every
other claim. The lamp is derived again (R43). The want reads the station state as the Dock Controller was told it (log
5); the order of what one act hands on is the model's choice (log 7). -/
def Obligations.SlotsFollowTheirWant : Prop :=
  ∀ (s : State) (d : DockNo) (r : DockRecord), s.ready → s.dock? d = some r →
    (∃ t r' work, exec (.dockClaimNotice d) s = .next t ∧ t.dock? d = some r'
      ∧ (r'.commanded, r'.withheld, work) =
          (if s.dock.caps.station = .serving ∧ s.level d ≠ .closed ∧ (r.occupancy = .empty ∨ s.bookedAt d = true) then
            (if r.commanded = .opened ∨ r.withheld = true then (r.commanded, r.withheld, [])
             else if r.acknowledged = .opened ∨ s.bookedAt d = true then
               (.opened, false, if r.acknowledged = .opened then [] else [Instr.journalCountNotice d (.slot true)] ++ passDue s)
             else (.shut, true, [.journalWithheldNotice d true]))
           else
            (.shut, false, (if r.withheld = true then [.journalWithheldNotice d false] else [])
              ++ (if r.commanded = .opened ∧ r.acknowledged = .shut then [.journalCountNotice d
                  (.slot false)] ++ passDue s else [])))
      ∧ r'.lamp = lampByTable s.dock.caps (s.claimOn d) r'
      ∧ HandedOn (.dockClaimNotice d) s t work ∧ OtherDocksSame d s t ∧ Only [.inFlight, .dock] s t)
    ∧ (∀ c, stands s c → c.dock = d →
      ((s.level d).permits c.kind = true → OnlyTaken (.displacement d) s)
      ∧ (c.state ≠ .reserved → c.state ≠ .releaseSent → OnlyTaken (.displacement d) s)
      ∧ ((s.level d).permits c.kind = false → c.state = .releaseSent → MovesClaim (.displacement d) s c
          { c with state := .relocking, deadline := some (s.now + 5) } .relock [] [])
      ∧ ((s.level d).permits c.kind = false → c.state = .reserved → exec (.displacement d) s = .next
          { s with
            release := { s.release with claims := s.release.claims.filter fun x => x.dock != d }
            inFlight := s.inFlight.erase (.displacement d) ++ [.dockClaimNotice d] ++ passDue s
              ++ [.vanClaimNotice d (c.order.getD 0) .droppedByEvent] }))

/-! ### The journal -/

/-- R116, R127: the position of a number is decided by the steps from it to the next number along the numbering; the entries
held lie one step apart behind the next number. -/
def Obligations.PositionsLieBehindTheNextNumber : Prop :=
  ∀ (s : State), s.store.nextSeq ≠ 0 →
    (∀ x : SeqNo, x ≠ 0 → ∃ k, k ≤ 4294967294 ∧ seqAfter^[k] x = s.store.nextSeq)
    ∧ (∀ (x : SeqNo) (k : Nat), x ≠ 0 → k ≤ 4294967294 → seqAfter^[k] x = s.store.nextSeq →
        s.position x =
          (if k = 0 then .next
           else if k ≤ s.journal.entries.length then .held
           else if k ≤ 2147483647 then .released
           else .ahead))
    ∧ (s.numbered → ∀ i e, s.journal.entries[i]? = some e → seqAfter^[s.journal.entries.length - i] e.seq = s.store.nextSeq)

/-- R121, R122, R125, R126: a booking of 2 is granted when the slack is at least 2, and lowers it by 2; it is refused TIGHT
otherwise, and given back it returns. What the blocks tell of a dock updates its account, from which the slack is counted (log
6), and a fall of the slack is noticed. Whatever bookings are in hand for the dock, a request is one more (log 30). -/
def Obligations.BookingsAndCounts : Prop :=
  ∀ (s : State), s.ready →
    (∀ d q, s.requestOn d = some q →
      (s.slack < 2 → exec (.bookingRequest d) s = .next
        { s with inFlight := s.inFlight.erase (.bookingRequest d) ++ [.claimGrant d .tight] })
      ∧ (2 ≤ s.slack → s.journal.withheld = [] → ∃ t, exec (.bookingRequest d) s = .next t
        ∧ t.journal = { s.journal with inHand := s.journal.inHand ++ [d] } ∧ t.slack = s.slack - 2
        ∧ HandedOn (.bookingRequest d) s t [if q.kind = .member then .charge d q.holder else .claimGrant d .free]
        ∧ FallIsNoticed s t ∧ Only [.host, .inFlight, .journal] s t))
    ∧ (∀ d, d ∈ s.journal.inHand → s.journal.withheld = [] → exec (.bookingGivenBack d) s = .next
        { s with
          journal := { s.journal with inHand := s.journal.inHand.erase d }
          inFlight := s.inFlight.erase (.bookingGivenBack d) })
    ∧ (∀ d c, s.journal.withheld = [] → ∃ t, exec (.journalCountNotice d c) s = .next t
        ∧ t.journal = { s.journal with
            account := s.journal.account.modify d (fun a => match c with
              | .slot b => { a with slotOpen := b }
              | .occupancy o => { a with occupancy := o, passed := a.passed || (o == .empty && a.booked) }
              | .inserted => { a with occupancy := .occupied, owed := true }
              | .booked b => { a with booked := b, passed := false })
            inHand := if c = .booked true then s.journal.inHand.erase d else s.journal.inHand }
        ∧ FallIsNoticed s t ∧ HandedOn (.journalCountNotice d c) s t [] ∧ Only [.host, .inFlight, .journal] s t)

/-- R39, R40, R43, R124: a withheld dock waits while the slack is below 1, and one that wants OPEN no more leaves the set. With
slack the withheld docks are admitted in one act, the lowest number first, while the slack lasts: each is commanded OPEN and its
lamp derived, and the account counts it (log 6). A dock whose withheld flag is clear leaves the set and takes no room. -/
def Obligations.WithheldDocksAreAdmitted : Prop :=
  (∀ (s : State) (d : DockNo) (r : DockRecord), s.ready → s.dock? d = some r → s.journal.withheld = [] →
    (1 ≤ s.slack → r.withheld = true → ∃ t, exec (.journalWithheldNotice d true) s = .next t
      ∧ t.dock? d = some { r with
          commanded := .opened
          withheld := false
          lamp := lampByTable s.dock.caps (s.claimOn d) { r with commanded := .opened } }
      ∧ t.journal = { s.journal with account := s.journal.account.modify d fun a => { a with slotOpen := true } }
      ∧ HandedOn (.journalWithheldNotice d true) s t (passDue s) ∧ FallIsNoticed s t ∧ OtherDocksSame d s t
      ∧ Only [.host, .inFlight, .dock, .journal] s t)
    ∧ (1 ≤ s.slack → r.withheld = false → OnlyTaken (.journalWithheldNotice d true) s)
    ∧ OnlyTaken (.journalWithheldNotice d false) s)
  ∧ (∀ (s : State) (d : DockNo), s.ready → s.slack < 1 →
    exec (.journalWithheldNotice d true) s = .next
      { s with
        journal := { s.journal with
          withheld := if d ∈ s.journal.withheld then s.journal.withheld else s.journal.withheld ++ [d] }
        inFlight := s.inFlight.erase (.journalWithheldNotice d true) }
    ∧ exec (.journalWithheldNotice d false) s = .next
      { s with
        journal := { s.journal with withheld := s.journal.withheld.erase d }
        inFlight := s.inFlight.erase (.journalWithheldNotice d false) })
  ∧ ∀ (s : State) (d e : DockNo) (rd re : DockRecord) (opened : DockNo → DockRecord → DockRecord), s.ready → d < e →
    s.dock? d = some rd → s.dock? e = some re → s.journal.withheld = [e, d] → re.withheld = true → 1 ≤ s.slack →
    opened = (fun k r => { r with
        commanded := .opened, withheld := false, lamp := lampByTable s.dock.caps
            (s.claimOn k) { r with commanded := .opened } }) →
    (rd.withheld = false → ∃ t, exec (.journalWithheldNotice e true) s = .next t
      ∧ t.dock? d = some rd ∧ t.dock? e = some (opened e re)
      ∧ t.journal = { s.journal with
          withheld := [], account := s.journal.account.modify e fun a => { a with slotOpen := true } }
      ∧ HandedOn (.journalWithheldNotice e true) s t (passDue s) ∧ FallIsNoticed s t
      ∧ Only [.host, .inFlight, .dock, .journal] s t)
    ∧ (∀ ad ae : DockAccount, rd.withheld = true → s.journal.account[d]? = some ad → s.journal.account[e]? = some ae →
        ad.occupancy = .empty → ad.slotOpen = false → ad.passed = false →
        ae.occupancy = .empty → ae.slotOpen = false → ae.passed = false →
        (s.slack = 1 → ∃ t, exec (.journalWithheldNotice e true) s = .next t
          ∧ t.dock? d = some (opened d rd) ∧ t.dock? e = some re ∧ t.journal.withheld = [e] ∧ t.slack = 0
          ∧ HandedOn (.journalWithheldNotice e true) s t (passDue s) ∧ FallIsNoticed s t
          ∧ Only [.host, .inFlight, .dock, .journal] s t)
        ∧ (2 ≤ s.slack → ∃ t, exec (.journalWithheldNotice e true) s = .next t
          ∧ t.dock? d = some (opened d rd) ∧ t.dock? e = some (opened e re) ∧ t.journal.withheld = [] ∧ t.slack = s.slack - 2
          ∧ HandedOn (.journalWithheldNotice e true) s t (passDue s ++ passDue s) ∧ FallIsNoticed s t
          ∧ Only [.host, .inFlight, .dock, .journal] s t))

/-- R84, R94, R116 to R120: an entry takes the next number and the Station Clock as it stands. A pending return becomes
HIRE_VOID when its bike is on the grace list, which it leaves with an offline charge refunded, else VAN_IN under a crew mark,
else RETURN. -/
def Obligations.EntriesAreWritten : Prop :=
  ∀ (s : State) (q : EntryRequest), s.ready → ∃ (t : State) (e : Entry), exec (.journalEntryWrite q) s = .next t
    ∧ t.journal.entries = s.journal.entries ++ [e] ∧ e.seq = s.store.nextSeq ∧ e.time = s.store.clock
        ∧ e.unset = s.store.clockUnset
    ∧ t.store = { s.store with nextSeq := if s.store.nextSeq = 0xFFFFFFFF then 1 else s.store.nextSeq + 1 }
    ∧ FallIsNoticed s t
    ∧ match q with
      | .pendingReturn d bike late crew =>
        e.dock = some d ∧ e.bike = bike ∧ e.flags.late = late
        ∧ (match bike.bind (fun b => s.release.grace.find? fun g => g.bike == b) with
          | some g => e.kind = .hireVoid ∧ e.reference = some g.start ∧ e.flags.offline = g.offline
              ∧ t.release.grace = s.release.grace.filter (fun x => x.bike != g.bike)
              ∧ (g.offline = true → .refund g.card ∈ t.inFlight)
          | none => t.release = s.release ∧ e.flags.noTag = bike.isNone
              ∧ match crew with
                | some o => e.kind = .vanIn ∧ e.reference = some (o.setWidth 32)
                    ∧ .vanInNotice o d s.store.nextSeq bike.isSome ∈ t.inFlight
                | none => e.kind = .returned ∧ e.reference = none)
      | .claimEnding d kind bike card reference offline lateTake resetTake =>
        e.kind = (match kind with | .member => .hireStart | .van => .vanOut | .service => .serviceOut)
        ∧ e.dock = some d ∧ e.bike = bike ∧ e.card = card ∧ e.reference = reference
        ∧ e.flags = { offline := offline, lateTake := lateTake, resetTake := resetTake } ∧ t.release = s.release
      | .orderClosed o outcome n m =>
        e.kind = .orderClosed ∧ e.dock = none ∧ e.reference = some (o.setWidth 32) ∧ e.outcome = some outcome ∧ e.done = some n
        ∧ e.quantity = some m ∧ t.journal.vanBooked = false ∧ t.release = s.release

/-- R128: JOURNAL_READ by the position of its number. R129: JOURNAL_RELEASE takes out the entries from the oldest through its
number and answers with the slack; the admissions that may come in the same act are those of R124 (`WithheldDocksAreAdmitted`).
The reply stands after a NOTICE that the act makes due (log 7). -/
def Obligations.JournalIsReadAndReleased : Prop :=
  ∀ (s : State) (tag : Byte) (x : SeqNo) (max : Nat), s.ready → s.numbered → s.journal.entries.length ≤ 4096 →
    (x ≠ 0 → 1 ≤ max → max ≤ 16 → exec (.journalRead tag (bytesWord x ++ [byteOf max])) s = .next
      { s with
        host := { s.host with outgoing := s.host.outgoing ++ [
          if s.position x = .ahead then .reply 0x92 tag .badSeq .nothing
          else .reply 0x92 tag .ok (.journalRead
            { gap := s.position x == .released
              entries := (match s.position x with
                | .held => (s.journal.entries.dropWhile fun e => e.seq != x).take max
                | .released => s.journal.entries.take max
                | .next => []
                | .ahead => [])
              oldest := (s.journal.entries.head?.map (·.seq)).getD s.store.nextSeq
              next := s.store.nextSeq, used := s.journal.entries.length, booked := s.journal.bookedEntries
              reserve := s.journal.reserve, slack := s.slack })] }
        inFlight := s.inFlight.erase (.journalRead tag (bytesWord x ++ [byteOf max])) })
    ∧ (x = 0 ∨ max = 0 ∨ 16 < max → max < 256 → exec (.journalRead tag (bytesWord x ++ [byteOf max])) s = .next
      { s with
        host := { s.host with outgoing := s.host.outgoing ++ [.reply 0x92 tag .badField .nothing] }
        inFlight := s.inFlight.erase (.journalRead tag (bytesWord x ++ [byteOf max])) })
    ∧ (x = 0 → exec (.journalRelease tag (bytesWord x)) s = .next
      { s with
        host := { s.host with outgoing := s.host.outgoing ++ [.reply 0x93 tag .badField .nothing] }
        inFlight := s.inFlight.erase (.journalRelease tag (bytesWord x)) })
    ∧ (x ≠ 0 → s.position x = .next ∨ s.position x = .ahead → exec (.journalRelease tag (bytesWord x)) s = .next
      { s with
        host := { s.host with outgoing := s.host.outgoing ++ [.reply 0x93 tag .badSeq .nothing] }
        inFlight := s.inFlight.erase (.journalRelease tag (bytesWord x)) })
    ∧ (∀ k, x ≠ 0 → (s.position x = .held ∧ k = (s.journal.entries.takeWhile fun e => e.seq != x).length + 1)
          ∨ (s.position x = .released ∧ k = 0) →
        ∃ t, exec (.journalRelease tag (bytesWord x)) s = .next t ∧ t.journal.entries = s.journal.entries.drop k
          ∧ Answered t 0x13 tag .ok
              (.journalRelease k ((t.journal.entries.head?.map (·.seq)).getD s.store.nextSeq) t.slack)
          ∧ (s.journal.withheld = [] → t.slack = s.slack + k ∧ Only [.host, .inFlight, .journal] s t)
          ∧ Only [.host, .inFlight, .dock, .journal] s t)

/-! ### Orders and van sessions -/

/-- R133, R134: ORDER_ADD queues an order; ORDER_CANCEL removes a QUEUED one, and closes the session of an ACTIVE one
with cause CANCELLED. That ORDER_CANCEL of order id 0 is answered NOT_FOUND is the model's choice (log 51). The order
in which the drops of its RESERVED docks are handed on is the model's choice (log 7). -/
def Obligations.OrdersAreQueuedAndCancelled : Prop :=
  ∀ (s : State) (tag : Byte), s.ready →
    (∀ body o, Operands.orderAdd body = .ok o → exec (.orderAdd tag body) s = .next
      { s with
        order := if (∀ x ∈ s.order.queue, x.id ≠ o.id) ∧ s.order.queue.length < 8 then
            { s.order with queue := s.order.queue ++ [o] } else s.order
        host := { s.host with outgoing := s.host.outgoing
          ++ [.reply 0x94 tag (if ∃ x ∈ s.order.queue, x.id = o.id then .duplicate
              else if s.order.queue.length < 8 then .ok else .tableFull) .nothing] }
        inFlight := s.inFlight.erase (.orderAdd tag body) })
    ∧ (∀ id : OrderId, (∀ x ∈ s.order.queue, x.id ≠ id) → exec (.orderCancel tag (bytesHalf id)) s = .next
      { s with
        host := { s.host with outgoing := s.host.outgoing ++ [.reply 0x95 tag .notFound .nothing] }
        inFlight := s.inFlight.erase (.orderCancel tag (bytesHalf id)) })
    ∧ (∀ o, s.orderOf o.id = some o → o.state = .queued → exec (.orderCancel tag (bytesHalf o.id)) s = .next
      { s with
        order := { s.order with queue := s.order.queue.filter fun x => x.id != o.id }
        host := { s.host with outgoing := s.host.outgoing ++ [.reply 0x95 tag .ok .nothing] }
        inFlight := s.inFlight.erase (.orderCancel tag (bytesHalf o.id)) })
    ∧ (∀ o v, s.orderOf o.id = some o → o.state = .active → s.order.session = some v → v.state = .opened → v.docks ≠ [] →
      ∃ t, exec (.orderCancel tag (bytesHalf o.id)) s = .next t
        ∧ t.order = { s.order with session := some { v with state := .closing, cause := some .cancelled, idleDeadline := none,
                                                            windows := [] } }
        ∧ HandedOn (.orderCancel tag (bytesHalf o.id)) s t
            ((v.docks.filter fun p => p.2 == .reserved).map fun p => .reservationDrop p.1)
        ∧ Answered t 0x15 tag .ok .nothing ∧ Only [.host, .inFlight, .dock, .order] s t)
    ∧ (∀ o v, s.orderOf o.id = some o → o.state = .active → s.order.session = some v → v.state = .closing →
      exec (.orderCancel tag (bytesHalf o.id)) s = .next
        { s with
          order := { s.order with session := some { v with cause := some .cancelled } }
          host := { s.host with outgoing := s.host.outgoing ++ [.reply 0x95 tag .ok .nothing] }
          inFlight := s.inFlight.erase (.orderCancel tag (bytesHalf o.id)) })

/-- R123, R137, R138: a CREW tap with no session asks for the booking when the opening conditions hold, and is refused with the
first that fails; with a slack of 1 or more the session opens on the oldest eligible order. The conditions are tested again when
the booking is taken, and bind the order eligible then (log 9). -/
def Obligations.CrewTapOpensTheSession : Prop :=
  ∀ (s : State) (d : DockNo) (r : DockRecord) (card : CardId) (why : Option DenyReason), s.ready → s.dock? d = some r →
    s.ordersKept → s.order.session = none →
    why = (if s.store.station ≠ .serving then some .outOfService
      else if s.supply.power = .reserve then some .power
      else if ∀ o ∈ s.order.queue, ¬ (o.state = .queued
          ∧ ∀ x, o.notBefore = some x → s.store.clockUnset = false ∧ x ≤ s.store.clock) then some .noOrder
      else none) →
    (∀ place, why = none → exec (.crewTap card place) s = .next
      { s with inFlight := s.inFlight.erase (.crewTap card place) ++ [.vanBooking card place] })
    ∧ (∀ y x attempt, why = some y → ∀ c ∈ [Instr.crewTap card (.terminal x attempt), .vanBooking card (.terminal x attempt)],
      exec c s = .next { s with inFlight := s.inFlight.erase c ++ [.checkResultAtSession x attempt (.deny y)] })
    ∧ (∀ y, why = some y → ∀ c ∈ [Instr.crewTap card (.reader d), .vanBooking card (.reader d)],
      ∃ t, exec c s = .next t ∧ t.dock? d = some { r with checkPending := false, readerResult := some (.deny y) }
        ∧ HandedOn c s t [] ∧ OtherDocksSame d s t ∧ Only [.inFlight, .dock] s t)
    ∧ (why = none → s.slack < 1 → ∃ t, exec (.vanBooking card (.reader d)) s = .next t
        ∧ t.dock? d = some { r with checkPending := false, readerResult := some (.deny .tight) }
        ∧ HandedOn (.vanBooking card (.reader d)) s t [] ∧ OtherDocksSame d s t ∧ Only [.inFlight, .dock] s t)
    ∧ (∀ x attempt, why = none → s.slack < 1 → exec (.vanBooking card (.terminal x attempt)) s = .next
      { s with inFlight := s.inFlight.erase (.vanBooking card (.terminal x attempt))
          ++ [.checkResultAtSession x attempt (.deny .tight)] })
    ∧ (∀ o x attempt, why = none → 1 ≤ s.slack → s.order.queue.find? s.orderEligible = some o →
      ∃ t v, exec (.vanBooking card (.terminal x attempt)) s = .next t ∧ t.order.session = some v ∧ v.state = .opened
        ∧ v.order = o.id ∧ v.card = card ∧ v.idleDeadline = some (s.now + s.store.live.vanIdle)
        ∧ t.order.queue = s.order.queue.map (fun x => if x.id = o.id then { x with state := .active } else x)
        ∧ t.journal.vanBooked = true ∧ FallIsNoticed s t ∧ .checkResultAtSession x attempt .vanOpened ∈ t.inFlight
        ∧ Only [.host, .inFlight, .dock, .release, .journal, .order] s t)
    ∧ (∀ o, why = none → 1 ≤ s.slack → s.order.queue.find? s.orderEligible = some o →
      ∃ t v, exec (.vanBooking card (.reader d)) s = .next t ∧ t.order.session = some v ∧ v.state = .opened ∧ v.order = o.id
        ∧ v.card = card ∧ v.cause = none ∧ v.idleDeadline = some (s.now + s.store.live.vanIdle) ∧ v.awaiting = 0
        ∧ v.windows = [] ∧ v.docks.length ≤ o.quantity - o.done
        ∧ t.order.queue = s.order.queue.map (fun x => if x.id = o.id then { x with state := .active } else x)
        ∧ t.journal.vanBooked = true ∧ FallIsNoticed s t
        ∧ (∀ r', t.dock? d = some r' → r'.readerResult = some .allow ∧ r'.checkPending = false)
        ∧ Only [.host, .inFlight, .dock, .release, .journal, .order] s t)

/-- R137, R143, R144, R146, R150, R151, R142: a CREW tap in an OPEN session restarts the idle deadline. At a reserved
dock of a COLLECT order it asks for the release, in RESERVE refused POWER; at a dock marked BOOKED it is refused
CLAIMED; at another dock it gives up the reserved dock of the highest number and asks for a release there, or is
refused with the first test that fails. Which session docks stand and which can be given up while work is on its way
is the model's reading (log 36), and two cases of it its choice: a dock whose release is asked for is not given up,
and one marked BOOKED whose claim has ended is CLAIMED (log 42). At an EMPTY dock of a DELIVER order it opens a crew
window; at a terminal it closes the session with cause TERMINAL; a CLOSING session refuses it. A placement pass
reserves the eligible docks of the lowest numbers while the session docks are fewer than the target, and none in
RESERVE or without an OPEN session. The take window and the tariff id of a claim so placed are 0, the model's choice
(log 48). The order of what one act hands on is the model's choice (log 7). -/
def Obligations.CrewWorksInTheSession : Prop :=
  ∀ (s : State) (d : DockNo) (r : DockRecord) (card : CardId) (v : VanSession) (o : Order), s.ready → s.dock? d = some r →
    s.order.session = some v → s.orderOf v.order = some o →
    (v.state = .opened → o.kind = .collect → v.docks.find? (fun p => p.1 == d) = some (d, .reserved) → standsIn s v d →
        s.supply.power ≠ .reserve →
      exec (.crewTap card (.reader d)) s = .next
        { s with
          order := { s.order with session := some { v with idleDeadline := some (s.now + s.store.live.vanIdle) } }
          inFlight := s.inFlight.erase (.crewTap card (.reader d)) ++ [.vanReleaseRequest d v.order card] })
    ∧ (∀ why mark, v.state = .opened → o.kind = .collect → v.docks.find? (fun p => p.1 == d) = some (d, mark) →
        (mark = .reserved ∧ standsIn s v d ∧ s.supply.power = .reserve ∧ why = .power) ∨ (mark = .booked ∧ why = .claimed) →
      ∃ t, exec (.crewTap card (.reader d)) s = .next t ∧ t.dock? d = some (decidedAt r (.deny why))
        ∧ t.order = { s.order with session := some { v with idleDeadline := some (s.now + s.store.live.vanIdle) } }
        ∧ HandedOn (.crewTap card (.reader d)) s t [] ∧ OtherDocksSame d s t ∧ Only [.inFlight, .dock, .order] s t)
    ∧ (v.state = .opened → o.kind = .deliver → s.claimOn d = none → r.occupancy = .empty → s.level d ≠ .closed →
        (r.commanded = .opened ∨ r.acknowledged = .opened) →
      ∃ t, exec (.crewTap card (.reader d)) s = .next t
        ∧ t.dock? d = some { r with crewWindow := some ⟨s.now + s.store.live.crewWindow, v.order⟩, checkPending := false,
                                    readerResult := some .allow }
        ∧ t.order = { s.order with session := some { v with
            idleDeadline := some (s.now + s.store.live.vanIdle), windows := v.windows.filter (· != d) ++ [d] } }
        ∧ HandedOn (.crewTap card (.reader d)) s t [] ∧ OtherDocksSame d s t ∧ Only [.inFlight, .dock, .order] s t)
    ∧ (v.state = .closing → ∃ t, exec (.crewTap card (.reader d)) s = .next t
        ∧ t.dock? d = some { r with checkPending := false, readerResult := some (.deny .busy) }
        ∧ HandedOn (.crewTap card (.reader d)) s t [] ∧ OtherDocksSame d s t ∧ Only [.inFlight, .dock] s t)
    ∧ (v.state = .opened → o.kind = .collect → (v.docks.find? (fun p => p.1 == d) = some (d, .reserved) → ¬ standsIn s v d) →
        v.docks.find? (fun p => p.1 == d) ≠ some (d, .booked) → s.supply.power ≠ .reserve →
        s.claimOn d = none → r.occupancy = .occupied → r.lock = .locked → s.level d ≠ .closed → r.matchesClass o.cls = true →
      ∀ h, canGiveUp s v h → (∀ e, canGiveUp s v e → e ≤ h) →
      exec (.crewTap card (.reader d)) s = .next
        { s with
          order := { s.order with session := some { v with idleDeadline := some (s.now + s.store.live.vanIdle) } }
          inFlight := s.inFlight.erase (.crewTap card (.reader d)) ++ [.reservationDrop h, .vanReleaseRequest d v.order card] })
    ∧ (∀ why, v.state = .opened → o.kind = .collect → (v.docks.find? (fun p => p.1 == d) = some (d, .reserved) → ¬ standsIn s v d) →
        v.docks.find? (fun p => p.1 == d) ≠ some (d, .booked) →
        some why = (if s.supply.power = .reserve then some .power
          else if s.claimOn d ≠ none then some .claimed
          else if r.occupancy ≠ .occupied then some .noBike
          else if r.lock ≠ .locked ∨ s.level d = .closed then some .dockLimit
          else if r.matchesClass o.cls = false then some .limit
          else some DenyReason.limit) →
        (why = .limit → r.matchesClass o.cls = true → ∀ h, ¬ canGiveUp s v h) →
      ∃ t, exec (.crewTap card (.reader d)) s = .next t ∧ t.dock? d = some (decidedAt r (.deny why))
        ∧ t.order = { s.order with session := some { v with idleDeadline := some (s.now + s.store.live.vanIdle) } }
        ∧ HandedOn (.crewTap card (.reader d)) s t [] ∧ OtherDocksSame d s t ∧ Only [.inFlight, .dock, .order] s t)
    ∧ (∀ x attempt, v.state = .opened → v.docks ≠ [] →
      ∃ t, exec (.crewTap card (.terminal x attempt)) s = .next t
        ∧ t.order = { s.order with session := some { v with state := .closing, cause := some .terminal, idleDeadline := none,
                                                            windows := [] } }
        ∧ HandedOn (.crewTap card (.terminal x attempt)) s t (.checkResultAtSession x attempt .vanClosed
            :: (v.docks.filter fun p => p.2 == .reserved).map fun p => .reservationDrop p.1)
        ∧ (∀ w ∈ v.windows, ∀ r', t.dock? w = some r' → r'.crewWindow = none) ∧ Only [.inFlight, .dock, .order] s t)
    ∧ (v.state = .opened → s.supply.power ≠ .reserve →
        ∀ taken, taken = passTakes (o.quantity - o.done - v.awaiting) v.docks
          ((List.range s.dockCount).filter fun e => s.reservable o e && (s.requestOn e).isNone) →
        exec .placementPass s = .next
          { s with
            release := { s.release with claims := s.release.claims ++ taken.map fun e => reservation e v.order }
            order := { s.order with session := some { v with
              docks := taken.foldl (fun docks e => docks.filter (fun p => p.1 != e) ++ [(e, .reserved)]) v.docks } }
            inFlight := s.inFlight.erase .placementPass ++ taken.map .dockClaimNotice })
    ∧ (v.state = .closing ∨ s.supply.power = .reserve → OnlyTaken .placementPass s)
    ∧ ∀ u : State, u.ready → u.order.session = none → OnlyTaken .placementPass u

/-- R145, R147, R148, R150, R151, R152: a taken claim and a delivery's entry raise the done count and restart the idle
deadline, a lost claim is replaced, a crew insertion awaits its entry, and at its idle deadline a session with nothing
outstanding closes with its ORDER_CLOSED entry. The bike that makes done the quantity, taken or delivered, closes the
session with cause DONE, its crew windows withdrawn, at once when no other session dock is outstanding. A session dock
that carries a claim of the order again stays one (log 32); the awaiting count stops at 64 and at 0 (log 26), both the
model's reading; the order of what one act hands on is the model's choice (log 7). -/
def Obligations.SessionCountsItsBikes : Prop :=
  ∀ (s : State) (d : DockNo) (v : VanSession) (o : Order), s.ready → s.ordersKept → s.order.session = some v →
    s.orderOf v.order = some o → v.state = .opened →
    (v.marked d ≠ none → ¬ countsAt s d v.order → o.done + 1 < o.quantity → v.docks.length ≤ o.quantity - o.done - v.awaiting →
        (∀ e, .reservationDrop e ∉ s.inFlight) → (v.docks.filter fun p => p.1 == d).length = 1 →
      exec (.vanClaimNotice d v.order .taken) s = .next
        { s with
          order := { queue := s.order.queue.map fun x => if x.id = o.id then { x with done := o.done + 1 } else x
                     session := some { v with docks := v.docks.filter (fun p => p.1 != d)
                                              idleDeadline := some (s.now + s.store.live.vanIdle) } }
          inFlight := s.inFlight.erase (.vanClaimNotice d v.order .taken) })
    ∧ (v.marked d ≠ none → ¬ countsAt s d v.order → o.done + 1 = o.quantity → (∃ p ∈ v.docks, p.1 ≠ d) →
      ∃ t, exec (.vanClaimNotice d v.order .taken) s = .next t
        ∧ t.order = { queue := s.order.queue.map fun x => if x.id = o.id then { x with done := o.quantity } else x
                      session := some { v with docks := v.docks.filter (fun p => p.1 != d), state := .closing
                                               cause := some .done, idleDeadline := none, windows := [] } }
        ∧ HandedOn (.vanClaimNotice d v.order .taken) s t
            ((v.docks.filter fun p => p.1 != d && p.2 == .reserved).map fun p => .reservationDrop p.1)
        ∧ (∀ w ∈ v.windows, ∀ r', t.dock? w = some r' → r'.crewWindow = none) ∧ Only [.inFlight, .dock, .order] s t)
    ∧ (v.marked d ≠ none → ¬ countsAt s d v.order → o.done + 1 = o.quantity → (∀ p ∈ v.docks, p.1 = d) →
      ∃ t e, exec (.vanClaimNotice d v.order .taken) s = .next t ∧ t.order.session = none
        ∧ t.order.queue = s.order.queue.filter (fun y => y.id != v.order)
        ∧ t.journal.entries = s.journal.entries ++ [e] ∧ e.kind = .orderClosed ∧ e.seq = s.store.nextSeq
        ∧ e.reference = some (v.order.setWidth 32) ∧ e.done = some o.quantity ∧ e.quantity = some o.quantity
        ∧ e.outcome = some .done ∧ t.journal.vanBooked = false ∧ NoticeKind.orderClosed.inSet t.host.noticeSet = true
        ∧ (∀ w ∈ v.windows, ∀ r', t.dock? w = some r' → r'.crewWindow = none)
        ∧ Only [.host, .inFlight, .dock, .release, .journal, .order, .store] s t)
    ∧ (v.marked d ≠ none → ¬ countsAt s d v.order → exec (.vanClaimNotice d v.order .lapsedOrFailed) s = .next
        { s with
          order := { s.order with session := some { v with docks := v.docks.filter fun p => p.1 != d } }
          inFlight := s.inFlight.erase (.vanClaimNotice d v.order .lapsedOrFailed) ++ [.placementPass] })
    ∧ (v.marked d ≠ none → countsAt s d v.order → exec (.vanClaimNotice d v.order .lapsedOrFailed) s = .next
        { s with inFlight := s.inFlight.erase (.vanClaimNotice d v.order .lapsedOrFailed) ++ [.placementPass] })
    ∧ (v.marked d = none → ∀ news, OnlyTaken (.vanClaimNotice d v.order news) s)
    ∧ (v.docks = [] → exec (.crewInsertionNotice d (.inserted (some v.order))) s = .next
        { s with
          order := { s.order with session := some { v with awaiting := min 64 (v.awaiting + 1)
                                                           windows := v.windows.filter (· != d) } }
          inFlight := s.inFlight.erase (.crewInsertionNotice d (.inserted (some v.order))) })
    ∧ (∀ seq identified, o.done + 1 < o.quantity → v.docks = [] →
      exec (.vanInNotice v.order d seq identified) s = .next
        { s with
          order := { queue := s.order.queue.map fun x => if x.id = o.id then { x with done := o.done + 1 } else x
                     session := some { v with awaiting := v.awaiting - 1
                                              idleDeadline := some (s.now + s.store.live.vanIdle) } }
          inFlight := s.inFlight.erase (.vanInNotice v.order d seq identified) })
    ∧ (∀ seq identified, o.done + 1 = o.quantity → v.docks ≠ [] →
      ∃ t, exec (.vanInNotice v.order d seq identified) s = .next t
        ∧ t.order = { queue := s.order.queue.map fun x => if x.id = o.id then { x with done := o.quantity } else x
                      session := some { v with awaiting := v.awaiting - 1, state := .closing, cause := some .done
                                               idleDeadline := none, windows := [] } }
        ∧ HandedOn (.vanInNotice v.order d seq identified) s t
            ((v.docks.filter fun p => p.2 == .reserved).map fun p => .reservationDrop p.1)
        ∧ (∀ w ∈ v.windows, ∀ r', t.dock? w = some r' → r'.crewWindow = none) ∧ Only [.inFlight, .dock, .order] s t)
    ∧ (∀ seq identified, o.done + 1 = o.quantity → v.docks = [] →
      ∃ t e, exec (.vanInNotice v.order d seq identified) s = .next t ∧ t.order.session = none
        ∧ t.order.queue = s.order.queue.filter (fun y => y.id != v.order)
        ∧ t.journal.entries = s.journal.entries ++ [e] ∧ e.kind = .orderClosed ∧ e.seq = s.store.nextSeq
        ∧ e.reference = some (v.order.setWidth 32) ∧ e.done = some o.quantity ∧ e.quantity = some o.quantity
        ∧ e.outcome = some .done ∧ t.journal.vanBooked = false ∧ NoticeKind.orderClosed.inSet t.host.noticeSet = true
        ∧ (∀ w ∈ v.windows, ∀ r', t.dock? w = some r' → r'.crewWindow = none)
        ∧ Only [.host, .inFlight, .dock, .release, .journal, .order, .store] s t)
    ∧ (∀ x, v.idleDeadline = some x → x ≤ s.now → v.docks = [] → v.windows = [] →
      ∃ t e, exec .vanIdleDeadline s = .next t ∧ t.order.session = none
        ∧ t.order.queue = s.order.queue.filter (fun y => y.id != v.order)
        ∧ t.journal.entries = s.journal.entries ++ [e] ∧ e.kind = .orderClosed ∧ e.seq = s.store.nextSeq
        ∧ e.reference = some (v.order.setWidth 32) ∧ e.done = some o.done ∧ e.quantity = some o.quantity
        ∧ e.outcome = some (if o.done = o.quantity then .done else .partly) ∧ t.journal.vanBooked = false
        ∧ NoticeKind.orderClosed.inSet t.host.noticeSet = true
        ∧ Only [.host, .inFlight, .dock, .release, .journal, .order, .store] s t)
    ∧ (∀ x, v.idleDeadline = some x → s.now < x → OnlyTaken .vanIdleDeadline s)

/-! ### Faults and holds -/

/-- R157 to R160: a raise writes the hold of its dock and a record with its context, repeats a record that is held,
and is lost when the table is full; a resolution takes the hold out and resolves the record, which leaves when it is
ACKED. The context is read before the hold of the same raise is written (log 27), shows what a LOCK_JAM or
TAG_CONFLICT carries, and holds the unrecorded flag (R19; that the bytes of the record do not show it is log 34). A
bike kind is held at the dock that raised it, and the record of a terminal has no context. -/
def Obligations.FaultsAreRaisedAndResolved : Prop :=
  ∀ (s : State) (d : DockNo) (r : DockRecord) (k : FaultKind), s.ready → s.dock? d = some r
      → (FaultSubject.dock d).fits k = true →
    (∀ carried, ∃ t r', exec (.faultRaise (.dock d) k (some d) carried) s = .next t ∧ t.dock? d = some r'
        ∧ r'.dockHolds = r.dockHolds.put k true
      ∧ (s.faultOf (.dock d) k = none → s.fault.table.length < s.faultRoom →
          t.fault = { s.fault with table := s.fault.table
            ++ [{ subject := .dock d, kind := k, firstTime := s.store.clock, firstUnset := s.store.clockUnset,
                  lastTime := s.store.clock, lastUnset := s.store.clockUnset, repeats := 0, condition := .active, report := .new,
                  context := some
                    { dock := d, link := r.link, lock := r.lock, occupancy := r.occupancy, commanded := r.commanded,
                      acknowledged := r.acknowledged, lastTap := r.lastTap, lastSense := r.lastSense, unrecorded := r.unrecorded
                      claim := (match carried with
                        | .claim kind state holder => some (kind, state, holder)
                        | .tag _ => (s.claimOn d).map fun c => (c.kind, c.state, c.holder)
                        | .nothing => (s.claimOn d).map fun c => (c.kind, c.state, c.holder))
                      bike := (match carried with
                        | .tag b => some b
                        | .claim _ _ _ => r.bike.map (·.id)
                        | .nothing => r.bike.map (·.id)) }
                  power := s.supply.power }] }
          ∧ NoticeKind.faultNew.inSet t.host.noticeSet = true)
      ∧ (∀ x, s.faultOf (.dock d) k = some x →
          t.fault = { s.fault with table := s.fault.table.map fun y => if y.subject = .dock d ∧ y.kind = k then
            { y with repeats := min 255 (y.repeats + 1), lastTime := s.store.clock, lastUnset := s.store.clockUnset,
                     condition := .active } else y })
      ∧ (s.faultOf (.dock d) k = none → s.faultRoom ≤ s.fault.table.length →
          t.fault = { s.fault with lost := min 65535 (s.fault.lost + 1) }
              ∧ NoticeKind.faultOverflow.inSet t.host.noticeSet = true)
      ∧ OtherDocksSame d s t ∧ Only [.host, .inFlight, .dock, .release, .fault] s t)
    ∧ (∃ t r', exec (.faultResolution (.dock d) k none) s = .next t ∧ t.dock? d = some r' ∧ r'.dockHolds = r.dockHolds.put k false
      ∧ t.fault = { s.fault with table :=
          (s.fault.table.filter fun y => !(y.subject == .dock d && y.kind == k && y.report == .acked)).map fun y =>
            if y.subject = (.dock d) ∧ y.kind = k then { y with condition := .resolved } else y }
      ∧ OtherDocksSame d s t ∧ Only [.inFlight, .dock, .release, .fault] s t)
    ∧ (∀ b kind, r.bike.map (·.id) = some b → (FaultSubject.bike b).fits kind = true →
      ∃ t r', exec (.faultRaise (.bike b) kind (some d) .nothing) s = .next t ∧ t.dock? d = some r'
        ∧ r'.bikeHolds = r.bikeHolds.put kind true
        ∧ (s.faultOf (.bike b) kind = none → s.fault.table.length < s.faultRoom →
            t.fault.table = s.fault.table
              ++ [{ subject := .bike b, kind := kind, firstTime := s.store.clock, firstUnset := s.store.clockUnset,
                    lastTime := s.store.clock, lastUnset := s.store.clockUnset, repeats := 0, condition := .active,
                        report := .new,
                    context := some
                      { dock := d, link := r.link, lock := r.lock, occupancy := r.occupancy, commanded := r.commanded,
                        acknowledged := r.acknowledged, claim := (s.claimOn d).map (fun c => (c.kind, c.state, c.holder)),
                        lastTap := r.lastTap, lastSense := r.lastSense, bike := some b, unrecorded := r.unrecorded }
                    power := s.supply.power }])
        ∧ OtherDocksSame d s t ∧ Only [.host, .inFlight, .dock, .release, .fault] s t)
    ∧ (∀ x : TerminalId, ∃ t, exec (.faultRaise (.terminal x) .lineFailed none .nothing) s = .next t
        ∧ (s.faultOf (.terminal x) .lineFailed = none → s.fault.table.length < s.faultRoom →
            t.fault.table = s.fault.table
              ++ [{ subject := .terminal x, kind := .lineFailed, firstTime := s.store.clock, firstUnset := s.store.clockUnset,
                    lastTime := s.store.clock, lastUnset := s.store.clockUnset, repeats := 0, condition := .active,
                        report := .new,
                    context := none, power := s.supply.power }]
            ∧ NoticeKind.faultNew.inSet t.host.noticeSet = true)
        ∧ HandedOn (.faultRaise (.terminal x) .lineFailed none .nothing) s t [] ∧ Only [.host, .inFlight, .fault] s t)

/-- R161, R163, R164: a hold clear empties the dock hold set and takes RIDER_REPORT out, and answers ALLOW; at a dock
that holds no bike id RIDER_REPORT is taken out of the set as well, the model's choice (log 50); a bike that arrives
brings an ACTIVE RIDER_REPORT with it; a removal takes the tag kinds and the bike's holds out. -/
def Obligations.HoldsFollowTheBike : Prop :=
  ∀ (s : State) (d : DockNo) (r : DockRecord), s.ready → s.dock? d = some r →
    (∃ t r', exec (.holdClear d) s = .next t ∧ t.dock? d = some r' ∧ r'.dockHolds = {}
      ∧ r'.bikeHolds = { r.bikeHolds with riderReport := false } ∧ r'.readerResult = some .allow ∧ r'.checkPending = false
      ∧ (∀ y ∈ t.fault.table, y.subject = .dock d → y.kind ∈ clearableKinds → y.condition = .resolved)
      ∧ (∀ c, stands s c → c.dock = d → c.state = .jammedOpen → r.dockHolds.lockJam = true → .lockJamCleared d ∈ t.inFlight)
      ∧ OtherDocksSame d s t ∧ Only [.inFlight, .dock, .release, .fault] s t)
    ∧ (∀ b, r.bike.map (·.id) = some b → ∃ t r', exec (.bikeArrivalNotice d b) s = .next t ∧ t.dock? d = some r'
      ∧ r'.bikeHolds = (if ∃ y, s.faultOf (.bike b) .riderReport = some y ∧ y.condition = .active then
          { r.bikeHolds with riderReport := true } else r.bikeHolds)
      ∧ t.fault = s.fault ∧ OtherDocksSame d s t ∧ Only [.inFlight, .dock, .release] s t)
    ∧ (∀ bike, ∃ t r', exec (.faultRemovalNotice d bike) s = .next t ∧ t.dock? d = some r'
      ∧ r'.dockHolds = { r.dockHolds with tagUnread := false, tagConflict := false }
      ∧ r'.bikeHolds = (if bike = none then r.bikeHolds else {})
      ∧ (∀ y ∈ t.fault.table, (y.subject = .dock d ∧ (y.kind = .tagUnread ∨ y.kind = .tagConflict))
            ∨ (∃ b, bike = some b ∧ y.subject = .bike b ∧ y.kind = .batteryLow) → y.condition = .resolved)
      ∧ OtherDocksSame d s t ∧ Only [.inFlight, .dock, .release, .fault] s t)

/-- R162, R165, R166: FAULT_LIST answers the records selected, FAULT_ACK marks one, and FAULT_CLEAR takes out a dock's
hold, or RIDER_REPORT where its bike stands, and resolves the record, each of the two without the other as well; with
neither it is NOT_FOUND. A LOCK_JAM cleared at a dock with a JAMMED_OPEN claim is told to the Release Controller.
TAG_UNREAD, TAG_CONFLICT, BATTERY_LOW, LINE_FAILED, and LINK_LOSS of a dock that is not LOST, are refused WRONG_STATE.
A record that is acknowledged leaves when it is RESOLVED; LINK_LOSS of a LOST dock resolves its record, and with an
ORPHAN claim ends the claim; the order of what that hands on is the model's choice (log 7). -/
def Obligations.FaultRequestsAreAnswered : Prop :=
  ∀ (s : State) (tag : Byte), s.ready →
    (∀ body sel skip max, Operands.faultList body = .ok (sel, skip, max) → ∀ chosen,
      chosen = (if sel then s.fault.table.filter (fun y => y.report == .new) else s.fault.table) →
      exec (.faultList tag body) s = .next
        { s with
          host := { s.host with outgoing := s.host.outgoing ++ [.reply 0x97 tag .ok (.faults
            { held := s.fault.table.length, selected := chosen.length, size := 4096 - s.store.layout.faultBase
              lost := s.fault.lost, records := (chosen.drop skip).take max })] }
          inFlight := s.inFlight.erase (.faultList tag body) })
    ∧ (∀ body x k y, Operands.faultName s body = .ok (x, k) → s.faultOf x k = some y → exec (.faultAck tag body) s = .next
        { s with
          fault := { s.fault with table :=
            (s.fault.table.filter fun z => !(z.subject == x && z.kind == k && z.condition == .resolved)).map fun z =>
              if z.subject = x ∧ z.kind = k then { z with report := .acked } else z }
          host := { s.host with outgoing := s.host.outgoing ++ [.reply 0x98 tag .ok (.condition y.condition)] }
          inFlight := s.inFlight.erase (.faultAck tag body) })
    ∧ (∀ body x k, Operands.faultName s body = .ok (x, k) → s.faultOf x k = none → exec (.faultAck tag body) s = .next
        { s with
          host := { s.host with outgoing := s.host.outgoing ++ [.reply 0x98 tag .notFound .nothing] }
          inFlight := s.inFlight.erase (.faultAck tag body) })
    ∧ (∀ body d r k, Operands.faultName s body = .ok (.dock d, k) → k ∈ [FaultKind.lockJam, .sensor, .chatter, .forcedRemoval] →
        s.dock? d = some r →
      (r.dockHolds.has k = true ∨ s.faultOf (.dock d) k ≠ none → ∃ t r', exec (.faultClear tag body) s = .next t ∧ t.dock? d = some r'
        ∧ r'.dockHolds = r.dockHolds.put k false ∧ t.fault = { s.fault with table := resolvedIn s (.dock d) k }
        ∧ (∀ c, stands s c → c.dock = d → c.state = .jammedOpen → k = .lockJam → r.dockHolds.lockJam = true →
            .lockJamCleared d ∈ t.inFlight)
        ∧ Answered t 0x19 tag .ok .nothing ∧ OtherDocksSame d s t ∧ Only [.host, .inFlight, .dock, .release, .fault] s t)
      ∧ (r.dockHolds.has k = false → s.faultOf (.dock d) k = none → OnlyRefused (.faultClear tag body) s 0x19 tag .notFound))
    ∧ (∀ body x k, Operands.faultName s body = .ok (x, k) → k ∈ [FaultKind.tagUnread, .tagConflict, .batteryLow, .lineFailed] →
        OnlyRefused (.faultClear tag body) s 0x19 tag .wrongState)
    ∧ (∀ body b, Operands.faultName s body = .ok (.bike b, .riderReport) → bikesKept s →
      (∀ d r, s.dock? d = some r → r.bike.map (·.id) = some b →
        r.bikeHolds.riderReport = true ∨ s.faultOf (.bike b) .riderReport ≠ none →
        ∃ t r', exec (.faultClear tag body) s = .next t ∧ t.dock? d = some r'
          ∧ r'.bikeHolds = { r.bikeHolds with riderReport := false }
          ∧ t.fault = { s.fault with table := resolvedIn s (.bike b) .riderReport } ∧ Answered t 0x19 tag .ok .nothing
          ∧ OtherDocksSame d s t ∧ Only [.host, .inFlight, .dock, .release, .fault] s t)
      ∧ ((∀ d r, s.dock? d = some r → r.bike.map (·.id) ≠ some b) → s.faultOf (.bike b) .riderReport ≠ none →
        exec (.faultClear tag body) s = .next
          { s with
            fault := { s.fault with table := resolvedIn s (.bike b) .riderReport }
            host := { s.host with outgoing := s.host.outgoing ++ [.reply 0x99 tag .ok .nothing] }
            inFlight := s.inFlight.erase (.faultClear tag body) })
      ∧ ((∀ d r, s.dock? d = some r → r.bike.map (·.id) = some b → r.bikeHolds.riderReport = false) →
        s.faultOf (.bike b) .riderReport = none → OnlyRefused (.faultClear tag body) s 0x19 tag .notFound))
    ∧ (∀ body d r, Operands.faultName s body = .ok (.dock d, .linkLoss) → s.dock? d = some r →
      (r.link ≠ .lost → OnlyRefused (.faultClear tag body) s 0x19 tag .wrongState)
      ∧ (∀ c, r.link = .lost → stands s c → c.dock = d → c.state = .orphan → ∃ t, exec (.faultClear tag body) s = .next t
        ∧ t.release.claims = s.release.claims.filter (fun x => x.dock != d)
        ∧ t.fault = { s.fault with table := resolvedIn s (.dock d) .linkLoss }
        ∧ HandedOn (.faultClear tag body) s t (untakenTold s c .lapsed) ∧ Answered t 0x19 tag .ok .nothing
        ∧ Only [.host, .inFlight, .dock, .release, .fault] s t)
      ∧ (r.link = .lost → (∀ c, s.claimOn d = some c → c.state ≠ .orphan) →
        (s.faultOf (.dock d) .linkLoss ≠ none → exec (.faultClear tag body) s = .next
          { s with
            fault := { s.fault with table := resolvedIn s (.dock d) .linkLoss }
            host := { s.host with outgoing := s.host.outgoing ++ [.reply 0x99 tag .ok .nothing] }
            inFlight := s.inFlight.erase (.faultClear tag body) })
        ∧ (s.faultOf (.dock d) .linkLoss = none → OnlyRefused (.faultClear tag body) s 0x19 tag .notFound)))

/-! ### Terminals -/

/-- R97, R98, R99, R112: a terminal's line. HELLO brings a DOWN line UP with the welcome screen; a break takes an UP line DOWN
and aborts its session; the fourth consecutive bad record disables the line and raises LINE_FAILED, and a record with a good
check starts the count again; TERMINAL_ENABLE makes a DISABLED line DOWN. The reply to TERMINAL_ENABLE stands after
the NOTICE that
the act makes due (log 7); the attempt number and the records kept are the model's (logs 12 and 19). -/
def Obligations.LinesComeAndGo : Prop :=
  ∀ (s : State) (x : TerminalId), s.ready → (s.terminal x).session.allocating = false →
    ((s.terminal x).line = .down → ∃ t, exec (.terminalHello x) s = .next t
        ∧ t.term = s.term.set x { s.terminal x with line := .up, badCount := 0, out := (s.terminal x).out ++ [.show .welcome] }
        ∧ NoticeKind.terminalChanged.inSet t.host.noticeSet = true ∧ Only [.host, .inFlight, .term] s t)
    ∧ ((s.terminal x).line = .up → (s.terminal x).session.state = .idle → exec (.terminalHello x) s = .next
        (withTerminal { s with inFlight := s.inFlight.erase (.terminalHello x) } x
          fun y => { y with badCount := 0, out := y.out ++ [.show .welcome] }))
    ∧ ((s.terminal x).line = .up → (s.terminal x).session.state ≠ .idle → ∀ c ∈ [Instr.terminalHello x, .lineBreak x],
        ∃ t, exec c s = .next t ∧ (t.terminal x).session = { attempt := (s.terminal x).session.attempt }
          ∧ t.card = (aborted s x).card ∧ t.release = (aborted s x).release
          ∧ (t.terminal x).line = (if c = .lineBreak x then .down else .up) ∧ Only [.host, .inFlight, .card, .release, .term] s t)
    ∧ ((s.terminal x).line = .up → (s.terminal x).session.state = .idle → ∃ t, exec (.lineBreak x) s = .next t
        ∧ t.term = s.term.set x { s.terminal x with line := .down }
        ∧ NoticeKind.terminalChanged.inSet t.host.noticeSet = true ∧ Only [.host, .inFlight, .term] s t)
    ∧ ((s.terminal x).line ≠ .up → OnlyTaken (.lineBreak x) s)
    ∧ ((s.terminal x).line ≠ .disabled → (s.terminal x).badCount < 3 → exec (.terminalBadRecord x) s = .next
        (withTerminal { s with inFlight := s.inFlight.erase (.terminalBadRecord x) } x fun y => { y with badCount := y.badCount + 1 }))
    ∧ ((s.terminal x).line ≠ .disabled → 3 ≤ (s.terminal x).badCount → ∃ t, exec (.terminalBadRecord x) s = .next t
        ∧ (t.terminal x).line = .disabled ∧ (t.terminal x).badCount = 0
        ∧ t.inFlight.getLast? = some (.faultRaise (.terminal x) .lineFailed none .nothing)
        ∧ NoticeKind.terminalChanged.inSet t.host.noticeSet = true ∧ Only [.host, .inFlight, .card, .release, .term] s t)
    ∧ ((s.terminal x).line ≠ .disabled → exec (.terminalRecordDiscarded x) s = .next
        (withTerminal { s with inFlight := s.inFlight.erase (.terminalRecordDiscarded x) } x fun y => { y with badCount := 0 }))
    ∧ ((s.terminal x).line = .disabled → ∀ c ∈ [Instr.terminalHello x, .terminalBadRecord x,
        .terminalRecordDiscarded x], OnlyTaken c s)
    ∧ (∀ tag : Byte, (s.terminal x).line = .disabled → ∃ t, exec (.terminalEnable tag [byteOf (Code.terminal x)]) s = .next t
        ∧ t.term = s.term.set x { s.terminal x with line := .down, badCount := 0 }
        ∧ (∀ y ∈ t.fault.table, y.subject = .terminal x → y.kind = .lineFailed → y.condition = .resolved)
        ∧ Answered t 0x1B tag .ok .nothing ∧ Only [.host, .inFlight, .term, .fault] s t)
    ∧ (∀ tag : Byte, (s.terminal x).line ≠ .disabled → exec (.terminalEnable tag [byteOf (Code.terminal x)]) s = .next
        { s with
          host := { s.host with outgoing := s.host.outgoing ++ [.reply 0x9B tag .ok .nothing] }
          inFlight := s.inFlight.erase (.terminalEnable tag [byteOf (Code.terminal x)]) })

/-- R101, R97: the four outputs follow the power state together, and the line of an output that was ON and is switched OFF goes
DOWN, its session aborted; every other line stays as it is. -/
def Obligations.TerminalsFollowThePower : Prop :=
  ∀ (s : State) (p : PowerState), s.ready → (∀ x, (s.terminal x).session.allocating = false) →
    ∃ t, exec (.terminalPowerSet p none) s = .next t
      ∧ (∀ x, (t.terminal x).power = (p == .mains)
          ∧ (p ≠ .mains → (s.terminal x).power = true → (s.terminal x).line = .up →
              (t.terminal x).line = .down ∧ (t.terminal x).session.state = .idle)
          ∧ (p = .mains ∨ (s.terminal x).power = false ∨ (s.terminal x).line ≠ .up →
              (t.terminal x).line = (s.terminal x).line ∧ (t.terminal x).session = (s.terminal x).session))
      ∧ Only [.host, .inFlight, .card, .release, .term] s t

/-- R103, R104, R107, R108, R111: what a rider does at an UP line. A TAP or PAID starts an attempt in IDLE and in CHOOSING, and
is refused BUSY otherwise; a PICK that the rights allow asks for the allocation; a CANCEL and the deadline of CHOOSING end the
attempt. While the session waits on the allocator, what arrives on its line waits for the answer (R108; log 11). Attempts are
numbered by the model (log 12), and a terminal keeps the records produced to it (log 19). -/
def Obligations.RidersUseTheTerminal : Prop :=
  (∀ (s : State) (x : TerminalId) (card : CardId) (cls : BikeClass) (rights : Byte) (expiry : ClockTime), s.ready →
    (s.terminal x).session.allocating = true →
    ∀ p ∈ [(Instr.terminalHello x, LineArrival.hello), (.terminalTap x card, .tap card),
        (.terminalPaid x card rights expiry, .paid card rights expiry), (.terminalPick x cls, .pick cls),
        (.terminalCancel x, .cancel), (.terminalBadRecord x, .bad), (.terminalRecordDiscarded x, .discarded),
        (.lineBreak x, .broken)],
      exec p.1 s = .next
        (withTerminal { s with inFlight := s.inFlight.erase p.1 } x fun z => { z with deferred := z.deferred ++ [p.2] }))
  ∧ ∀ (s : State) (x : TerminalId) (y : Terminal), s.ready → y = s.terminal x → y.session.allocating = false → y.line = .up →
    (∀ card c work, (c = .terminalTap x card ∧ card ≠ 0 ∧ work = .cardCheck card (.terminal x (y.session.attempt + 1)))
          ∨ (∃ rights expiry, c = .terminalPaid x card rights expiry
              ∧ work = .passSale x (y.session.attempt + 1) card rights expiry) →
      (y.session.state = .idle ∨ y.session.state = .choosing → exec c s = .next
        (withTerminal { s with inFlight := s.inFlight.erase c ++ [work] } x fun z =>
          { z with
            badCount := 0
            session := { state := .checking, card := some card, attempt := z.session.attempt + 1 }
            out := z.out ++ [.show .wait] }))
      ∧ (y.session.state = .checking ∨ y.session.state = .offered → exec c s = .next
        (withTerminal { s with inFlight := s.inFlight.erase c } x fun z =>
          { z with badCount := 0, out := z.out ++ [.refuse .busy] })))
    ∧ (∀ cls card origin, y.session.state = .choosing → y.session.card = some card → y.session.origin = some origin →
        ¬ (cls = .electric ∧ y.session.rights = some .standard) → exec (.terminalPick x cls) s = .next
        (withTerminal { s with inFlight := s.inFlight.erase (.terminalPick x cls) ++ [.allocation x cls card origin none] } x fun z =>
          { z with
            badCount := 0
            session := { z.session with state := .checking, cls := some cls, claimDock := none, deadline := none, allocating := true } }))
    ∧ (y.session.state = .choosing → y.session.rights = some .standard → exec (.terminalPick x .electric) s = .next
        (withTerminal { s with inFlight := s.inFlight.erase (.terminalPick x .electric) } x fun z =>
          { z with badCount := 0, session := { attempt := z.session.attempt }, out := z.out ++ [.refuse .noRight] }))
    ∧ (y.session.state = .choosing → exec (.terminalCancel x) s = .next
        (withTerminal { s with inFlight := s.inFlight.erase (.terminalCancel x) } x fun z =>
          { z with badCount := 0, session := { attempt := z.session.attempt }, out := z.out ++ [.show .welcome] }))
    ∧ (y.session.state ≠ .choosing → ∀ c ∈ [Instr.terminalPick x .standard, .terminalPick x .electric, .terminalCancel x],
        exec c s = .next (withTerminal { s with inFlight := s.inFlight.erase c } x fun z => { z with badCount := 0 }))
    ∧ (∀ d, y.session.state = .choosing → y.session.deadline = some d → d ≤ s.now → exec (.choosingDeadline x) s = .next
        (withTerminal { s with inFlight := s.inFlight.erase (.choosingDeadline x) } x fun z =>
          { z with session := { attempt := z.session.attempt }, out := z.out ++ [.show .welcome] }))

/-- R105, R106, R108, R109, R110, R113: what a session is told. A result it waits for refuses it, completes it, or has it choose a
class; the news of its claim is shown, and a first FAILED asks for another dock; what it does not wait for, a result of another
attempt (log 12) among it, is discarded; at the deadline of OFFERED it gives its claim up. The terminal keeps the records produced
to it (log 19). -/
def Obligations.SessionsAreTold : Prop :=
  ∀ (s : State) (x : TerminalId) (y : Terminal), s.ready → y = s.terminal x → y.line = .up →
    (∀ result record, y.session.state = .checking → y.session.allocating = false →
        (result, record) ∈ [(CheckResult.vanOpened, TermRecord.done .vanOpened), (.vanClosed, .done .vanClosed)]
          ∨ (∃ why, result = .deny why ∧ record = .refuse why) →
      exec (.checkResultAtSession x y.session.attempt result) s = .next
        (withTerminal { s with inFlight := s.inFlight.erase (.checkResultAtSession x y.session.attempt result) } x fun z =>
          { z with session := { attempt := z.session.attempt }, out := z.out ++ [record] }))
    ∧ (∀ card origin rights, y.session.state = .checking → y.session.allocating = false → y.session.card = some card →
        ∃ t, exec (.checkResultAtSession x y.session.attempt (.member card origin rights)) s = .next t
          ∧ (∀ standard electric, standard = s.classAvailable .standard →
              electric = (decide (rights = .standardElectric) && s.classAvailable .electric) →
              (standard = true → electric = true → (t.terminal x).session.state = .choosing
                ∧ (t.terminal x).session.deadline = some (s.now + s.store.live.terminalIdle)
                ∧ (t.terminal x).out = y.out ++ [.show .choose])
              ∧ (standard ≠ electric → (t.terminal x).session.state = .checking ∧ t.inFlight.getLast? = some
                  (.allocation x (if standard = true then .standard else .electric) card origin none))
              ∧ (standard = false → electric = false → (t.terminal x).session.state = .idle
                ∧ (t.terminal x).out = y.out ++ [.refuse .noBike]))
          ∧ Only [.inFlight, .term] s t)
    ∧ (∀ attempt result, y.session.state ≠ .checking ∨ attempt ≠ y.session.attempt →
        OnlyTaken (.checkResultAtSession x attempt result) s)
    ∧ (∀ d w, y.session.state = .offered → y.session.claimDock = some d →
      exec (.claimNoticeAtSession x d (.released w)) s = .next
        (withTerminal { s with inFlight := s.inFlight.erase (.claimNoticeAtSession x d (.released w)) } x fun z =>
          { z with
            session := { z.session with deadline := some (s.now + w + 5 + s.store.live.terminalIdle) }
            out := z.out ++ [.show .take] }))
    ∧ (∀ d news record, y.session.state = .offered → y.session.claimDock = some d →
        (news, record) ∈ [(ClaimNews.taken, TermRecord.done .hire), (.lapsed, .refuse .lapsed)]
          ∨ (news = .failed ∧ y.session.reallocated = true ∧ record = .refuse .jammed) →
      exec (.claimNoticeAtSession x d news) s = .next
        (withTerminal { s with inFlight := s.inFlight.erase (.claimNoticeAtSession x d news) } x fun z =>
          { z with session := { attempt := z.session.attempt }, out := z.out ++ [record] }))
    ∧ (∀ d cls card origin, y.session.state = .offered → y.session.claimDock = some d → y.session.reallocated = false →
        y.session.cls = some cls → y.session.card = some card → y.session.origin = some origin →
      exec (.claimNoticeAtSession x d .failed) s = .next
        (withTerminal { s with
          inFlight := s.inFlight.erase (.claimNoticeAtSession x d .failed) ++ [.allocation x cls card origin
              (some d)] } x fun z =>
          { z with session := { z.session with state := .checking, claimDock := none, deadline := none, allocating := true,
                                               reallocated := true } }))
    ∧ (∀ d news, y.session.state ≠ .offered ∨ y.session.claimDock ≠ some d → OnlyTaken (.claimNoticeAtSession x d news) s)
    ∧ (∀ d, y.session.state = .offered → y.session.deadline = some d → d ≤ s.now → ∃ t, exec (.offeredDeadline x) s = .next t
        ∧ t.release = (aborted s x).release
        ∧ t.term = s.term.set x { y with session := { attempt := y.session.attempt }, out := y.out ++ [.refuse .jammed] }
        ∧ HandedOn (.offeredDeadline x) s t [] ∧ Only [.inFlight, .release, .term] s t)

/-! ### The machine after reset, and what every step keeps -/

/-- R175, R179, R180, R2, R183, R188: the machine after its first power-up is a cold start of the default layout, CONFIGURING,
with empty collections, a journal numbered from 1, START and CLOCK_UNSET in the notice set, and the reset line high (log 20).
Every property that the invariants keep holds there. -/
def Obligations.StateAfterReset : Prop :=
  State.reset.phase = .running ∧ State.reset.dock.table = List.replicate 64 {} ∧ State.reset.card.table = []
    ∧ State.reset.release.claims = [] ∧ State.reset.journal.entries = [] ∧ State.reset.order.queue = []
    ∧ State.reset.fault.table = [] ∧ State.reset.store.station = .configuring ∧ State.reset.store.nextSeq = 1
    ∧ State.reset.store.layout = { dockCount := 64, journalBase := 2048, faultBase := 3584 } ∧ State.reset.slack = 1536
    ∧ State.reset.store.resetCause = .cold ∧ State.reset.store.warm = false ∧ State.reset.store.clockUnset = true
    ∧ State.reset.resetLow = false ∧ State.reset.supply.power = .battery
        ∧ State.reset.host.noticeSet = NoticeKind.start.bit ||| NoticeKind.clockUnset.bit
    ∧ State.reset.host.noticeMask = 0x0FFF ∧ State.reset.ready
    ∧ State.reset.numbered ∧ State.reset.configured ∧ State.reset.hostBounded ∧ State.reset.faultsKept ∧ State.reset.cardsKept
    ∧ State.reset.queriesKept ∧ State.reset.claimsKept ∧ State.reset.levelsKept ∧ slotsKept State.reset ∧ bikesKept State.reset
    ∧ State.reset.graceKept ∧ State.reset.ordersKept ∧ State.reset.terminalsKept

/-- R116: every step keeps the entries numbered without a gap up to the next number, and no number 0. -/
def Obligations.NumberingIsKept : Prop := keptByStep State.numbered

/-- R184, R185, R1, R190, R191, R193: the layout and the settings stay valid, with one dock record and one account for each
dock; at most two frames wait, and the counts of the host link stay in their ranges. -/
def Obligations.ConfigurationAndLinkAreKept : Prop := keptByStep fun s => s.configured ∧ s.hostBounded

/-- R45, R61, R91, R98, R102, R132, R154: the card table, the query list, the fault table, the grace list, the order queue and the
terminals keep their capacities, their keys and the conditions on their records. -/
def Obligations.TablesAreKept : Prop :=
  keptByStep fun s => s.cardsKept ∧ s.queriesKept ∧ s.faultsKept ∧ s.graceKept ∧ s.ordersKept ∧ s.terminalsKept

/-- The laws of R70 and R88: a dock carries at most one claim, a card is holder of at most one that is being released, and no
claim in RESERVED or RELEASE_SENT stands on a dock below the level its kind needs. -/
def Obligations.ClaimsAreKept : Prop := keptByStep fun s => s.claimsKept ∧ s.levelsKept

/-- The laws of R37 and R91: a slot commanded OPEN, or withheld, has a level above CLOSED, and a bike stands in one
dock record. -/
def Obligations.SlotsAndBikesAreKept : Prop := keptByStep fun s => slotsKept s ∧ bikesKept s
end

