-- ==== Sys2Proof/Laws/State.lean ====
section
/-! SUPPORT. One lemma for each field and each update of Machine/Ops.lean, true by rfl: no proof unfolds a record update. -/

namespace Sys2Proof.Machine

@[simp] theorem onHost_phase (s : State) (f : HostLink → HostLink) : (s.onHost f).phase = s.phase := rfl
@[simp] theorem onHost_now (s : State) (f : HostLink → HostLink) : (s.onHost f).now = s.now := rfl
@[simp] theorem onHost_pending (s : State) (f : HostLink → HostLink) : (s.onHost f).pending = s.pending := rfl
@[simp] theorem onHost_inFlight (s : State) (f : HostLink → HostLink) : (s.onHost f).inFlight = s.inFlight := rfl
@[simp] theorem onHost_straps (s : State) (f : HostLink → HostLink) : (s.onHost f).straps = s.straps := rfl
@[simp] theorem onHost_host (s : State) (f : HostLink → HostLink) : (s.onHost f).host = f s.host := rfl
@[simp] theorem onHost_dock (s : State) (f : HostLink → HostLink) : (s.onHost f).dock = s.dock := rfl
@[simp] theorem onHost_card (s : State) (f : HostLink → HostLink) : (s.onHost f).card = s.card := rfl
@[simp] theorem onHost_release (s : State) (f : HostLink → HostLink) : (s.onHost f).release = s.release := rfl
@[simp] theorem onHost_term (s : State) (f : HostLink → HostLink) : (s.onHost f).term = s.term := rfl
@[simp] theorem onHost_journal (s : State) (f : HostLink → HostLink) : (s.onHost f).journal = s.journal := rfl
@[simp] theorem onHost_order (s : State) (f : HostLink → HostLink) : (s.onHost f).order = s.order := rfl
@[simp] theorem onHost_fault (s : State) (f : HostLink → HostLink) : (s.onHost f).fault = s.fault := rfl
@[simp] theorem onHost_supply (s : State) (f : HostLink → HostLink) : (s.onHost f).supply = s.supply := rfl
@[simp] theorem onHost_store (s : State) (f : HostLink → HostLink) : (s.onHost f).store = s.store := rfl

@[simp] theorem onDocks_phase (s : State) (f : DockUnit → DockUnit) : (s.onDocks f).phase = s.phase := rfl
@[simp] theorem onDocks_now (s : State) (f : DockUnit → DockUnit) : (s.onDocks f).now = s.now := rfl
@[simp] theorem onDocks_pending (s : State) (f : DockUnit → DockUnit) : (s.onDocks f).pending = s.pending := rfl
@[simp] theorem onDocks_inFlight (s : State) (f : DockUnit → DockUnit) : (s.onDocks f).inFlight = s.inFlight := rfl
@[simp] theorem onDocks_straps (s : State) (f : DockUnit → DockUnit) : (s.onDocks f).straps = s.straps := rfl
@[simp] theorem onDocks_host (s : State) (f : DockUnit → DockUnit) : (s.onDocks f).host = s.host := rfl
@[simp] theorem onDocks_dock (s : State) (f : DockUnit → DockUnit) : (s.onDocks f).dock = f s.dock := rfl
@[simp] theorem onDocks_card (s : State) (f : DockUnit → DockUnit) : (s.onDocks f).card = s.card := rfl
@[simp] theorem onDocks_release (s : State) (f : DockUnit → DockUnit) : (s.onDocks f).release = s.release := rfl
@[simp] theorem onDocks_term (s : State) (f : DockUnit → DockUnit) : (s.onDocks f).term = s.term := rfl
@[simp] theorem onDocks_journal (s : State) (f : DockUnit → DockUnit) : (s.onDocks f).journal = s.journal := rfl
@[simp] theorem onDocks_order (s : State) (f : DockUnit → DockUnit) : (s.onDocks f).order = s.order := rfl
@[simp] theorem onDocks_fault (s : State) (f : DockUnit → DockUnit) : (s.onDocks f).fault = s.fault := rfl
@[simp] theorem onDocks_supply (s : State) (f : DockUnit → DockUnit) : (s.onDocks f).supply = s.supply := rfl
@[simp] theorem onDocks_store (s : State) (f : DockUnit → DockUnit) : (s.onDocks f).store = s.store := rfl

@[simp] theorem onCards_phase (s : State) (f : CardUnit → CardUnit) : (s.onCards f).phase = s.phase := rfl
@[simp] theorem onCards_now (s : State) (f : CardUnit → CardUnit) : (s.onCards f).now = s.now := rfl
@[simp] theorem onCards_pending (s : State) (f : CardUnit → CardUnit) : (s.onCards f).pending = s.pending := rfl
@[simp] theorem onCards_inFlight (s : State) (f : CardUnit → CardUnit) : (s.onCards f).inFlight = s.inFlight := rfl
@[simp] theorem onCards_straps (s : State) (f : CardUnit → CardUnit) : (s.onCards f).straps = s.straps := rfl
@[simp] theorem onCards_host (s : State) (f : CardUnit → CardUnit) : (s.onCards f).host = s.host := rfl
@[simp] theorem onCards_dock (s : State) (f : CardUnit → CardUnit) : (s.onCards f).dock = s.dock := rfl
@[simp] theorem onCards_card (s : State) (f : CardUnit → CardUnit) : (s.onCards f).card = f s.card := rfl
@[simp] theorem onCards_release (s : State) (f : CardUnit → CardUnit) : (s.onCards f).release = s.release := rfl
@[simp] theorem onCards_term (s : State) (f : CardUnit → CardUnit) : (s.onCards f).term = s.term := rfl
@[simp] theorem onCards_journal (s : State) (f : CardUnit → CardUnit) : (s.onCards f).journal = s.journal := rfl
@[simp] theorem onCards_order (s : State) (f : CardUnit → CardUnit) : (s.onCards f).order = s.order := rfl
@[simp] theorem onCards_fault (s : State) (f : CardUnit → CardUnit) : (s.onCards f).fault = s.fault := rfl
@[simp] theorem onCards_supply (s : State) (f : CardUnit → CardUnit) : (s.onCards f).supply = s.supply := rfl
@[simp] theorem onCards_store (s : State) (f : CardUnit → CardUnit) : (s.onCards f).store = s.store := rfl

@[simp] theorem onRelease_phase (s : State) (f : ReleaseUnit → ReleaseUnit) : (s.onRelease f).phase = s.phase := rfl
@[simp] theorem onRelease_now (s : State) (f : ReleaseUnit → ReleaseUnit) : (s.onRelease f).now = s.now := rfl
@[simp] theorem onRelease_pending (s : State) (f : ReleaseUnit → ReleaseUnit) : (s.onRelease f).pending = s.pending := rfl
@[simp] theorem onRelease_inFlight (s : State) (f : ReleaseUnit → ReleaseUnit) : (s.onRelease f).inFlight = s.inFlight := rfl
@[simp] theorem onRelease_straps (s : State) (f : ReleaseUnit → ReleaseUnit) : (s.onRelease f).straps = s.straps := rfl
@[simp] theorem onRelease_host (s : State) (f : ReleaseUnit → ReleaseUnit) : (s.onRelease f).host = s.host := rfl
@[simp] theorem onRelease_dock (s : State) (f : ReleaseUnit → ReleaseUnit) : (s.onRelease f).dock = s.dock := rfl
@[simp] theorem onRelease_card (s : State) (f : ReleaseUnit → ReleaseUnit) : (s.onRelease f).card = s.card := rfl
@[simp] theorem onRelease_release (s : State) (f : ReleaseUnit → ReleaseUnit) : (s.onRelease f).release = f s.release := rfl
@[simp] theorem onRelease_term (s : State) (f : ReleaseUnit → ReleaseUnit) : (s.onRelease f).term = s.term := rfl
@[simp] theorem onRelease_journal (s : State) (f : ReleaseUnit → ReleaseUnit) : (s.onRelease f).journal = s.journal := rfl
@[simp] theorem onRelease_order (s : State) (f : ReleaseUnit → ReleaseUnit) : (s.onRelease f).order = s.order := rfl
@[simp] theorem onRelease_fault (s : State) (f : ReleaseUnit → ReleaseUnit) : (s.onRelease f).fault = s.fault := rfl
@[simp] theorem onRelease_supply (s : State) (f : ReleaseUnit → ReleaseUnit) : (s.onRelease f).supply = s.supply := rfl
@[simp] theorem onRelease_store (s : State) (f : ReleaseUnit → ReleaseUnit) : (s.onRelease f).store = s.store := rfl

@[simp] theorem onJournal_phase (s : State) (f : Journal → Journal) : (s.onJournal f).phase = s.phase := rfl
@[simp] theorem onJournal_now (s : State) (f : Journal → Journal) : (s.onJournal f).now = s.now := rfl
@[simp] theorem onJournal_pending (s : State) (f : Journal → Journal) : (s.onJournal f).pending = s.pending := rfl
@[simp] theorem onJournal_inFlight (s : State) (f : Journal → Journal) : (s.onJournal f).inFlight = s.inFlight := rfl
@[simp] theorem onJournal_straps (s : State) (f : Journal → Journal) : (s.onJournal f).straps = s.straps := rfl
@[simp] theorem onJournal_host (s : State) (f : Journal → Journal) : (s.onJournal f).host = s.host := rfl
@[simp] theorem onJournal_dock (s : State) (f : Journal → Journal) : (s.onJournal f).dock = s.dock := rfl
@[simp] theorem onJournal_card (s : State) (f : Journal → Journal) : (s.onJournal f).card = s.card := rfl
@[simp] theorem onJournal_release (s : State) (f : Journal → Journal) : (s.onJournal f).release = s.release := rfl
@[simp] theorem onJournal_term (s : State) (f : Journal → Journal) : (s.onJournal f).term = s.term := rfl
@[simp] theorem onJournal_journal (s : State) (f : Journal → Journal) : (s.onJournal f).journal = f s.journal := rfl
@[simp] theorem onJournal_order (s : State) (f : Journal → Journal) : (s.onJournal f).order = s.order := rfl
@[simp] theorem onJournal_fault (s : State) (f : Journal → Journal) : (s.onJournal f).fault = s.fault := rfl
@[simp] theorem onJournal_supply (s : State) (f : Journal → Journal) : (s.onJournal f).supply = s.supply := rfl
@[simp] theorem onJournal_store (s : State) (f : Journal → Journal) : (s.onJournal f).store = s.store := rfl

@[simp] theorem onOrders_phase (s : State) (f : OrderUnit → OrderUnit) : (s.onOrders f).phase = s.phase := rfl
@[simp] theorem onOrders_now (s : State) (f : OrderUnit → OrderUnit) : (s.onOrders f).now = s.now := rfl
@[simp] theorem onOrders_pending (s : State) (f : OrderUnit → OrderUnit) : (s.onOrders f).pending = s.pending := rfl
@[simp] theorem onOrders_inFlight (s : State) (f : OrderUnit → OrderUnit) : (s.onOrders f).inFlight = s.inFlight := rfl
@[simp] theorem onOrders_straps (s : State) (f : OrderUnit → OrderUnit) : (s.onOrders f).straps = s.straps := rfl
@[simp] theorem onOrders_host (s : State) (f : OrderUnit → OrderUnit) : (s.onOrders f).host = s.host := rfl
@[simp] theorem onOrders_dock (s : State) (f : OrderUnit → OrderUnit) : (s.onOrders f).dock = s.dock := rfl
@[simp] theorem onOrders_card (s : State) (f : OrderUnit → OrderUnit) : (s.onOrders f).card = s.card := rfl
@[simp] theorem onOrders_release (s : State) (f : OrderUnit → OrderUnit) : (s.onOrders f).release = s.release := rfl
@[simp] theorem onOrders_term (s : State) (f : OrderUnit → OrderUnit) : (s.onOrders f).term = s.term := rfl
@[simp] theorem onOrders_journal (s : State) (f : OrderUnit → OrderUnit) : (s.onOrders f).journal = s.journal := rfl
@[simp] theorem onOrders_order (s : State) (f : OrderUnit → OrderUnit) : (s.onOrders f).order = f s.order := rfl
@[simp] theorem onOrders_fault (s : State) (f : OrderUnit → OrderUnit) : (s.onOrders f).fault = s.fault := rfl
@[simp] theorem onOrders_supply (s : State) (f : OrderUnit → OrderUnit) : (s.onOrders f).supply = s.supply := rfl
@[simp] theorem onOrders_store (s : State) (f : OrderUnit → OrderUnit) : (s.onOrders f).store = s.store := rfl

@[simp] theorem onFaults_phase (s : State) (f : FaultUnit → FaultUnit) : (s.onFaults f).phase = s.phase := rfl
@[simp] theorem onFaults_now (s : State) (f : FaultUnit → FaultUnit) : (s.onFaults f).now = s.now := rfl
@[simp] theorem onFaults_pending (s : State) (f : FaultUnit → FaultUnit) : (s.onFaults f).pending = s.pending := rfl
@[simp] theorem onFaults_inFlight (s : State) (f : FaultUnit → FaultUnit) : (s.onFaults f).inFlight = s.inFlight := rfl
@[simp] theorem onFaults_straps (s : State) (f : FaultUnit → FaultUnit) : (s.onFaults f).straps = s.straps := rfl
@[simp] theorem onFaults_host (s : State) (f : FaultUnit → FaultUnit) : (s.onFaults f).host = s.host := rfl
@[simp] theorem onFaults_dock (s : State) (f : FaultUnit → FaultUnit) : (s.onFaults f).dock = s.dock := rfl
@[simp] theorem onFaults_card (s : State) (f : FaultUnit → FaultUnit) : (s.onFaults f).card = s.card := rfl
@[simp] theorem onFaults_release (s : State) (f : FaultUnit → FaultUnit) : (s.onFaults f).release = s.release := rfl
@[simp] theorem onFaults_term (s : State) (f : FaultUnit → FaultUnit) : (s.onFaults f).term = s.term := rfl
@[simp] theorem onFaults_journal (s : State) (f : FaultUnit → FaultUnit) : (s.onFaults f).journal = s.journal := rfl
@[simp] theorem onFaults_order (s : State) (f : FaultUnit → FaultUnit) : (s.onFaults f).order = s.order := rfl
@[simp] theorem onFaults_fault (s : State) (f : FaultUnit → FaultUnit) : (s.onFaults f).fault = f s.fault := rfl
@[simp] theorem onFaults_supply (s : State) (f : FaultUnit → FaultUnit) : (s.onFaults f).supply = s.supply := rfl
@[simp] theorem onFaults_store (s : State) (f : FaultUnit → FaultUnit) : (s.onFaults f).store = s.store := rfl

@[simp] theorem onSupply_phase (s : State) (f : SupplyMonitor → SupplyMonitor) : (s.onSupply f).phase = s.phase := rfl
@[simp] theorem onSupply_now (s : State) (f : SupplyMonitor → SupplyMonitor) : (s.onSupply f).now = s.now := rfl
@[simp] theorem onSupply_pending (s : State) (f : SupplyMonitor → SupplyMonitor) : (s.onSupply f).pending = s.pending := rfl
@[simp] theorem onSupply_inFlight (s : State) (f : SupplyMonitor → SupplyMonitor) : (s.onSupply f).inFlight = s.inFlight := rfl
@[simp] theorem onSupply_straps (s : State) (f : SupplyMonitor → SupplyMonitor) : (s.onSupply f).straps = s.straps := rfl
@[simp] theorem onSupply_host (s : State) (f : SupplyMonitor → SupplyMonitor) : (s.onSupply f).host = s.host := rfl
@[simp] theorem onSupply_dock (s : State) (f : SupplyMonitor → SupplyMonitor) : (s.onSupply f).dock = s.dock := rfl
@[simp] theorem onSupply_card (s : State) (f : SupplyMonitor → SupplyMonitor) : (s.onSupply f).card = s.card := rfl
@[simp] theorem onSupply_release (s : State) (f : SupplyMonitor → SupplyMonitor) : (s.onSupply f).release = s.release := rfl
@[simp] theorem onSupply_term (s : State) (f : SupplyMonitor → SupplyMonitor) : (s.onSupply f).term = s.term := rfl
@[simp] theorem onSupply_journal (s : State) (f : SupplyMonitor → SupplyMonitor) : (s.onSupply f).journal = s.journal := rfl
@[simp] theorem onSupply_order (s : State) (f : SupplyMonitor → SupplyMonitor) : (s.onSupply f).order = s.order := rfl
@[simp] theorem onSupply_fault (s : State) (f : SupplyMonitor → SupplyMonitor) : (s.onSupply f).fault = s.fault := rfl
@[simp] theorem onSupply_supply (s : State) (f : SupplyMonitor → SupplyMonitor) : (s.onSupply f).supply = f s.supply := rfl
@[simp] theorem onSupply_store (s : State) (f : SupplyMonitor → SupplyMonitor) : (s.onSupply f).store = s.store := rfl

@[simp] theorem onStore_phase (s : State) (f : Store → Store) : (s.onStore f).phase = s.phase := rfl
@[simp] theorem onStore_now (s : State) (f : Store → Store) : (s.onStore f).now = s.now := rfl
@[simp] theorem onStore_pending (s : State) (f : Store → Store) : (s.onStore f).pending = s.pending := rfl
@[simp] theorem onStore_inFlight (s : State) (f : Store → Store) : (s.onStore f).inFlight = s.inFlight := rfl
@[simp] theorem onStore_straps (s : State) (f : Store → Store) : (s.onStore f).straps = s.straps := rfl
@[simp] theorem onStore_host (s : State) (f : Store → Store) : (s.onStore f).host = s.host := rfl
@[simp] theorem onStore_dock (s : State) (f : Store → Store) : (s.onStore f).dock = s.dock := rfl
@[simp] theorem onStore_card (s : State) (f : Store → Store) : (s.onStore f).card = s.card := rfl
@[simp] theorem onStore_release (s : State) (f : Store → Store) : (s.onStore f).release = s.release := rfl
@[simp] theorem onStore_term (s : State) (f : Store → Store) : (s.onStore f).term = s.term := rfl
@[simp] theorem onStore_journal (s : State) (f : Store → Store) : (s.onStore f).journal = s.journal := rfl
@[simp] theorem onStore_order (s : State) (f : Store → Store) : (s.onStore f).order = s.order := rfl
@[simp] theorem onStore_fault (s : State) (f : Store → Store) : (s.onStore f).fault = s.fault := rfl
@[simp] theorem onStore_supply (s : State) (f : Store → Store) : (s.onStore f).supply = s.supply := rfl
@[simp] theorem onStore_store (s : State) (f : Store → Store) : (s.onStore f).store = f s.store := rfl

@[simp] theorem onTerminal_phase (s : State) (t : TerminalId) (f : Terminal → Terminal) :
    (s.onTerminal t f).phase = s.phase := rfl
@[simp] theorem onTerminal_now (s : State) (t : TerminalId) (f : Terminal → Terminal) : (s.onTerminal t f).now = s.now := rfl
@[simp] theorem onTerminal_pending (s : State) (t : TerminalId) (f : Terminal → Terminal) :
    (s.onTerminal t f).pending = s.pending := rfl
@[simp] theorem onTerminal_inFlight (s : State) (t : TerminalId) (f : Terminal → Terminal) :
    (s.onTerminal t f).inFlight = s.inFlight := rfl
@[simp] theorem onTerminal_straps (s : State) (t : TerminalId) (f : Terminal → Terminal) :
    (s.onTerminal t f).straps = s.straps := rfl
@[simp] theorem onTerminal_host (s : State) (t : TerminalId) (f : Terminal → Terminal) : (s.onTerminal t f).host = s.host := rfl
@[simp] theorem onTerminal_dock (s : State) (t : TerminalId) (f : Terminal → Terminal) : (s.onTerminal t f).dock = s.dock := rfl
@[simp] theorem onTerminal_card (s : State) (t : TerminalId) (f : Terminal → Terminal) : (s.onTerminal t f).card = s.card := rfl
@[simp] theorem onTerminal_release (s : State) (t : TerminalId) (f : Terminal → Terminal) :
    (s.onTerminal t f).release = s.release := rfl
@[simp] theorem onTerminal_term (s : State) (t : TerminalId) (f : Terminal → Terminal) :
    (s.onTerminal t f).term = s.term.set t (f (s.term.get t)) := rfl
@[simp] theorem onTerminal_journal (s : State) (t : TerminalId) (f : Terminal → Terminal) :
    (s.onTerminal t f).journal = s.journal := rfl
@[simp] theorem onTerminal_order (s : State) (t : TerminalId) (f : Terminal → Terminal) :
    (s.onTerminal t f).order = s.order := rfl
@[simp] theorem onTerminal_fault (s : State) (t : TerminalId) (f : Terminal → Terminal) :
    (s.onTerminal t f).fault = s.fault := rfl
@[simp] theorem onTerminal_supply (s : State) (t : TerminalId) (f : Terminal → Terminal) :
    (s.onTerminal t f).supply = s.supply := rfl
@[simp] theorem onTerminal_store (s : State) (t : TerminalId) (f : Terminal → Terminal) :
    (s.onTerminal t f).store = s.store := rfl

@[simp] theorem onSession_phase (s : State) (t : TerminalId) (f : Session → Session) : (s.onSession t f).phase = s.phase := rfl
@[simp] theorem onSession_now (s : State) (t : TerminalId) (f : Session → Session) : (s.onSession t f).now = s.now := rfl
@[simp] theorem onSession_pending (s : State) (t : TerminalId) (f : Session → Session) :
    (s.onSession t f).pending = s.pending := rfl
@[simp] theorem onSession_inFlight (s : State) (t : TerminalId) (f : Session → Session) :
    (s.onSession t f).inFlight = s.inFlight := rfl
@[simp] theorem onSession_straps (s : State) (t : TerminalId) (f : Session → Session) : (s.onSession t f).straps = s.straps := rfl
@[simp] theorem onSession_host (s : State) (t : TerminalId) (f : Session → Session) : (s.onSession t f).host = s.host := rfl
@[simp] theorem onSession_dock (s : State) (t : TerminalId) (f : Session → Session) : (s.onSession t f).dock = s.dock := rfl
@[simp] theorem onSession_card (s : State) (t : TerminalId) (f : Session → Session) : (s.onSession t f).card = s.card := rfl
@[simp] theorem onSession_release (s : State) (t : TerminalId) (f : Session → Session) :
    (s.onSession t f).release = s.release := rfl
@[simp] theorem onSession_term (s : State) (t : TerminalId) (f : Session → Session) :
    (s.onSession t f).term = s.term.set t { s.term.get t with session := f (s.term.get t).session } := rfl
@[simp] theorem onSession_journal (s : State) (t : TerminalId) (f : Session → Session) :
    (s.onSession t f).journal = s.journal := rfl
@[simp] theorem onSession_order (s : State) (t : TerminalId) (f : Session → Session) : (s.onSession t f).order = s.order := rfl
@[simp] theorem onSession_fault (s : State) (t : TerminalId) (f : Session → Session) : (s.onSession t f).fault = s.fault := rfl
@[simp] theorem onSession_supply (s : State) (t : TerminalId) (f : Session → Session) : (s.onSession t f).supply = s.supply := rfl
@[simp] theorem onSession_store (s : State) (t : TerminalId) (f : Session → Session) : (s.onSession t f).store = s.store := rfl

@[simp] theorem onDock_phase (s : State) (d : DockNo) (f : DockRecord → DockRecord) : (s.onDock d f).phase = s.phase := rfl
@[simp] theorem onDock_now (s : State) (d : DockNo) (f : DockRecord → DockRecord) : (s.onDock d f).now = s.now := rfl
@[simp] theorem onDock_pending (s : State) (d : DockNo) (f : DockRecord → DockRecord) : (s.onDock d f).pending = s.pending := rfl
@[simp] theorem onDock_inFlight (s : State) (d : DockNo) (f : DockRecord → DockRecord) :
    (s.onDock d f).inFlight = s.inFlight := rfl
@[simp] theorem onDock_straps (s : State) (d : DockNo) (f : DockRecord → DockRecord) : (s.onDock d f).straps = s.straps := rfl
@[simp] theorem onDock_host (s : State) (d : DockNo) (f : DockRecord → DockRecord) : (s.onDock d f).host = s.host := rfl
@[simp] theorem onDock_dock (s : State) (d : DockNo) (f : DockRecord → DockRecord) :
    (s.onDock d f).dock = { s.dock with table := s.dock.table.modify d f } := rfl
@[simp] theorem onDock_card (s : State) (d : DockNo) (f : DockRecord → DockRecord) : (s.onDock d f).card = s.card := rfl
@[simp] theorem onDock_release (s : State) (d : DockNo) (f : DockRecord → DockRecord) : (s.onDock d f).release = s.release := rfl
@[simp] theorem onDock_term (s : State) (d : DockNo) (f : DockRecord → DockRecord) : (s.onDock d f).term = s.term := rfl
@[simp] theorem onDock_journal (s : State) (d : DockNo) (f : DockRecord → DockRecord) : (s.onDock d f).journal = s.journal := rfl
@[simp] theorem onDock_order (s : State) (d : DockNo) (f : DockRecord → DockRecord) : (s.onDock d f).order = s.order := rfl
@[simp] theorem onDock_fault (s : State) (d : DockNo) (f : DockRecord → DockRecord) : (s.onDock d f).fault = s.fault := rfl
@[simp] theorem onDock_supply (s : State) (d : DockNo) (f : DockRecord → DockRecord) : (s.onDock d f).supply = s.supply := rfl
@[simp] theorem onDock_store (s : State) (d : DockNo) (f : DockRecord → DockRecord) : (s.onDock d f).store = s.store := rfl

@[simp] theorem onVan_phase (s : State) (f : VanSession → VanSession) : (s.onVan f).phase = s.phase := rfl
@[simp] theorem onVan_now (s : State) (f : VanSession → VanSession) : (s.onVan f).now = s.now := rfl
@[simp] theorem onVan_pending (s : State) (f : VanSession → VanSession) : (s.onVan f).pending = s.pending := rfl
@[simp] theorem onVan_inFlight (s : State) (f : VanSession → VanSession) : (s.onVan f).inFlight = s.inFlight := rfl
@[simp] theorem onVan_straps (s : State) (f : VanSession → VanSession) : (s.onVan f).straps = s.straps := rfl
@[simp] theorem onVan_host (s : State) (f : VanSession → VanSession) : (s.onVan f).host = s.host := rfl
@[simp] theorem onVan_dock (s : State) (f : VanSession → VanSession) : (s.onVan f).dock = s.dock := rfl
@[simp] theorem onVan_card (s : State) (f : VanSession → VanSession) : (s.onVan f).card = s.card := rfl
@[simp] theorem onVan_release (s : State) (f : VanSession → VanSession) : (s.onVan f).release = s.release := rfl
@[simp] theorem onVan_term (s : State) (f : VanSession → VanSession) : (s.onVan f).term = s.term := rfl
@[simp] theorem onVan_journal (s : State) (f : VanSession → VanSession) : (s.onVan f).journal = s.journal := rfl
@[simp] theorem onVan_order (s : State) (f : VanSession → VanSession) :
    (s.onVan f).order = { s.order with session := s.order.session.map f } := rfl
@[simp] theorem onVan_fault (s : State) (f : VanSession → VanSession) : (s.onVan f).fault = s.fault := rfl
@[simp] theorem onVan_supply (s : State) (f : VanSession → VanSession) : (s.onVan f).supply = s.supply := rfl
@[simp] theorem onVan_store (s : State) (f : VanSession → VanSession) : (s.onVan f).store = s.store := rfl

@[simp] theorem post_phase (s : State) (i : Instr) : (s.post i).phase = s.phase := rfl
@[simp] theorem post_now (s : State) (i : Instr) : (s.post i).now = s.now := rfl
@[simp] theorem post_pending (s : State) (i : Instr) : (s.post i).pending = s.pending := rfl
@[simp] theorem post_inFlight (s : State) (i : Instr) : (s.post i).inFlight = s.inFlight ++ [i] := rfl
@[simp] theorem post_straps (s : State) (i : Instr) : (s.post i).straps = s.straps := rfl
@[simp] theorem post_host (s : State) (i : Instr) : (s.post i).host = s.host := rfl
@[simp] theorem post_dock (s : State) (i : Instr) : (s.post i).dock = s.dock := rfl
@[simp] theorem post_card (s : State) (i : Instr) : (s.post i).card = s.card := rfl
@[simp] theorem post_release (s : State) (i : Instr) : (s.post i).release = s.release := rfl
@[simp] theorem post_term (s : State) (i : Instr) : (s.post i).term = s.term := rfl
@[simp] theorem post_journal (s : State) (i : Instr) : (s.post i).journal = s.journal := rfl
@[simp] theorem post_order (s : State) (i : Instr) : (s.post i).order = s.order := rfl
@[simp] theorem post_fault (s : State) (i : Instr) : (s.post i).fault = s.fault := rfl
@[simp] theorem post_supply (s : State) (i : Instr) : (s.post i).supply = s.supply := rfl
@[simp] theorem post_store (s : State) (i : Instr) : (s.post i).store = s.store := rfl

@[simp] theorem postAll_phase (s : State) (i : List Instr) : (s.postAll i).phase = s.phase := rfl
@[simp] theorem postAll_now (s : State) (i : List Instr) : (s.postAll i).now = s.now := rfl
@[simp] theorem postAll_pending (s : State) (i : List Instr) : (s.postAll i).pending = s.pending := rfl
@[simp] theorem postAll_inFlight (s : State) (i : List Instr) : (s.postAll i).inFlight = s.inFlight ++ i := rfl
@[simp] theorem postAll_straps (s : State) (i : List Instr) : (s.postAll i).straps = s.straps := rfl
@[simp] theorem postAll_host (s : State) (i : List Instr) : (s.postAll i).host = s.host := rfl
@[simp] theorem postAll_dock (s : State) (i : List Instr) : (s.postAll i).dock = s.dock := rfl
@[simp] theorem postAll_card (s : State) (i : List Instr) : (s.postAll i).card = s.card := rfl
@[simp] theorem postAll_release (s : State) (i : List Instr) : (s.postAll i).release = s.release := rfl
@[simp] theorem postAll_term (s : State) (i : List Instr) : (s.postAll i).term = s.term := rfl
@[simp] theorem postAll_journal (s : State) (i : List Instr) : (s.postAll i).journal = s.journal := rfl
@[simp] theorem postAll_order (s : State) (i : List Instr) : (s.postAll i).order = s.order := rfl
@[simp] theorem postAll_fault (s : State) (i : List Instr) : (s.postAll i).fault = s.fault := rfl
@[simp] theorem postAll_supply (s : State) (i : List Instr) : (s.postAll i).supply = s.supply := rfl
@[simp] theorem postAll_store (s : State) (i : List Instr) : (s.postAll i).store = s.store := rfl

@[simp] theorem taking_phase (s : State) (i : Instr) : (s.taking i).phase = s.phase := rfl
@[simp] theorem taking_now (s : State) (i : Instr) : (s.taking i).now = s.now := rfl
@[simp] theorem taking_pending (s : State) (i : Instr) : (s.taking i).pending = s.pending := rfl
@[simp] theorem taking_inFlight (s : State) (i : Instr) : (s.taking i).inFlight = s.inFlight.erase i := rfl
@[simp] theorem taking_straps (s : State) (i : Instr) : (s.taking i).straps = s.straps := rfl
@[simp] theorem taking_host (s : State) (i : Instr) : (s.taking i).host = s.host := rfl
@[simp] theorem taking_dock (s : State) (i : Instr) : (s.taking i).dock = s.dock := rfl
@[simp] theorem taking_card (s : State) (i : Instr) : (s.taking i).card = s.card := rfl
@[simp] theorem taking_release (s : State) (i : Instr) : (s.taking i).release = s.release := rfl
@[simp] theorem taking_term (s : State) (i : Instr) : (s.taking i).term = s.term := rfl
@[simp] theorem taking_journal (s : State) (i : Instr) : (s.taking i).journal = s.journal := rfl
@[simp] theorem taking_order (s : State) (i : Instr) : (s.taking i).order = s.order := rfl
@[simp] theorem taking_fault (s : State) (i : Instr) : (s.taking i).fault = s.fault := rfl
@[simp] theorem taking_supply (s : State) (i : Instr) : (s.taking i).supply = s.supply := rfl
@[simp] theorem taking_store (s : State) (i : Instr) : (s.taking i).store = s.store := rfl

@[simp] theorem join_host (s : State) (k : NoticeKind) : (s.join k).host = s.host.join k := rfl
@[simp] theorem reply_host (s : State) (k : Nat) (tag : Byte) (c : ReplyCode) (p : Payload) :
    (s.reply k tag c p).host = s.host.send (.reply (byteOf (k + 0x80)) tag c p) := rfl
@[simp] theorem raise_inFlight (s : State) (x : FaultSubject) (k : FaultKind) (d : Option DockNo) (c : Carried) :
    (s.raise x k d c).inFlight = s.inFlight ++ [.faultRaise x k d c] := rfl
@[simp] theorem postIf_inFlight (s : State) (b : Bool) (i : Instr) :
    (s.postIf b i).inFlight = s.inFlight ++ (if b then [i] else []) := by cases b <;> simp [State.postIf]
@[simp] theorem postPass_inFlight (s : State) :
    s.postPass.inFlight = s.inFlight ++ (if s.sessionOpen then [.placementPass] else []) := postIf_inFlight s _ _
@[simp] theorem onClaim_release (s : State) (d : DockNo) (f : Claim → Claim) :
    (s.onClaim d f).release = { s.release with claims := s.release.claims.map fun c => if c.dock = d then f c else c } := rfl
@[simp] theorem addClaim_release (s : State) (c : Claim) :
    (s.addClaim c).release = { s.release with claims := s.release.claims ++ [c] } := rfl
@[simp] theorem removeClaim_release (s : State) (d : DockNo) :
    (s.removeClaim d).release = { s.release with claims := s.release.claims.filter fun c => c.dock != d } := rfl
@[simp] theorem setCommand_dock (s : State) (d : DockNo) (c : LockCommand) :
    (s.setCommand d c).dock = { s.dock with table := s.dock.table.modify d fun r => { r with command := c } } := rfl
@[simp] theorem onAccount_journal (s : State) (d : DockNo) (f : DockAccount → DockAccount) :
    (s.onAccount d f).journal = { s.journal with account := s.journal.account.modify d f } := rfl

/-! ### Reading what was written -/

@[simp] theorem Four_get_set_self (q : Four α) (t : TerminalId) (a : α) : (q.set t a).get t = a := by cases t <;> rfl

theorem Four_get_set_other (q : Four α) (t u : TerminalId) (a : α) (h : u ≠ t) : (q.set t a).get u = q.get u := by
  cases t <;> cases u <;> first | rfl | exact absurd rfl h

@[simp] theorem dockCount_onDock (s : State) (d : DockNo) (f : DockRecord → DockRecord) :
    (s.onDock d f).dockCount = s.dockCount := by simp [State.dockCount]

@[simp] theorem dock?_onDock_self (s : State) (d : DockNo) (f : DockRecord → DockRecord) :
    (s.onDock d f).dock? d = (s.dock? d).map f := by simp [State.dock?, List.getElem?_modify]

theorem dock?_onDock_other (s : State) (d e : DockNo) (f : DockRecord → DockRecord) (h : e ≠ d) :
    (s.onDock d f).dock? e = s.dock? e := by
  simp [State.dock?, List.getElem?_modify, Ne.symm h]

@[simp] theorem terminal_onTerminal_self (s : State) (t : TerminalId) (f : Terminal → Terminal) :
    (s.onTerminal t f).terminal t = f (s.terminal t) := by simp [State.terminal]

theorem terminal_onTerminal_other (s : State) (t u : TerminalId) (f : Terminal → Terminal) (h : u ≠ t) :
    (s.onTerminal t f).terminal u = s.terminal u := by simp [State.terminal, Four_get_set_other _ _ _ _ h]

end Sys2Proof.Machine
end

