-- ==== Sys2Proof/Laws/Frame.lean ====
section
/-! SUPPORT. What each shared operation may change: one rule for each, which takes the operation off an `Only` goal. -/

set_option linter.all false

namespace Sys2Proof.Machine

@[simp] theorem Only.refl (w : List Part) (s : State) : Only w s s := by intro p _; cases p <;> rfl

theorem SamePart.trans {p : Part} {s t u : State} (h : SamePart p s t) (k : SamePart p t u) : SamePart p s u := by
  cases p <;> exact Eq.trans k h

theorem SamePart.symm {p : Part} {s t : State} (h : SamePart p s t) : SamePart p t s := by cases p <;> exact Eq.symm h

theorem Only.trans {w : List Part} {s t u : State} (h : Only w s t) (k : Only w t u) : Only w s u :=
  fun p hp => (h p hp).trans (k p hp)

theorem Only.mono {w v : List Part} {s t : State} (h : Only w s t) (hw : w ⊆ v) : Only v s t :=
  fun p hp => h p fun hm => hp (hw hm)

/-- A change inside the listed parts can be taken off. -/
theorem only_iff {w : List Part} {s t u : State} (h : Only w t u) : Only w s u ↔ Only w s t :=
  ⟨fun k p hp => (k p hp).trans (h p hp).symm, fun k => k.trans h⟩

theorem only_foldl {α : Type} {w : List Part} {s : State} (f : State → α → State)
    (h : ∀ t a, Only w s (f t a) ↔ Only w s t) (l : List α) (t : State) : Only w s (l.foldl f t) ↔ Only w s t := by
  induction l generalizing t with
  | nil => rfl
  | cons a l ih => rw [List.foldl_cons, ih, h]

@[simp] theorem only_onHost (w : List Part) (s t : State) (f : HostLink → HostLink) (h0 : Part.host ∈ w) : Only w s
    (t.onHost f) ↔ Only w s t :=
  only_iff fun p hp => by cases p <;> first | rfl | exact absurd h0 hp
@[simp] theorem only_onDocks (w : List Part) (s t : State) (f : DockUnit → DockUnit) (h0 : Part.dock ∈ w) : Only w s
    (t.onDocks f) ↔ Only w s t :=
  only_iff fun p hp => by cases p <;> first | rfl | exact absurd h0 hp
@[simp] theorem only_onCards (w : List Part) (s t : State) (f : CardUnit → CardUnit) (h0 : Part.card ∈ w) : Only w s
    (t.onCards f) ↔ Only w s t :=
  only_iff fun p hp => by cases p <;> first | rfl | exact absurd h0 hp
@[simp] theorem only_onRelease (w : List Part) (s t : State) (f : ReleaseUnit → ReleaseUnit)
    (h0 : Part.release ∈ w) : Only w s (t.onRelease f) ↔ Only w s t :=
  only_iff fun p hp => by cases p <;> first | rfl | exact absurd h0 hp
@[simp] theorem only_onTerminal (w : List Part) (s t : State) (x : TerminalId) (f : Terminal → Terminal)
    (h0 : Part.term ∈ w) : Only w s (t.onTerminal x f) ↔ Only w s t :=
  only_iff fun p hp => by cases p <;> first | rfl | exact absurd h0 hp
@[simp] theorem only_onJournal (w : List Part) (s t : State) (f : Journal → Journal)
    (h0 : Part.journal ∈ w) : Only w s (t.onJournal f) ↔ Only w s t :=
  only_iff fun p hp => by cases p <;> first | rfl | exact absurd h0 hp
@[simp] theorem only_onOrders (w : List Part) (s t : State) (f : OrderUnit → OrderUnit)
    (h0 : Part.order ∈ w) : Only w s (t.onOrders f) ↔ Only w s t :=
  only_iff fun p hp => by cases p <;> first | rfl | exact absurd h0 hp
@[simp] theorem only_onFaults (w : List Part) (s t : State) (f : FaultUnit → FaultUnit)
    (h0 : Part.fault ∈ w) : Only w s (t.onFaults f) ↔ Only w s t :=
  only_iff fun p hp => by cases p <;> first | rfl | exact absurd h0 hp
@[simp] theorem only_onSupply (w : List Part) (s t : State) (f : SupplyMonitor → SupplyMonitor)
    (h0 : Part.supply ∈ w) : Only w s (t.onSupply f) ↔ Only w s t :=
  only_iff fun p hp => by cases p <;> first | rfl | exact absurd h0 hp
@[simp] theorem only_onStore (w : List Part) (s t : State) (f : Store → Store) (h0 : Part.store ∈ w) : Only w s
    (t.onStore f) ↔ Only w s t :=
  only_iff fun p hp => by cases p <;> first | rfl | exact absurd h0 hp
@[simp] theorem only_onDock (w : List Part) (s t : State) (d : DockNo) (f : DockRecord → DockRecord)
    (h0 : Part.dock ∈ w) : Only w s (t.onDock d f) ↔ Only w s t :=
  only_iff fun p hp => by cases p <;> first | rfl | exact absurd h0 hp
@[simp] theorem only_onSession (w : List Part) (s t : State) (x : TerminalId) (f : Session → Session)
    (h0 : Part.term ∈ w) : Only w s (t.onSession x f) ↔ Only w s t :=
  only_iff fun p hp => by cases p <;> first | rfl | exact absurd h0 hp
@[simp] theorem only_onVan (w : List Part) (s t : State) (f : VanSession → VanSession)
    (h0 : Part.order ∈ w) : Only w s (t.onVan f) ↔ Only w s t :=
  only_iff fun p hp => by cases p <;> first | rfl | exact absurd h0 hp
@[simp] theorem only_post (w : List Part) (s t : State) (i : Instr) (h0 : Part.inFlight ∈ w) : Only w s (t.post i) ↔ Only w s t :=
  only_iff fun p hp => by cases p <;> first | rfl | exact absurd h0 hp
@[simp] theorem only_postAll (w : List Part) (s t : State) (i : List Instr) (h0 : Part.inFlight ∈ w) : Only w s
    (t.postAll i) ↔ Only w s t :=
  only_iff fun p hp => by cases p <;> first | rfl | exact absurd h0 hp
@[simp] theorem only_taking (w : List Part) (s t : State) (i : Instr) (h0 : Part.inFlight ∈ w) : Only w s
    (t.taking i) ↔ Only w s t :=
  only_iff fun p hp => by cases p <;> first | rfl | exact absurd h0 hp

@[simp] theorem only_postIf (w : List Part) (s t : State) (b : Bool) (i : Instr) (h0 : Part.inFlight ∈ w) :
    Only w s (t.postIf b i) ↔ Only w s t := by
  unfold State.postIf; (try dsimp only); (repeat' split) <;> simp [h0]
@[simp] theorem only_postPass (w : List Part) (s t : State)  (h0 : Part.inFlight ∈ w) :
    Only w s (t.postPass) ↔ Only w s t := by
  unfold State.postPass; (try dsimp only); (repeat' split) <;> simp [h0]
@[simp] theorem only_join (w : List Part) (s t : State) (k : NoticeKind) (h0 : Part.host ∈ w) :
    Only w s (t.join k) ↔ Only w s t := by
  unfold State.join; (try dsimp only); (repeat' split) <;> simp [h0]
@[simp] theorem only_reply (w : List Part) (s t : State) (k : Nat) (g : Byte) (c : ReplyCode) (y : Payload) (h0 : Part.host ∈ w) :
    Only w s (t.reply k g c y) ↔ Only w s t := by
  unfold State.reply; (try dsimp only); (repeat' split) <;> simp [h0]
@[simp] theorem only_readerWaits (w : List Part) (s t : State) (d : DockNo) (r : ReaderResult) (h0 : Part.dock ∈ w) :
    Only w s (t.readerWaits d r) ↔ Only w s t := by
  unfold State.readerWaits; (try dsimp only); (repeat' split) <;> simp [h0]
@[simp] theorem only_readerDecided (w : List Part) (s t : State) (d : DockNo) (r : ReaderResult) (h0 : Part.dock ∈ w) :
    Only w s (t.readerDecided d r) ↔ Only w s t := by
  unfold State.readerDecided; (try dsimp only); (repeat' split) <;> simp [h0]
@[simp] theorem only_sendTerminal (w : List Part) (s t : State) (x : TerminalId) (r : TermRecord) (h0 : Part.term ∈ w) :
    Only w s (t.sendTerminal x r) ↔ Only w s t := by
  unfold State.sendTerminal; (try dsimp only); (repeat' split) <;> simp [h0]
@[simp] theorem only_tellPlace (w : List Part) (s t : State) (p : Place) (r : CheckResult) (h0 : Part.dock ∈ w)
    (h1 : Part.inFlight ∈ w) :
    Only w s (t.tellPlace p r) ↔ Only w s t := by
  unfold State.tellPlace; (try dsimp only); (repeat' split) <;> simp [h0, h1]
@[simp] theorem only_denyPlace (w : List Part) (s t : State) (p : Place) (y : DenyReason) (h0 : Part.dock ∈ w)
    (h1 : Part.inFlight ∈ w) :
    Only w s (t.denyPlace p y) ↔ Only w s t := by
  unfold State.denyPlace; (try dsimp only); (repeat' split) <;> simp [h0, h1]
@[simp] theorem only_raise (w : List Part) (s t : State) (x : FaultSubject) (k : FaultKind) (d : Option DockNo)
    (c : Carried) (h0 : Part.inFlight ∈ w) :
    Only w s (t.raise x k d c) ↔ Only w s t := by
  unfold State.raise; (try dsimp only); (repeat' split) <;> simp [h0]
@[simp] theorem only_raiseLockJam (w : List Part) (s t : State) (c : Claim) (h0 : Part.inFlight ∈ w) :
    Only w s (t.raiseLockJam c) ↔ Only w s t := by
  unfold State.raiseLockJam; (try dsimp only); (repeat' split) <;> simp [h0]
@[simp] theorem only_onClaim (w : List Part) (s t : State) (d : DockNo) (f : Claim → Claim) (h0 : Part.release ∈ w) :
    Only w s (t.onClaim d f) ↔ Only w s t := by
  unfold State.onClaim; (try dsimp only); (repeat' split) <;> simp [h0]
@[simp] theorem only_addClaim (w : List Part) (s t : State) (c : Claim) (h0 : Part.release ∈ w) :
    Only w s (t.addClaim c) ↔ Only w s t := by
  unfold State.addClaim; (try dsimp only); (repeat' split) <;> simp [h0]
@[simp] theorem only_removeClaim (w : List Part) (s t : State) (d : DockNo) (h0 : Part.release ∈ w) :
    Only w s (t.removeClaim d) ↔ Only w s t := by
  unfold State.removeClaim; (try dsimp only); (repeat' split) <;> simp [h0]
@[simp] theorem only_setCommand (w : List Part) (s t : State) (d : DockNo) (c : LockCommand) (h0 : Part.dock ∈ w) :
    Only w s (t.setCommand d c) ↔ Only w s t := by
  unfold State.setCommand; (try dsimp only); (repeat' split) <;> simp [h0]
@[simp] theorem only_onAccount (w : List Part) (s t : State) (d : DockNo) (f : DockAccount → DockAccount)
    (h0 : Part.journal ∈ w) :
    Only w s (t.onAccount d f) ↔ Only w s t := by
  unfold State.onAccount; (try dsimp only); (repeat' split) <;> simp [h0]
@[simp] theorem only_relamp (w : List Part) (s t : State) (d : DockNo) (h0 : Part.dock ∈ w) :
    Only w s (t.relamp d) ↔ Only w s t := by
  unfold State.relamp; (try dsimp only); (repeat' split) <;> simp [h0]
@[simp] theorem only_changeSlot (w : List Part) (s t : State) (d : DockNo) (f : DockRecord → DockRecord)
    (h0 : Part.dock ∈ w) (h1 : Part.inFlight ∈ w) :
    Only w s (t.changeSlot d f) ↔ Only w s t := by
  unfold State.changeSlot; (try dsimp only); (repeat' split) <;> simp [h0, h1]
@[simp] theorem only_takeSlot (w : List Part) (s t : State) (d : DockNo) (h0 : Part.dock ∈ w) (h1 : Part.inFlight ∈ w) :
    Only w s (t.takeSlot d) ↔ Only w s t := by
  unfold State.takeSlot; (try dsimp only); (repeat' split) <;> simp [h0, h1]
@[simp] theorem only_endClaim (w : List Part) (s t : State) (d : DockNo) (h0 : Part.release ∈ w) (h1 : Part.inFlight ∈ w) :
    Only w s (t.endClaim d) ↔ Only w s t := by
  unfold State.endClaim; (try dsimp only); (repeat' split) <;> simp [h0, h1]
@[simp] theorem only_dropClaim (w : List Part) (s t : State) (c : Claim) (n : VanNews) (h0 : Part.release ∈ w)
    (h1 : Part.inFlight ∈ w) :
    Only w s (t.dropClaim c n) ↔ Only w s t := by
  unfold State.dropClaim; (try dsimp only); (repeat' split) <;> simp [h0, h1]
@[simp] theorem only_displace (w : List Part) (s t : State) (d : DockNo) (h0 : Part.dock ∈ w) (h1 : Part.release ∈ w)
    (h2 : Part.inFlight ∈ w) :
    Only w s (t.displace d) ↔ Only w s t := by
  unfold State.displace; (try dsimp only); (repeat' split) <;> simp [h0, h1, h2]
@[simp] theorem only_takeLevel (w : List Part) (s t : State) (d : DockNo) (l : Level) (h0 : Part.dock ∈ w)
    (h1 : Part.release ∈ w) (h2 : Part.inFlight ∈ w) :
    Only w s (t.takeLevel d l) ↔ Only w s t := by
  unfold State.takeLevel; (try dsimp only); (repeat' split) <;> simp [h0, h1, h2]

@[simp] theorem only_changeInput (w : List Part) (s t : State) (d : DockNo) (f : State → State) (h : ∀ t, Only w s
    (f t) ↔ Only w s t)
    (h0 : Part.dock ∈ w) (h1 : Part.release ∈ w) (h2 : Part.inFlight ∈ w) : Only w s (t.changeInput d f) ↔ Only w s t := by
  unfold State.changeInput; rw [only_takeLevel _ _ _ _ _ h0 h1 h2, h]

@[simp] theorem only_changeCaps (w : List Part) (s t : State) (f : DockCaps → DockCaps) (h0 : Part.dock ∈ w)
    (h1 : Part.release ∈ w) (h2 : Part.inFlight ∈ w) : Only w s (t.changeCaps f) ↔ Only w s t := by
  unfold State.changeCaps
  rw [only_foldl _ fun t p => only_takeLevel _ _ t _ _ h0 h1 h2]
  simp [h0]

@[simp] theorem only_admitDock (w : List Part) (s t : State) (d : DockNo) (h0 : Part.dock ∈ w) (h1 : Part.journal ∈ w)
    (h2 : Part.inFlight ∈ w) :
    Only w s (t.admitDock d) ↔ Only w s t := by
  unfold State.admitDock; (try dsimp only); (repeat' split) <;> simp [h0, h1, h2]
@[simp] theorem only_appendEntry (w : List Part) (s t : State) (e : Entry) (h0 : Part.journal ∈ w) (h1 : Part.store ∈ w) :
    Only w s (t.appendEntry e) ↔ Only w s t := by
  unfold State.appendEntry; (try dsimp only); (repeat' split) <;> simp [h0, h1]
@[simp] theorem only_dropGrace (w : List Part) (s t : State) (b : BikeId) (h0 : Part.release ∈ w) :
    Only w s (t.dropGrace b) ↔ Only w s t := by
  unfold State.dropGrace; (try dsimp only); (repeat' split) <;> simp [h0]
@[simp] theorem only_writeReturn (w : List Part) (s t : State) (d : DockNo) (b : Option BikeId) (l : Bool)
    (c : Option OrderId) (h0 : Part.journal ∈ w) (h1 : Part.store ∈ w) (h2 : Part.release ∈ w)
    (h3 : Part.inFlight ∈ w) :
    Only w s (t.writeReturn d b l c) ↔ Only w s t := by
  unfold State.writeReturn; (try dsimp only); (repeat' split) <;> simp [h0, h1, h2, h3]
@[simp] theorem only_writeRequested (w : List Part) (s t : State) (q : EntryRequest) (h0 : Part.journal ∈ w)
    (h1 : Part.store ∈ w) (h2 : Part.release ∈ w) (h3 : Part.inFlight ∈ w) :
    Only w s (t.writeRequested q) ↔ Only w s t := by
  unfold State.writeRequested; (try dsimp only); (repeat' split) <;> simp [h0, h1, h2, h3]

@[simp] theorem only_tellAccount (w : List Part) (s t : State) (d : DockNo) (c : CountChange) (h0 : Part.journal ∈ w) :
    Only w s (t.tellAccount d c) ↔ Only w s t := by
  unfold State.tellAccount; (try dsimp only); (repeat' split) <;> simp [h0]

@[simp] theorem only_admitUpTo (w : List Part) (s t : State) (n : Nat) (h0 : Part.dock ∈ w) (h1 : Part.journal ∈ w)
    (h2 : Part.inFlight ∈ w) : Only w s (t.admitUpTo n) ↔ Only w s t := by
  induction n generalizing t with
  | zero => rfl
  | succ n ih => unfold State.admitUpTo; (repeat' split) <;> simp [ih, h0, h1, h2]

@[simp] theorem only_admitWithheld (w : List Part) (s t : State) (h0 : Part.dock ∈ w) (h1 : Part.journal ∈ w)
    (h2 : Part.inFlight ∈ w) : Only w s t.admitWithheld ↔ Only w s t := only_admitUpTo w s t _ h0 h1 h2

@[simp] theorem only_journalArrival (w : List Part) (s t : State) (f : State → State) (h : ∀ t, Only w s (f t) ↔ Only w s t)
    (h0 : Part.dock ∈ w) (h1 : Part.journal ∈ w) (h2 : Part.inFlight ∈ w) (h3 : Part.host ∈ w) :
    Only w s (t.journalArrival f) ↔ Only w s t := by
  unfold State.journalArrival; simp only []; (repeat' split) <;> simp [h, h0, h1, h2, h3]

@[simp] theorem only_writeEntry (w : List Part) (s t : State) (q : EntryRequest) (h0 : Part.journal ∈ w) (h1 : Part.store ∈ w)
    (h2 : Part.release ∈ w) (h3 : Part.inFlight ∈ w) (h4 : Part.dock ∈ w) (h5 : Part.host ∈ w) :
    Only w s (t.writeEntry q) ↔ Only w s t :=
  only_journalArrival w s t _ (fun t => only_writeRequested w s t q h0 h1 h2 h3) h4 h0 h3 h5

@[simp] theorem only_endSession (w : List Part) (s t : State) (x : TerminalId) (h0 : Part.term ∈ w) :
    Only w s (t.endSession x) ↔ Only w s t := by
  unfold State.endSession; (try dsimp only); (repeat' split) <;> simp [h0]
@[simp] theorem only_refuseSession (w : List Part) (s t : State) (x : TerminalId) (y : DenyReason) (h0 : Part.term ∈ w) :
    Only w s (t.refuseSession x y) ↔ Only w s t := by
  unfold State.refuseSession; (try dsimp only); (repeat' split) <;> simp [h0]
@[simp] theorem only_finishSession (w : List Part) (s t : State) (x : TerminalId) (y : DoneOutcome) (h0 : Part.term ∈ w) :
    Only w s (t.finishSession x y) ↔ Only w s t := by
  unfold State.finishSession; (try dsimp only); (repeat' split) <;> simp [h0]
@[simp] theorem only_askAllocation (w : List Part) (s t : State) (x : TerminalId) (k : BikeClass) (e : Option DockNo)
    (h0 : Part.term ∈ w) (h1 : Part.inFlight ∈ w) :
    Only w s (t.askAllocation x k e) ↔ Only w s t := by
  unfold State.askAllocation; (try dsimp only); (repeat' split) <;> simp [h0, h1]
@[simp] theorem only_leaveQueries (w : List Part) (s t : State) (x : TerminalId) (h0 : Part.card ∈ w) :
    Only w s (t.leaveQueries x) ↔ Only w s t := by
  unfold State.leaveQueries; (try dsimp only); (repeat' split) <;> simp [h0]
@[simp] theorem only_disown (w : List Part) (s t : State) (x : TerminalId) (h0 : Part.release ∈ w) :
    Only w s (t.disown x) ↔ Only w s t := by
  unfold State.disown; (try dsimp only); (repeat' split) <;> simp [h0]
@[simp] theorem only_abortSession (w : List Part) (s t : State) (x : TerminalId) (h0 : Part.card ∈ w)
    (h1 : Part.release ∈ w) (h2 : Part.term ∈ w) :
    Only w s (t.abortSession x) ↔ Only w s t := by
  unfold State.abortSession; (try dsimp only); (repeat' split) <;> simp [h0, h1, h2]
@[simp] theorem only_setLine (w : List Part) (s t : State) (x : TerminalId) (l : LineState) (h0 : Part.term ∈ w)
    (h1 : Part.host ∈ w) :
    Only w s (t.setLine x l) ↔ Only w s t := by
  unfold State.setLine; (try dsimp only); (repeat' split) <;> simp [h0, h1]
@[simp] theorem only_lineLeavesUp (w : List Part) (s t : State) (x : TerminalId) (l : LineState) (h0 : Part.term ∈ w)
    (h1 : Part.host ∈ w) (h2 : Part.card ∈ w) (h3 : Part.release ∈ w) :
    Only w s (t.lineLeavesUp x l) ↔ Only w s t := by
  unfold State.lineLeavesUp; (try dsimp only); (repeat' split) <;> simp [h0, h1, h2, h3]
@[simp] theorem only_lineComesUp (w : List Part) (s t : State) (x : TerminalId) (h0 : Part.term ∈ w) (h1 : Part.host ∈ w) :
    Only w s (t.lineComesUp x) ↔ Only w s t := by
  unfold State.lineComesUp; (try dsimp only); (repeat' split) <;> simp [h0, h1]
@[simp] theorem only_startSession (w : List Part) (s t : State) (x : TerminalId) (c : CardId) (f : Nat → Instr)
    (h0 : Part.term ∈ w) (h1 : Part.inFlight ∈ w) :
    Only w s (t.startSession x c f) ↔ Only w s t := by
  unfold State.startSession; (try dsimp only); (repeat' split) <;> simp [h0, h1]
@[simp] theorem only_tapOrPaid (w : List Part) (s t : State) (x : TerminalId) (c : CardId) (f : Nat → Instr)
    (h0 : Part.term ∈ w) (h1 : Part.inFlight ∈ w) :
    Only w s (t.tapOrPaid x c f) ↔ Only w s t := by
  unfold State.tapOrPaid; (try dsimp only); (repeat' split) <;> simp [h0, h1]
@[simp] theorem only_goodRecord (w : List Part) (s t : State) (x : TerminalId) (f : State → State)
    (h : ∀ t, Only w s (f t) ↔ Only w s t) (h0 : Part.term ∈ w) : Only w s (t.goodRecord x f) ↔ Only w s t := by
  unfold State.goodRecord; (repeat' split) <;> simp [h, h0]
@[simp] theorem only_goodRecordUp (w : List Part) (s t : State) (x : TerminalId) (f : State → State)
    (h : ∀ t, Only w s (f t) ↔ Only w s t) (h0 : Part.term ∈ w) : Only w s (t.goodRecordUp x f) ↔ Only w s t := by
  unfold State.goodRecordUp
  exact only_goodRecord w s t x _ (by intro t; split <;> simp [h]) h0
@[simp] theorem only_abandonChoice (w : List Part) (s t : State) (x : TerminalId) (h0 : Part.term ∈ w) :
    Only w s (t.abandonChoice x) ↔ Only w s t := by
  unfold State.abandonChoice; (try dsimp only); (repeat' split) <;> simp [h0]
@[simp] theorem only_badRecord (w : List Part) (s t : State) (x : TerminalId) (h0 : Part.term ∈ w)
    (h1 : Part.host ∈ w) (h2 : Part.card ∈ w) (h3 : Part.release ∈ w) (h4 : Part.inFlight ∈ w) :
    Only w s (t.badRecord x) ↔ Only w s t := by
  unfold State.badRecord; (try dsimp only); (repeat' split) <;> simp [h0, h1, h2, h3, h4]
@[simp] theorem only_takeHello (w : List Part) (s t : State) (x : TerminalId) (h0 : Part.term ∈ w) (h1 : Part.host ∈ w)
    (h2 : Part.card ∈ w) (h3 : Part.release ∈ w) : Only w s (t.takeHello x) ↔ Only w s t :=
  only_goodRecord _ _ _ _ _ (fun v => by split <;> simp [h0, h1, h2, h3]) h0
@[simp] theorem only_takeTap (w : List Part) (s t : State) (x : TerminalId) (c : CardId) (h0 : Part.term ∈ w)
    (h1 : Part.inFlight ∈ w) : Only w s (t.takeTap x c) ↔ Only w s t :=
  only_goodRecordUp _ _ _ _ _ (fun v => by split <;> simp [h0, h1]) h0
@[simp] theorem only_takePaid (w : List Part) (s t : State) (x : TerminalId) (c : CardId) (r : Byte) (e : ClockTime)
    (h0 : Part.term ∈ w) (h1 : Part.inFlight ∈ w) : Only w s (t.takePaid x c r e) ↔ Only w s t :=
  only_goodRecordUp _ _ _ _ _ (fun v => by simp [h0, h1]) h0
@[simp] theorem only_takePick (w : List Part) (s t : State) (x : TerminalId) (k : BikeClass) (h0 : Part.term ∈ w)
    (h1 : Part.inFlight ∈ w) : Only w s (t.takePick x k) ↔ Only w s t :=
  only_goodRecordUp _ _ _ _ _ (fun v => by dsimp only; (repeat' split) <;> simp [h0, h1]) h0
@[simp] theorem only_takeCancel (w : List Part) (s t : State) (x : TerminalId) (h0 : Part.term ∈ w) :
    Only w s (t.takeCancel x) ↔ Only w s t :=
  only_goodRecordUp _ _ _ _ _ (fun v => by split <;> simp [h0]) h0
@[simp] theorem only_lineFalls (w : List Part) (s t : State) (x : TerminalId) (h0 : Part.term ∈ w) (h1 : Part.host ∈ w)
    (h2 : Part.card ∈ w) (h3 : Part.release ∈ w) : Only w s (t.lineFalls x) ↔ Only w s t := by
  unfold State.lineFalls; split <;> simp [h0, h1, h2, h3]
@[simp] theorem only_takeLine (w : List Part) (s t : State) (x : TerminalId) (a : LineArrival) (h0 : Part.term ∈ w) (h1 : Part.host ∈ w) (h2 : Part.card ∈ w)
    (h3 : Part.release ∈ w) (h4 : Part.inFlight ∈ w) :
    Only w s (t.takeLine x a) ↔ Only w s t := by
  cases a <;> simp [State.takeLine, h0, h1, h2, h3, h4]
@[simp] theorem only_lineTakes (w : List Part) (s t : State) (x : TerminalId) (a : LineArrival) (h0 : Part.term ∈ w) (h1 : Part.host ∈ w) (h2 : Part.card ∈ w)
    (h3 : Part.release ∈ w) (h4 : Part.inFlight ∈ w) :
    Only w s (t.lineTakes x a) ↔ Only w s t := by
  unfold State.lineTakes; split <;> simp [h0, h1, h2, h3, h4]
@[simp] theorem only_allocationAnswered (w : List Part) (s t : State) (x : TerminalId) (h0 : Part.term ∈ w) (h1 : Part.host ∈ w) (h2 : Part.card ∈ w)
    (h3 : Part.release ∈ w) (h4 : Part.inFlight ∈ w) :
    Only w s (t.allocationAnswered x) ↔ Only w s t := by
  unfold State.allocationAnswered
  rw [only_foldl _ (by intro t a; simp [h0, h1, h2, h3, h4])]; simp [h0]
@[simp] theorem only_sessionOffered (w : List Part) (s t : State) (x : TerminalId) (d : DockNo) (n : Nat) (h0 : Part.term ∈ w) (h1 : Part.host ∈ w) (h2 : Part.card ∈ w)
    (h3 : Part.release ∈ w) (h4 : Part.inFlight ∈ w) :
    Only w s (t.sessionOffered x d n) ↔ Only w s t := by
  unfold State.sessionOffered; simp [h0, h1, h2, h3, h4]
@[simp] theorem only_sessionRefused (w : List Part) (s t : State) (x : TerminalId) (y : DenyReason) (h0 : Part.term ∈ w) (h1 : Part.host ∈ w) (h2 : Part.card ∈ w)
    (h3 : Part.release ∈ w) (h4 : Part.inFlight ∈ w) :
    Only w s (t.sessionRefused x y) ↔ Only w s t := by
  unfold State.sessionRefused; simp [h0, h1, h2, h3, h4]
@[simp] theorem only_tellDock (w : List Part) (s t : State) (d : DockNo) (h0 : Part.inFlight ∈ w) :
    Only w s (t.tellDock d) ↔ Only w s t := by
  unfold State.tellDock; (try dsimp only); (repeat' split) <;> simp [h0]
@[simp] theorem only_tellOwner (w : List Part) (s t : State) (c : Claim) (n : ClaimNews) (h0 : Part.inFlight ∈ w) :
    Only w s (t.tellOwner c n) ↔ Only w s t := by
  unfold State.tellOwner; (try dsimp only); (repeat' split) <;> simp [h0]
@[simp] theorem only_refuseRequest (w : List Part) (s t : State) (o : Owner) (y : DenyReason) (h0 : Part.dock ∈ w) (h1 : Part.term ∈ w) (h2 : Part.inFlight ∈ w) (h3 : Part.host ∈ w)
    (h4 : Part.card ∈ w) (h5 : Part.release ∈ w) :
    Only w s (t.refuseRequest o y) ↔ Only w s t := by
  unfold State.refuseRequest; (try dsimp only); (repeat' split) <;> simp [h0, h1, h2, h3, h4, h5]
@[simp] theorem only_holdRequest (w : List Part) (s t : State) (q : ClaimRequest) (h0 : Part.release ∈ w)
    (h1 : Part.inFlight ∈ w) :
    Only w s (t.holdRequest q) ↔ Only w s t := by
  unfold State.holdRequest; (try dsimp only); (repeat' split) <;> simp [h0, h1]
@[simp] theorem only_dropRequest (w : List Part) (s t : State) (d : DockNo) (h0 : Part.release ∈ w) :
    Only w s (t.dropRequest d) ↔ Only w s t := by
  unfold State.dropRequest; (try dsimp only); (repeat' split) <;> simp [h0]
@[simp] theorem only_requestClaim (w : List Part) (s t : State) (d : DockNo) (k : ClaimKind) (h : CardId) (o : CardOrigin)
    (w' : Owner) (h0 : Part.dock ∈ w) (h1 : Part.term ∈ w) (h2 : Part.inFlight ∈ w) (h3 : Part.host ∈ w)
    (h4 : Part.card ∈ w) (h5 : Part.release ∈ w) :
    Only w s (t.requestClaim d k h o w') ↔ Only w s t := by
  unfold State.requestClaim; (try dsimp only); (repeat' split) <;> simp [h0, h1, h2, h3, h4, h5]
@[simp] theorem only_tellGrant (w : List Part) (s t : State) (d : DockNo) (o : Owner) (n : Nat) (h0 : Part.dock ∈ w) (h1 : Part.term ∈ w) (h2 : Part.inFlight ∈ w) (h3 : Part.host ∈ w)
    (h4 : Part.card ∈ w) (h5 : Part.release ∈ w) :
    Only w s (t.tellGrant d o n) ↔ Only w s t := by
  unfold State.tellGrant; (try dsimp only); (repeat' split) <;> simp [h0, h1, h2, h3, h4, h5]
@[simp] theorem only_grantClaim (w : List Part) (s t : State) (q : ClaimRequest) (b : Bool) (h0 : Part.dock ∈ w) (h1 : Part.term ∈ w) (h2 : Part.inFlight ∈ w) (h3 : Part.host ∈ w)
    (h4 : Part.card ∈ w) (h5 : Part.release ∈ w) (h6 : Part.order ∈ w) :
    Only w s (t.grantClaim q b) ↔ Only w s t := by
  unfold State.grantClaim; (try dsimp only); (repeat' split) <;> simp [h0, h1, h2, h3, h4, h5, h6]
@[simp] theorem only_leaveReserved (w : List Part) (s t : State) (d : DockNo) (o : Option OrderId) (h0 : Part.inFlight ∈ w) :
    Only w s (t.leaveReserved d o) ↔ Only w s t := by
  unfold State.leaveReserved; simp [h0]
@[simp] theorem only_refuseGrant (w : List Part) (s t : State) (q : ClaimRequest) (y : DenyReason) (h0 : Part.dock ∈ w) (h1 : Part.term ∈ w) (h2 : Part.inFlight ∈ w) (h3 : Part.host ∈ w)
    (h4 : Part.card ∈ w) (h5 : Part.release ∈ w) :
    Only w s (t.refuseGrant q y) ↔ Only w s t := by
  unfold State.refuseGrant; (try dsimp only); (repeat' split) <;> simp [h0, h1, h2, h3, h4, h5]
@[simp] theorem only_answerGrant (w : List Part) (s t : State) (q : ClaimRequest) (a : GrantAnswer) (h0 : Part.dock ∈ w) (h1 : Part.term ∈ w) (h2 : Part.inFlight ∈ w) (h3 : Part.host ∈ w)
    (h4 : Part.card ∈ w) (h5 : Part.release ∈ w) (h6 : Part.order ∈ w) :
    Only w s (t.answerGrant q a) ↔ Only w s t := by
  unfold State.answerGrant; (try dsimp only); (repeat' split) <;> simp [h0, h1, h2, h3, h4, h5, h6]
@[simp] theorem only_releaseReserved (w : List Part) (s t : State) (d : DockNo) (o : OrderId) (c : CardId)
    (h0 : Part.dock ∈ w) (h1 : Part.release ∈ w) (h2 : Part.inFlight ∈ w) :
    Only w s (t.releaseReserved d o c) ↔ Only w s t := by
  unfold State.releaseReserved; (try dsimp only); (repeat' split) <;> simp [h0, h1, h2]
@[simp] theorem only_refuseVan (w : List Part) (s t : State) (d : DockNo) (y : DenyReason) (h0 : Part.dock ∈ w)
    (h1 : Part.inFlight ∈ w) :
    Only w s (t.refuseVan d y) ↔ Only w s t := by
  unfold State.refuseVan; (try dsimp only); (repeat' split) <;> simp [h0, h1]
@[simp] theorem only_endUntaken (w : List Part) (s t : State) (c : Claim) (n : ClaimNews) (h0 : Part.release ∈ w)
    (h1 : Part.inFlight ∈ w) :
    Only w s (t.endUntaken c n) ↔ Only w s t := by
  unfold State.endUntaken; (try dsimp only); (repeat' split) <;> simp [h0, h1]
@[simp] theorem only_lapse (w : List Part) (s t : State) (c : Claim) (k : LockCommand) (h0 : Part.dock ∈ w)
    (h1 : Part.release ∈ w) (h2 : Part.inFlight ∈ w) :
    Only w s (t.lapse c k) ↔ Only w s t := by
  unfold State.lapse; (try dsimp only); (repeat' split) <;> simp [h0, h1, h2]
@[simp] theorem only_fail (w : List Part) (s t : State) (c : Claim) (k : LockCommand) (h0 : Part.dock ∈ w)
    (h1 : Part.release ∈ w) (h2 : Part.inFlight ∈ w) :
    Only w s (t.fail c k) ↔ Only w s t := by
  unfold State.fail; (try dsimp only); (repeat' split) <;> simp [h0, h1, h2]
@[simp] theorem only_graceHire (w : List Part) (s t : State) (c : Claim) (b : Option BikeId) (n : SeqNo) (h0 : Part.release ∈ w) :
    Only w s (t.graceHire c b n) ↔ Only w s t := by
  unfold State.graceHire; (try dsimp only); (repeat' split) <;> simp [h0]
@[simp] theorem only_released (w : List Part) (s t : State) (c : Claim) (h0 : Part.dock ∈ w) (h1 : Part.release ∈ w)
    (h2 : Part.inFlight ∈ w) :
    Only w s (t.released c) ↔ Only w s t := by
  unfold State.released; (try dsimp only); (repeat' split) <;> simp [h0, h1, h2]
@[simp] theorem only_jam (w : List Part) (s t : State) (c : Claim) (h0 : Part.dock ∈ w) (h1 : Part.release ∈ w)
    (h2 : Part.inFlight ∈ w) :
    Only w s (t.jam c) ↔ Only w s t := by
  unfold State.jam; (try dsimp only); (repeat' split) <;> simp [h0, h1, h2]
@[simp] theorem only_relock (w : List Part) (s t : State) (c : Claim) (h0 : Part.dock ∈ w) (h1 : Part.release ∈ w)
    (h2 : Part.inFlight ∈ w) :
    Only w s (t.relock c) ↔ Only w s t := by
  unfold State.relock; (try dsimp only); (repeat' split) <;> simp [h0, h1, h2]
@[simp] theorem only_orphan (w : List Part) (s t : State) (c : Claim) (h0 : Part.release ∈ w) (h1 : Part.inFlight ∈ w) :
    Only w s (t.orphan c) ↔ Only w s t := by
  unfold State.orphan; (try dsimp only); (repeat' split) <;> simp [h0, h1]
@[simp] theorem only_reconcile (w : List Part) (s t : State) (c : Claim) (l : LockState) (h0 : Part.dock ∈ w)
    (h1 : Part.release ∈ w) (h2 : Part.inFlight ∈ w) :
    Only w s (t.reconcile c l) ↔ Only w s t := by
  unfold State.reconcile; (try dsimp only); (repeat' split) <;> simp [h0, h1, h2]

end Sys2Proof.Machine
end

