-- ==== Sys2Proof/Laws/Act.lean ====
section
/-! SUPPORT. What taking an act does, said once: a running part does it and begins sending, a stopped part does not. -/

namespace Sys2Proof.Machine

theorem act_running {i : Instr} {s : State} {f : State → State} (h : s.phase = .running) :
    act i s f = .next ((f (s.taking i)).onHost HostLink.beginSending) := by
  simp [act, h]

theorem act_stopped {i : Instr} {s : State} {f : State → State} (h : s.phase ≠ .running) : act i s f = .next s := by
  simp [act, h]

/-- An act always answers a next state. -/
theorem act_next (i : Instr) (s : State) (f : State → State) : ∃ t, act i s f = .next t := ⟨_, rfl⟩

/-- What an act may change is what its effect may change, the host link and the work in flight. -/
theorem act_only {i : Instr} {s t : State} {f : State → State} {w : List Part} (h0 : Part.host ∈ w) (h1 : Part.inFlight ∈ w)
    (hf : ∀ u, Only w s (f u) ↔ Only w s u) (h : act i s f = .next t) : Only w s t := by
  simp only [act, Host.Outcome.next.injEq] at h
  subst h
  split
  · simp [h0, h1, hf]
  · exact Only.refl w s

theorem beginSending_of_begun {h : HostLink} (hb : h.begun = true) : h.beginSending = h := by
  unfold HostLink.begun at hb
  unfold HostLink.beginSending
  split at hb <;> simp_all

/-- Sending a reply or a query leaves nothing unbegun at the front. -/
theorem beginSending_send {h : HostLink} {f : OutFrame} (hb : h.begun = true) (hf : f ≠ .notice none) :
    (h.send f).beginSending = h.send f := by
  apply beginSending_of_begun
  unfold HostLink.begun HostLink.send at *
  rcases ho : h.outgoing with _ | ⟨a, as⟩
  · rcases f with _ | c | _
    · simp
    · cases c with
      | none => exact absurd rfl hf
      | some _ => simp
    · simp
  · rw [ho] at hb
    rcases a with _ | c | _
    · simp
    · cases c with
      | none => simp at hb
      | some _ => simp
    · simp

theorem begun_beginSending (h : HostLink) : h.beginSending.begun = true := by
  unfold HostLink.beginSending
  split
  · rfl
  · unfold HostLink.begun; split <;> simp_all

theorem onHost_same {s : State} {f : HostLink → HostLink} (h : f s.host = s.host) : s.onHost f = s := by
  unfold State.onHost; rw [h]

/-- An act of a part that is ready, whose effect leaves the host link alone. -/
theorem act_quiet {i : Instr} {s : State} {f : State → State} (h : s.ready) (hf : (f (s.taking i)).host = s.host) :
    act i s f = .next (f (s.taking i)) := by
  rw [act_running h.1]
  rw [onHost_same (beginSending_of_begun (by rw [hf]; exact h.2))]

/-- A reply to a part whose host link has begun sending leaves the rest of the link alone. -/
theorem reply_begun {s : State} {k : Nat} {tag : Byte} {code : ReplyCode} {p : Payload} (h : s.host.begun = true) :
    (s.reply k tag code p).onHost HostLink.beginSending = s.reply k tag code p :=
  onHost_same (beginSending_send h (by simp))

/-- A request whose body is refused: the reply and nothing else (R192). -/
theorem request_error {α : Type} {i : Instr} {k : Nat} {tag : Byte} {s : State} {x : Except ReplyCode α} {code : ReplyCode}
    {f : α → State → State} (h : s.ready) (hx : x = .error code) :
    request i k tag s x f = .next ((s.taking i).reply k tag code) := by
  subst hx
  unfold request
  rw [act_running h.1]
  exact congrArg _ (reply_begun h.2)

/-- A request whose body gives its fields. -/
theorem request_ok {α : Type} {i : Instr} {k : Nat} {tag : Byte} {s : State} {x : Except ReplyCode α} {a : α}
    {f : α → State → State} (h : s.phase = .running) (hx : x = .ok a) :
    request i k tag s x f = .next ((f a (s.taking i)).onHost HostLink.beginSending) := by
  subst hx; exact act_running h

end Sys2Proof.Machine
end

