-- ==== Sys2Proof/Laws/Bytes.lean ====
section
/-! SUPPORT. Fields written as bytes are read back. -/

namespace Sys2Proof.Machine

@[simp] theorem bytes2_length (n : Nat) : (bytes2 n).length = 2 := rfl
@[simp] theorem bytes4_length (n : Nat) : (bytes4 n).length = 4 := rfl
@[simp] theorem bytesHalf_length (h : Half) : (bytesHalf h).length = 2 := rfl
@[simp] theorem bytesWord_length (w : Word) : (bytesWord w).length = 4 := rfl

@[simp] theorem natOfBytes_bytes2 (n : Nat) : natOfBytes (bytes2 n) = n % 65536 := by
  simp only [natOfBytes, bytes2, byteOf, List.foldl, BitVec.toNat_ofNat]; omega

@[simp] theorem natOfBytes_bytes4 (n : Nat) : natOfBytes (bytes4 n) = n % 4294967296 := by
  simp only [natOfBytes, bytes4, byteOf, List.foldl, BitVec.toNat_ofNat]; omega

theorem byteOf_toNat (b : Byte) : byteOf b.toNat = b := by simp [byteOf]

/-- The field at the end of what comes before it. -/
theorem fieldAt_append (a b : List Byte) (k n : Nat) : fieldAt (a ++ b) (a.length + k) n = fieldAt b k n := by
  have h : a.drop (a.length + k) = [] := List.drop_eq_nil_of_le (by omega)
  simp [fieldAt, List.drop_append, h]

theorem fieldAt_front {a b : List Byte} {k n : Nat} (h : k + n ≤ a.length) : fieldAt (a ++ b) k n = fieldAt a k n := by
  unfold fieldAt
  rw [List.drop_append_of_le_length (by omega), List.take_append_of_le_length (by simp; omega)]

theorem fieldAt_two (a b : List Byte) (n : Nat) (ha : a = bytes2 n) : fieldAt (a ++ b) 0 2 = n % 65536 := by
  subst ha; rw [fieldAt_front (by simp)]
  show natOfBytes (bytes2 n) = _
  exact natOfBytes_bytes2 n

@[simp] theorem halfAt_bytesHalf (h : Half) (rest : List Byte) : halfAt (bytesHalf h ++ rest) 0 = h := by
  unfold halfAt bytesHalf
  rw [fieldAt_two _ _ _ rfl]
  apply BitVec.eq_of_toNat_eq
  have := h.isLt
  simp; omega

@[simp] theorem halfAt_bytesHalf' (h : Half) : halfAt (bytesHalf h) 0 = h := by
  simpa using halfAt_bytesHalf h []

@[simp] theorem wordAt_bytesWord (w : Word) (rest : List Byte) : wordAt (bytesWord w ++ rest) 0 = w := by
  unfold wordAt bytesWord
  rw [fieldAt_front (by simp)]
  show BitVec.ofNat 32 (natOfBytes (bytes4 w.toNat)) = w
  rw [natOfBytes_bytes4]
  apply BitVec.eq_of_toNat_eq
  have := w.isLt
  simp; omega

@[simp] theorem wordAt_bytesWord' (w : Word) : wordAt (bytesWord w) 0 = w := by
  simpa using wordAt_bytesWord w []

end Sys2Proof.Machine
end

