-- ==== Sys2Proof/Laws/Units.lean ====
section
/-! SUPPORT. What the operations of the Store Controller, the Host Link Controller and the Supply Monitor may change. -/

set_option linter.all false

namespace Sys2Proof.Machine

@[simp] theorem only_setStation (w : List Part) (s t : State) (x : StationState) (h0 : Part.store ∈ w) (h1 : Part.inFlight ∈ w) :
    Only w s (t.setStation x) ↔ Only w s t := by
  unfold State.setStation; (try dsimp only); (repeat' split) <;> simp [h0, h1]
@[simp] theorem only_dropQueries (w : List Part) (s t : State) (h0 : Part.dock ∈ w) (h1 : Part.inFlight ∈ w)
    (h2 : Part.card ∈ w) : Only w s t.dropQueries ↔ Only w s t := by
  unfold State.dropQueries
  simp only [only_onCards, h2]
  exact only_foldl _ (by intro t a; simp [h0, h1]) _ _

theorem rebuilt_only (s : State) (l : Layout) :
    Only [.inFlight, .dock, .card, .release, .journal, .order, .fault, .store] s (s.rebuilt l) := by
  intro p hp; cases p <;> first | rfl | exact absurd hp (by decide)

@[simp] theorem only_takeWaiting (w : List Part) (s t : State)  (h0 : Part.host ∈ w) (h1 : Part.inFlight ∈ w) :
    Only w s (t.takeWaiting) ↔ Only w s t := by
  unfold State.takeWaiting; (try dsimp only); (repeat' split) <;> simp [h0, h1]
@[simp] theorem only_hearHost (w : List Part) (s t : State)  (h0 : Part.host ∈ w) (h1 : Part.inFlight ∈ w) :
    Only w s (t.hearHost) ↔ Only w s t := by
  unfold State.hearHost; (try dsimp only); (repeat' split) <;> simp [h0, h1]
@[simp] theorem only_frameFound (w : List Part) (s t : State) (x : Found) (h0 : Part.host ∈ w) (h1 : Part.inFlight ∈ w) :
    Only w s (t.frameFound x) ↔ Only w s t := by
  unfold State.frameFound; (try dsimp only); (repeat' split) <;> simp [h0, h1]
@[simp] theorem only_receive (w : List Part) (s t : State) (b : List Byte) (h0 : Part.host ∈ w) (h1 : Part.inFlight ∈ w) :
    Only w s (t.receive b) ↔ Only w s t := by
  unfold State.receive
  simp only []
  rw [only_foldl _ (by intro t a; simp [h0, h1])]; simp [h0]

@[simp] theorem only_replySent (w : List Part) (s t : State) (f : OutFrame) (h0 : Part.host ∈ w) (h1 : Part.inFlight ∈ w) :
    Only w s (t.replySent f) ↔ Only w s t := by
  unfold State.replySent; (try dsimp only); (repeat' split) <;> simp [h0, h1]
@[simp] theorem only_tick (w : List Part) (s t : State) (h0 : Part.now ∈ w) (h1 : Part.store ∈ w) :
    Only w s t.tick ↔ Only w s t :=
  only_iff fun p hp => by cases p <;> first | rfl | exact absurd h0 hp | exact absurd h1 hp

@[simp] theorem only_stopped (w : List Part) (s t : State) (p : Phase) (h0 : Part.phase ∈ w) (h1 : Part.inFlight ∈ w)
    (h2 : Part.dock ∈ w) (h3 : Part.host ∈ w) : Only w s (t.stopped p) ↔ Only w s t :=
  only_iff fun q hq => by
    cases q <;> first | rfl | exact absurd h0 hq | exact absurd h1 hq | exact absurd h2 hq | exact absurd h3 hq

@[simp] theorem only_shutDown (w : List Part) (s t : State)  (h0 : Part.phase ∈ w) (h1 : Part.inFlight ∈ w)
    (h2 : Part.dock ∈ w) (h3 : Part.host ∈ w) :
    Only w s (t.shutDown) ↔ Only w s t := by
  unfold State.shutDown; (try dsimp only); (repeat' split) <;> simp [h0, h1, h2, h3]
@[simp] theorem only_changePower (w : List Part) (s t : State) (p : PowerState) (h0 : Part.supply ∈ w)
    (h1 : Part.host ∈ w) (h2 : Part.inFlight ∈ w) :
    Only w s (t.changePower p) ↔ Only w s t := by
  unfold State.changePower; (try dsimp only); (repeat' split) <;> simp [h0, h1, h2]
@[simp] theorem only_testLevel (w : List Part) (s t : State) (n : Nat) (h0 : Part.phase ∈ w) (h1 : Part.inFlight ∈ w)
    (h2 : Part.dock ∈ w) (h3 : Part.host ∈ w) (h4 : Part.supply ∈ w) :
    Only w s (t.testLevel n) ↔ Only w s t := by
  unfold State.testLevel; (try dsimp only); (repeat' split) <;> simp [h0, h1, h2, h3, h4]
@[simp] theorem only_decidePower (w : List Part) (s t : State) (n : Nat) (h0 : Part.phase ∈ w)
    (h1 : Part.inFlight ∈ w) (h2 : Part.dock ∈ w) (h3 : Part.host ∈ w) (h4 : Part.supply ∈ w) :
    Only w s (t.decidePower n) ↔ Only w s t := by
  unfold State.decidePower; (try dsimp only); (repeat' split) <;> simp [h0, h1, h2, h3, h4]
@[simp] theorem only_followPower (w : List Part) (s t : State) (x : Option Bool) (n : Nat) (h0 : Part.phase ∈ w)
    (h1 : Part.inFlight ∈ w) (h2 : Part.dock ∈ w) (h3 : Part.host ∈ w) (h4 : Part.supply ∈ w) :
    Only w s (t.followPower x n) ↔ Only w s t := by
  unfold State.followPower; (try dsimp only); (repeat' split) <;> simp [h0, h1, h2, h3, h4]
@[simp] theorem only_takeSample (w : List Part) (s t : State) (m : Bool) (l : Byte) (h0 : Part.phase ∈ w)
    (h1 : Part.inFlight ∈ w) (h2 : Part.dock ∈ w) (h3 : Part.host ∈ w) (h4 : Part.supply ∈ w) (h5 : Part.now ∈ w)
    (h6 : Part.store ∈ w) :
    Only w s (t.takeSample m l) ↔ Only w s t := by
  unfold State.takeSample; (try dsimp only); (repeat' split) <;> simp [h0, h1, h2, h3, h4, h5, h6]


end Sys2Proof.Machine
end

