-- ==== Sys2Proof/Laws/HostLink.lean ====
section
/-! SUPPORT. The host link field by field: what sending, joining a notice, and taking a waiting request leave as it was; the hunt
finds a frame where one stands. -/

set_option linter.all false

namespace Sys2Proof.Machine

@[simp] theorem beginSending_rx (h : HostLink) : h.beginSending.rx = h.rx := by unfold HostLink.beginSending; split <;> rfl
@[simp] theorem send_rx (h : HostLink) (x : OutFrame) : (h.send x).rx = h.rx := rfl
@[simp] theorem queueNotice_rx (h : HostLink) : h.queueNotice.rx = h.rx := by unfold HostLink.queueNotice; split <;> rfl
@[simp] theorem join_rx (h : HostLink) (k : NoticeKind) : (h.join k).rx = h.rx := by
  unfold HostLink.join; dsimp only; split <;> simp
@[simp] theorem beginSending_waiting (h : HostLink) : h.beginSending.waiting = h.waiting :=
    by unfold HostLink.beginSending; split <;> rfl
@[simp] theorem send_waiting (h : HostLink) (x : OutFrame) : (h.send x).waiting = h.waiting := rfl
@[simp] theorem queueNotice_waiting (h : HostLink) : h.queueNotice.waiting = h.waiting :=
    by unfold HostLink.queueNotice; split <;> rfl
@[simp] theorem join_waiting (h : HostLink) (k : NoticeKind) : (h.join k).waiting = h.waiting := by
  unfold HostLink.join; dsimp only; split <;> simp
@[simp] theorem beginSending_requestOpen (h : HostLink) : h.beginSending.requestOpen = h.requestOpen :=
    by unfold HostLink.beginSending; split <;> rfl
@[simp] theorem send_requestOpen (h : HostLink) (x : OutFrame) : (h.send x).requestOpen = h.requestOpen := rfl
@[simp] theorem queueNotice_requestOpen (h : HostLink) : h.queueNotice.requestOpen = h.requestOpen :=
    by unfold HostLink.queueNotice; split <;> rfl
@[simp] theorem join_requestOpen (h : HostLink) (k : NoticeKind) : (h.join k).requestOpen = h.requestOpen := by
  unfold HostLink.join; dsimp only; split <;> simp
@[simp] theorem beginSending_noticeSet (h : HostLink) : h.beginSending.noticeSet = h.noticeSet :=
    by unfold HostLink.beginSending; split <;> rfl
@[simp] theorem send_noticeSet (h : HostLink) (x : OutFrame) : (h.send x).noticeSet = h.noticeSet := rfl
@[simp] theorem queueNotice_noticeSet (h : HostLink) : h.queueNotice.noticeSet = h.noticeSet :=
    by unfold HostLink.queueNotice; split <;> rfl
@[simp] theorem beginSending_noticeMask (h : HostLink) : h.beginSending.noticeMask = h.noticeMask :=
    by unfold HostLink.beginSending; split <;> rfl
@[simp] theorem send_noticeMask (h : HostLink) (x : OutFrame) : (h.send x).noticeMask = h.noticeMask := rfl
@[simp] theorem queueNotice_noticeMask (h : HostLink) : h.queueNotice.noticeMask = h.noticeMask :=
    by unfold HostLink.queueNotice; split <;> rfl
@[simp] theorem join_noticeMask (h : HostLink) (k : NoticeKind) : (h.join k).noticeMask = h.noticeMask := by
  unfold HostLink.join; dsimp only; split <;> simp
@[simp] theorem beginSending_lost (h : HostLink) : h.beginSending.lost = h.lost := by unfold HostLink.beginSending; split <;> rfl
@[simp] theorem send_lost (h : HostLink) (x : OutFrame) : (h.send x).lost = h.lost := rfl
@[simp] theorem queueNotice_lost (h : HostLink) : h.queueNotice.lost = h.lost := by unfold HostLink.queueNotice; split <;> rfl
@[simp] theorem join_lost (h : HostLink) (k : NoticeKind) : (h.join k).lost = h.lost := by
  unfold HostLink.join; dsimp only; split <;> simp
@[simp] theorem beginSending_deadline (h : HostLink) : h.beginSending.deadline = h.deadline :=
    by unfold HostLink.beginSending; split <;> rfl
@[simp] theorem send_deadline (h : HostLink) (x : OutFrame) : (h.send x).deadline = h.deadline := rfl
@[simp] theorem queueNotice_deadline (h : HostLink) : h.queueNotice.deadline = h.deadline :=
    by unfold HostLink.queueNotice; split <;> rfl
@[simp] theorem join_deadline (h : HostLink) (k : NoticeKind) : (h.join k).deadline = h.deadline := by
  unfold HostLink.join; dsimp only; split <;> simp
@[simp] theorem beginSending_lastGood (h : HostLink) : h.beginSending.lastGood = h.lastGood :=
    by unfold HostLink.beginSending; split <;> rfl
@[simp] theorem send_lastGood (h : HostLink) (x : OutFrame) : (h.send x).lastGood = h.lastGood := rfl
@[simp] theorem queueNotice_lastGood (h : HostLink) : h.queueNotice.lastGood = h.lastGood :=
    by unfold HostLink.queueNotice; split <;> rfl
@[simp] theorem join_lastGood (h : HostLink) (k : NoticeKind) : (h.join k).lastGood = h.lastGood := by
  unfold HostLink.join; dsimp only; split <;> simp
@[simp] theorem beginSending_badFrames (h : HostLink) : h.beginSending.badFrames = h.badFrames :=
    by unfold HostLink.beginSending; split <;> rfl
@[simp] theorem send_badFrames (h : HostLink) (x : OutFrame) : (h.send x).badFrames = h.badFrames := rfl
@[simp] theorem queueNotice_badFrames (h : HostLink) : h.queueNotice.badFrames = h.badFrames :=
    by unfold HostLink.queueNotice; split <;> rfl
@[simp] theorem join_badFrames (h : HostLink) (k : NoticeKind) : (h.join k).badFrames = h.badFrames := by
  unfold HostLink.join; dsimp only; split <;> simp
@[simp] theorem beginSending_overruns (h : HostLink) : h.beginSending.overruns = h.overruns :=
    by unfold HostLink.beginSending; split <;> rfl
@[simp] theorem send_overruns (h : HostLink) (x : OutFrame) : (h.send x).overruns = h.overruns := rfl
@[simp] theorem queueNotice_overruns (h : HostLink) : h.queueNotice.overruns = h.overruns :=
    by unfold HostLink.queueNotice; split <;> rfl
@[simp] theorem join_overruns (h : HostLink) (k : NoticeKind) : (h.join k).overruns = h.overruns := by
  unfold HostLink.join; dsimp only; split <;> simp
@[simp] theorem beginSending_rate (h : HostLink) : h.beginSending.rate = h.rate := by unfold HostLink.beginSending; split <;> rfl
@[simp] theorem send_rate (h : HostLink) (x : OutFrame) : (h.send x).rate = h.rate := rfl
@[simp] theorem queueNotice_rate (h : HostLink) : h.queueNotice.rate = h.rate := by unfold HostLink.queueNotice; split <;> rfl
@[simp] theorem join_rate (h : HostLink) (k : NoticeKind) : (h.join k).rate = h.rate := by
  unfold HostLink.join; dsimp only; split <;> simp
@[simp] theorem send_outgoing (h : HostLink) (x : OutFrame) : (h.send x).outgoing = h.outgoing ++ [x] := rfl
@[simp] theorem join_noticeSet (h : HostLink) (k : NoticeKind) : (h.join k).noticeSet = h.noticeSet ||| k.bit := by
  unfold HostLink.join; dsimp only; split <;> simp

/-- A kind in the notice set stays there when another joins. -/
theorem inSet_mono (k : NoticeKind) (m n : Half) (h : k.inSet m = true) : k.inSet (m ||| n) = true := by
  unfold NoticeKind.inSet at *
  simp only [bne_iff_ne, ne_eq] at *
  intro h0
  apply h
  have : (m &&& k.bit) = (m &&& k.bit) &&& ((m ||| n) &&& k.bit) := by ext i; simp; tauto
  rw [this, h0]; simp

theorem inSet_or (k : NoticeKind) (m : Half) : k.inSet (m ||| k.bit) = true := by
  unfold NoticeKind.inSet
  simp only [bne_iff_ne, ne_eq]
  have : (m ||| k.bit) &&& k.bit = k.bit := by ext i; simp; tauto
  rw [this]
  cases k <;> decide

@[simp] theorem takeWaiting_lost (s : State) : s.takeWaiting.host.lost = s.host.lost := by
  unfold State.takeWaiting; (repeat' split) <;> rfl
@[simp] theorem takeWaiting_deadline (s : State) : s.takeWaiting.host.deadline = s.host.deadline := by
  unfold State.takeWaiting; (repeat' split) <;> rfl
@[simp] theorem takeWaiting_noticeSet (s : State) : s.takeWaiting.host.noticeSet = s.host.noticeSet := by
  unfold State.takeWaiting; (repeat' split) <;> rfl
@[simp] theorem takeWaiting_noticeMask (s : State) : s.takeWaiting.host.noticeMask = s.host.noticeMask := by
  unfold State.takeWaiting; (repeat' split) <;> rfl
@[simp] theorem takeWaiting_lastGood (s : State) : s.takeWaiting.host.lastGood = s.host.lastGood := by
  unfold State.takeWaiting; (repeat' split) <;> rfl
@[simp] theorem takeWaiting_badFrames (s : State) : s.takeWaiting.host.badFrames = s.host.badFrames := by
  unfold State.takeWaiting; (repeat' split) <;> rfl
@[simp] theorem takeWaiting_overruns (s : State) : s.takeWaiting.host.overruns = s.host.overruns := by
  unfold State.takeWaiting; (repeat' split) <;> rfl
@[simp] theorem takeWaiting_outgoing (s : State) : s.takeWaiting.host.outgoing = s.host.outgoing := by
  unfold State.takeWaiting; (repeat' split) <;> rfl
@[simp] theorem takeWaiting_rx (s : State) : s.takeWaiting.host.rx = s.host.rx := by
  unfold State.takeWaiting; (repeat' split) <;> rfl
@[simp] theorem takeWaiting_rate (s : State) : s.takeWaiting.host.rate = s.host.rate := by
  unfold State.takeWaiting; (repeat' split) <;> rfl
@[simp] theorem accept_lost (h : HostLink) (x : HostFrame) : (h.accept x).lost = h.lost := by
  unfold HostLink.accept; split <;> rfl
@[simp] theorem accept_deadline (h : HostLink) (x : HostFrame) : (h.accept x).deadline = h.deadline := by
  unfold HostLink.accept; split <;> rfl
@[simp] theorem accept_noticeSet (h : HostLink) (x : HostFrame) : (h.accept x).noticeSet = h.noticeSet := by
  unfold HostLink.accept; split <;> rfl
@[simp] theorem accept_noticeMask (h : HostLink) (x : HostFrame) : (h.accept x).noticeMask = h.noticeMask := by
  unfold HostLink.accept; split <;> rfl
@[simp] theorem accept_lastGood (h : HostLink) (x : HostFrame) : (h.accept x).lastGood = h.lastGood := by
  unfold HostLink.accept; split <;> rfl
@[simp] theorem accept_badFrames (h : HostLink) (x : HostFrame) : (h.accept x).badFrames = h.badFrames := by
  unfold HostLink.accept; split <;> rfl
@[simp] theorem accept_outgoing (h : HostLink) (x : HostFrame) : (h.accept x).outgoing = h.outgoing := by
  unfold HostLink.accept; split <;> rfl
@[simp] theorem accept_rx (h : HostLink) (x : HostFrame) : (h.accept x).rx = h.rx := by
  unfold HostLink.accept; split <;> rfl
@[simp] theorem accept_rate (h : HostLink) (x : HostFrame) : (h.accept x).rate = h.rate := by
  unfold HostLink.accept; split <;> rfl
@[simp] theorem accept_requestOpen (h : HostLink) (x : HostFrame) : (h.accept x).requestOpen = h.requestOpen := by
  unfold HostLink.accept; split <;> rfl

/-- A NOTICE joins the outgoing order when the mask enables the kind that joins. -/
theorem join_notice {h : HostLink} {k : NoticeKind} (hk : k.inSet h.noticeMask = true) :
    (h.join k).outgoing.any OutFrame.isNotice = true := by
  unfold HostLink.join
  dsimp only
  rw [if_pos hk]
  unfold HostLink.queueNotice
  split
  · assumption
  · simp [OutFrame.isNotice]

/-- Taking a waiting request only adds to the work in flight. -/
theorem takeWaiting_work (s : State) : ∃ w, s.takeWaiting.inFlight = s.inFlight ++ w := by
  unfold State.takeWaiting
  split
  · exact ⟨[], by simp⟩
  · split
    · exact ⟨[], by simp⟩
    · exact ⟨[_], rfl⟩

/-! ### The hunt -/

/-- Bytes that are no start byte are passed over. -/
theorem hunt_noise (noise rest : List Byte) (n : Nat) (h : 0xC3 ∉ noise) :
    hunt (noise.length + n) (noise ++ rest) = hunt n rest := by
  induction noise with
  | nil => simp
  | cons a as ih =>
    simp only [List.mem_cons, not_or] at h
    rw [List.length_cons, show as.length + 1 + n = (as.length + n) + 1 by omega, List.cons_append, hunt,
      if_neg (fun e => h.1 e.symm)]
    exact ih h.2

theorem hunt_quiet (noise : List Byte) (n : Nat) (h : 0xC3 ∉ noise) (hn : noise.length ≤ n) : hunt n noise = ([], []) := by
  obtain ⟨k, rfl⟩ := Nat.exists_eq_add_of_le hn
  have := hunt_noise noise [] k h
  rw [List.append_nil] at this
  rw [this]; cases k <;> rfl

/-- The bytes of a frame after its start byte, followed by anything, end as that frame. -/
theorem frameAfterStart_frame (kind tag : Byte) (body rest : List Byte) (h : body.length ≤ 512) :
    frameAfterStart (withCheck (bytes2 body.length ++ [kind, tag] ++ body) ++ rest) = .good ⟨kind, tag, body⟩ rest := by
  generalize hp : bytes2 body.length ++ [kind, tag] ++ body = p
  have hl : p.length = body.length + 4 := by rw [← hp]; simp; omega
  have hd : withCheck p ++ rest = p ++ (bytesHalf (crc16 p) ++ rest) := by simp [withCheck]
  have hlen : (withCheck p ++ rest).length = body.length + 6 + rest.length := by rw [hd]; simp [hl]; omega
  have hn : fieldAt (withCheck p ++ rest) 0 2 = body.length := by
    rw [hd, ← hp, List.append_assoc, List.append_assoc, fieldAt_two _ _ _ rfl, Nat.mod_eq_of_lt (by omega)]
  have ht : (withCheck p ++ rest).take (body.length + 4) = p := by
    rw [hd, List.take_append_of_le_length (by omega), List.take_of_length_le (by omega)]
  have hh : halfAt (withCheck p ++ rest) (body.length + 4) = crc16 p := by
    have := fieldAt_append p (bytesHalf (crc16 p) ++ rest) 0 2
    rw [hl, ← hd] at this
    unfold halfAt
    rw [show body.length + 4 = body.length + 4 + 0 by rfl, this]
    exact halfAt_bytesHalf _ _
  have e2 : fieldAt (withCheck p ++ rest) 2 1 = kind.toNat := by rw [hd, ← hp]; simp [bytes2, fieldAt, natOfBytes]
  have e3 : fieldAt (withCheck p ++ rest) 3 1 = tag.toNat := by rw [hd, ← hp]; simp [bytes2, fieldAt, natOfBytes]
  have e4 : ((withCheck p ++ rest).drop 4).take body.length = body := by rw [hd, ← hp]; simp [bytes2]
  have e5 : (withCheck p ++ rest).drop (body.length + 6) = rest := by
    rw [show body.length + 6 = (p ++ bytesHalf (crc16 p)).length by simp [hl], hd, ← List.append_assoc, List.drop_left]
  unfold frameAfterStart
  rw [if_neg (by omega), hn]
  dsimp only
  rw [if_neg (by simp [Config.bodyLimit]; omega), if_neg (by omega), ht, hh, if_pos rfl, e2, e3, e4, e5,
      byteOf_toNat, byteOf_toNat]

/-- Bytes in which the hunt finds one frame, with nothing held before them. -/
theorem receive_one {s : State} {bytes : List Byte} {x : Found} (hr : s.host.rx = [])
    (h : hunt (bytes.length + 1) bytes = ([x], [])) : s.receive bytes = s.frameFound x := by
  unfold State.receive
  simp only [hr, List.nil_append, h, List.foldl]
  congr 1
  rw [onHost_same]; rw [← hr]

end Sys2Proof.Machine
end

