-- ==== Sys2Proof/Laws/Cards.lean ====
section
/-! SUPPORT. What the operations of the Card Unit may change, which record gives up its slot, and where a record is placed. -/

set_option linter.all false

namespace Sys2Proof.Machine

/-! ### The record that gives up its slot, and where a record is placed (R50, R65) -/

/-- `firstLargest` answers an element exactly when there is one. -/
@[simp] theorem firstLargest_eq_none {α : Type} (f : α → Nat) (l : List α) : firstLargest f l = none ↔ l = [] := by
  cases l with
  | nil => simp [firstLargest]
  | cons a as => simp only [firstLargest]; (repeat' split) <;> simp

/-- What `firstLargest` answers: nothing before it is as large, and nothing behind it is larger. -/
theorem firstLargest_split {α : Type} {f : α → Nat} {l : List α} {r : α} (h : firstLargest f l = some r) :
    ∃ before rest, l = before ++ r :: rest ∧ (∀ y ∈ before, f y < f r) ∧ ∀ y ∈ rest, f y ≤ f r := by
  induction l generalizing r with
  | nil => simp [firstLargest] at h
  | cons a as ih =>
    simp only [firstLargest] at h
    split at h
    · next h0 => cases h; exact ⟨[], [], by simp [(firstLargest_eq_none f as).1 h0]⟩
    · next b hb =>
      obtain ⟨before, rest, rfl, h1, h2⟩ := ih hb
      split at h <;> cases h
      · next hle =>
        refine ⟨[], before ++ b :: rest, rfl, by simp, fun y hy => ?_⟩
        rcases List.mem_append.1 hy with hy | hy
        · exact Nat.le_trans (Nat.le_of_lt (h1 y hy)) hle
        · rcases List.mem_cons.1 hy with rfl | hy
          · exact hle
          · exact Nat.le_trans (h2 y hy) hle
      · next hlt =>
        refine ⟨a :: before, rest, rfl, fun y hy => ?_, h2⟩
        rcases List.mem_cons.1 hy with rfl | hy
        · exact Nat.lt_of_not_le hlt
        · exact h1 y hy

/-- The element so placed is the one that `firstLargest` answers. -/
theorem firstLargest_of_split {α : Type} {f : α → Nat} {before rest : List α} {r : α} (h1 : ∀ y ∈ before, f y < f r)
    (h2 : ∀ y ∈ rest, f y ≤ f r) : firstLargest f (before ++ r :: rest) = some r := by
  induction before with
  | nil =>
    simp only [List.nil_append, firstLargest]
    split
    · rfl
    · next b hb =>
      obtain ⟨x, y, rfl, -, -⟩ := firstLargest_split hb
      simp [h2 b (by simp)]
  | cons a as ih =>
    simp only [List.cons_append, firstLargest, ih fun y hy => h1 y (by simp [hy])]
    simp [Nat.not_le.2 (h1 a (by simp))]

/-- `installed` says what `State.install` does. -/
theorem install_eq (s : State) (r : CardRecord) : s.install r = { s with card := installed s r } := by
  simp only [State.install, State.onCards, CardUnit.install, installed, List.any_eq_true, beq_iff_eq]

theorem hasRoom_iff (s : State) (r : CardRecord) : s.hasRoom r.card = true ↔ hasSlot s r := by
  simp only [State.hasRoom, hasSlot, State.cardRecord, Bool.or_eq_true, List.find?_isSome, beq_iff_eq]
  exact or_congr_right decide_eq_true_iff

theorem expired_eq (s : State) : s.expired = isExpired s := by
  funext r; unfold State.expired isExpired State.clockReached; cases r.expiry <;> rfl

/-- R65: a record placed with an eviction of expired records only. -/
theorem placeRecord_of_placed {s : State} {r : CardRecord} {u : CardUnit} (h : Placed s r (expiredCards s) u) :
    s.placeRecord r false = some { s with card := u } := by
  rcases h with ⟨h, rfl⟩ | ⟨h, old, ⟨before, rest, h0, h1, h2⟩, rfl⟩
  · simp [State.placeRecord, (hasRoom_iff s r).2 h, install_eq]
  · have := firstLargest_of_split h1 h2
    rw [← h0] at this
    simp only [State.placeRecord, mt (hasRoom_iff s r).1 h, Bool.false_eq_true, if_false, State.evictee, expired_eq]
    change firstLargest s.card.age _ = _ at this
    rw [expiredCards] at this
    simp only [this, Option.map_some, install_eq, State.onCards, CardUnit.drop]

/-- R50: a record placed with an eviction of an expired record, or with none of those of a PROVISIONAL one. -/
theorem placeRecord_of_sold {s : State} {r : CardRecord} {u : CardUnit} (h : Placed s r (saleEvicts s) u) :
    s.placeRecord r true = some { s with card := u } := by
  rcases h with ⟨h, rfl⟩ | ⟨h, old, ⟨before, rest, h0, h1, h2⟩, rfl⟩
  · simp [State.placeRecord, (hasRoom_iff s r).2 h, install_eq]
  · have := firstLargest_of_split h1 h2
    rw [← h0] at this
    change firstLargest s.card.age _ = _ at this
    have : s.evictee true = some old := by
      simp only [State.evictee, expired_eq, if_true]
      change (match firstLargest s.card.age (expiredCards s) with | some r => some r | none => _) = _
      unfold saleEvicts at this
      split at this
      · next h => simpa [h, firstLargest] using this
      · rw [this]
    simp only [State.placeRecord, mt (hasRoom_iff s r).1 h, Bool.false_eq_true, if_false, this, Option.map_some, install_eq,
      State.onCards, CardUnit.drop]

/-! ### What may change -/

@[simp] theorem only_install (w : List Part) (s t : State) (r : CardRecord) (h0 : Part.card ∈ w) :
    Only w s (t.install r) ↔ Only w s t := by
  unfold State.install; (try dsimp only); (repeat' split) <;> simp [h0]
theorem placeRecord_only {s s' : State} {r : CardRecord} {b : Bool} (h : s.placeRecord r b = some s') : Only [.card] s s' := by
  unfold State.placeRecord at h
  split at h
  · cases h; simp
  · cases he : s.evictee b with
    | none => rw [he] at h; cases h
    | some old => rw [he] at h; cases h; simp

@[simp] theorem only_passRider (w : List Part) (s t : State) (r : CardRecord) (p : Place) (h0 : Part.inFlight ∈ w) :
    Only w s (t.passRider r p) ↔ Only w s t := by
  unfold State.passRider; (try dsimp only); (repeat' split) <;> simp [h0]
@[simp] theorem only_passService (w : List Part) (s t : State) (r : CardRecord) (p : Place) (h0 : Part.dock ∈ w)
    (h1 : Part.inFlight ∈ w) :
    Only w s (t.passService r p) ↔ Only w s t := by
  unfold State.passService; (try dsimp only); (repeat' split) <;> simp [h0, h1]
@[simp] theorem only_passTap (w : List Part) (s t : State) (r : CardRecord) (p : Place) (h0 : Part.dock ∈ w)
    (h1 : Part.inFlight ∈ w) :
    Only w s (t.passTap r p) ↔ Only w s t := by
  unfold State.passTap; (try dsimp only); (repeat' split) <;> simp [h0, h1]
@[simp] theorem only_finishCheck (w : List Part) (s t : State) (r : CardRecord) (p : Place) (h0 : Part.dock ∈ w)
    (h1 : Part.inFlight ∈ w) :
    Only w s (t.finishCheck r p) ↔ Only w s t := by
  unfold State.finishCheck; (try dsimp only); (repeat' split) <;> simp [h0, h1]
@[simp] theorem only_unknownCard (w : List Part) (s t : State) (c : CardId) (p : Place) (h0 : Part.dock ∈ w)
    (h1 : Part.inFlight ∈ w) (h2 : Part.card ∈ w) (h3 : Part.host ∈ w) : Only w s (t.unknownCard c p) ↔ Only w s t := by
  unfold State.unknownCard
  (repeat' split) <;> simp [h0, h1, h2, h3]
  exact only_iff ((placeRecord_only ‹_›).mono (by simp [h2]))

@[simp] theorem only_newQuery (w : List Part) (s t : State) (c : CardId) (p : Place) (h0 : Part.card ∈ w) (h1 : Part.host ∈ w) :
    Only w s (t.newQuery c p) ↔ Only w s t := by
  unfold State.newQuery; (try dsimp only); (repeat' split) <;> simp [h0, h1]
@[simp] theorem only_joinQuery (w : List Part) (s t : State) (q : Query) (p : Place) (h0 : Part.dock ∈ w)
    (h1 : Part.inFlight ∈ w) (h2 : Part.card ∈ w) :
    Only w s (t.joinQuery q p) ↔ Only w s t := by
  unfold State.joinQuery; (try dsimp only); (repeat' split) <;> simp [h0, h1, h2]
@[simp] theorem only_askHost (w : List Part) (s t : State) (c : CardId) (p : Place) (h0 : Part.dock ∈ w)
    (h1 : Part.inFlight ∈ w) (h2 : Part.card ∈ w) (h3 : Part.host ∈ w) :
    Only w s (t.askHost c p) ↔ Only w s t := by
  unfold State.askHost; (try dsimp only); (repeat' split) <;> simp [h0, h1, h2, h3]
@[simp] theorem only_check (w : List Part) (s t : State) (p : Place) (r : Option CardRecord) (f : State → State)
    (h : ∀ t, Only w s (f t) ↔ Only w s t) (h0 : Part.dock ∈ w) (h1 : Part.inFlight ∈ w) :
    Only w s (t.check p r f) ↔ Only w s t := by
  unfold State.check; (repeat' split) <;> simp [h, h0, h1]

@[simp] theorem only_resolveWaiter (w : List Part) (s t : State) (c : CardId) (r : Option CardRecord) (p : Place)
    (h0 : Part.dock ∈ w) (h1 : Part.inFlight ∈ w) (h2 : Part.card ∈ w) (h3 : Part.host ∈ w) :
    Only w s (t.resolveWaiter c r p) ↔ Only w s t := by
  unfold State.resolveWaiter; simp [h0, h1, h2, h3]

@[simp] theorem only_resolveQuery (w : List Part) (s t : State) (q : Query) (r : Option CardRecord)
    (h0 : Part.dock ∈ w) (h1 : Part.inFlight ∈ w) (h2 : Part.card ∈ w) (h3 : Part.host ∈ w) :
    Only w s (t.resolveQuery q r) ↔ Only w s t := by
  unfold State.resolveQuery; exact only_foldl _ (by intro t a; simp [h0, h1, h2, h3]) _ _

@[simp] theorem only_removeQuery (w : List Part) (s t : State) (g : Byte) (h0 : Part.card ∈ w) :
    Only w s (t.removeQuery g) ↔ Only w s t := by
  unfold State.removeQuery; (try dsimp only); (repeat' split) <;> simp [h0]
@[simp] theorem only_endQueries (w : List Part) (s t : State) (h0 : Part.dock ∈ w) (h1 : Part.inFlight ∈ w)
    (h2 : Part.card ∈ w) (h3 : Part.host ∈ w) : Only w s t.endQueries ↔ Only w s t := by
  unfold State.endQueries
  rw [only_foldl _ (by intro t a; simp [h0, h1, h2, h3])]; simp [h2]

@[simp] theorem only_keepPass (w : List Part) (s t : State) (x : TerminalId) (n : Nat) (r : CardRecord) (h0 : Part.term ∈ w) :
    Only w s (t.keepPass x n r) ↔ Only w s t := by
  unfold State.keepPass; (try dsimp only); (repeat' split) <;> simp [h0]
@[simp] theorem only_setUsed (w : List Part) (s t : State) (c : CardId) (f : Nat → Nat) (h0 : Part.card ∈ w) :
    Only w s (t.setUsed c f) ↔ Only w s t := by
  unfold State.setUsed; (try dsimp only); (repeat' split) <;> simp [h0]
@[simp] theorem only_installVerdict (w : List Part) (s t : State) (r : Option CardRecord) (h0 : Part.card ∈ w) :
    Only w s (t.installVerdict r).1 ↔ Only w s t := by
  unfold State.installVerdict; (repeat' split) <;> simp [h0]

@[simp] theorem only_verdictFor (w : List Part) (s t : State) (g : Byte) (q : Query) (r : Option CardRecord)
    (h0 : Part.dock ∈ w) (h1 : Part.inFlight ∈ w) (h2 : Part.card ∈ w) (h3 : Part.host ∈ w) :
    Only w s (t.verdictFor g q r) ↔ Only w s t := by
  unfold State.verdictFor; (try dsimp only); (repeat' split) <;> simp [h0, h1, h2, h3]
@[simp] theorem only_lateVerdict (w : List Part) (s t : State) (g : Byte) (r : Option CardRecord) (h0 : Part.card ∈ w)
    (h1 : Part.host ∈ w) :
    Only w s (t.lateVerdict g r) ↔ Only w s t := by
  unfold State.lateVerdict; (try dsimp only); (repeat' split) <;> simp [h0, h1]

/-! ### What a check leaves as it was -/

/-- The queries, the next tag, and the state of the host link are as they were, and no notice left the notice set. -/
def QueriesAside (s t : State) : Prop :=
  t.card.queries = s.card.queries ∧ t.card.nextTag = s.card.nextTag ∧ t.host.lost = s.host.lost
    ∧ t.host.deadline = s.host.deadline
    ∧ ∀ k : NoticeKind, k.inSet s.host.noticeSet = true → k.inSet t.host.noticeSet = true

theorem QueriesAside.refl (s : State) : QueriesAside s s := ⟨rfl, rfl, rfl, rfl, fun _ h => h⟩

theorem QueriesAside.trans {s t u : State} (h : QueriesAside s t) (k : QueriesAside t u) : QueriesAside s u :=
  ⟨k.1.trans h.1, k.2.1.trans h.2.1, k.2.2.1.trans h.2.2.1, k.2.2.2.1.trans h.2.2.2.1,
    fun n hn => k.2.2.2.2 n (h.2.2.2.2 n hn)⟩

theorem QueriesAside.of_only {w : List Part} {s t : State} (h : Only w s t) (h0 : Part.card ∉ w) (h1 : Part.host ∉ w) :
    QueriesAside s t := by
  have a : t.card = s.card := h .card h0
  have b : t.host = s.host := h .host h1
  exact ⟨by rw [a], by rw [a], by rw [b], by rw [b], by rw [b]; exact fun _ h => h⟩

theorem install_aside (s : State) (r : CardRecord) : QueriesAside s (s.install r) :=
  ⟨rfl, rfl, rfl, rfl, fun _ h => h⟩

theorem placeRecord_aside {s s' : State} {r : CardRecord} {b : Bool} (h : s.placeRecord r b = some s') : QueriesAside s s' := by
  unfold State.placeRecord at h
  split at h
  · cases h; exact install_aside s r
  · cases he : s.evictee b with
    | none => rw [he] at h; cases h
    | some old => rw [he] at h; cases h; exact ⟨rfl, rfl, rfl, rfl, fun _ h => h⟩

theorem finishCheck_aside (s : State) (r : CardRecord) (p : Place) : QueriesAside s (s.finishCheck r p) :=
  .of_only (w := [.dock, .inFlight]) (by simp) (by decide) (by decide)

theorem denyPlace_aside (s : State) (p : Place) (why : DenyReason) : QueriesAside s (s.denyPlace p why) :=
  .of_only (w := [.dock, .inFlight]) (by simp) (by decide) (by decide)

theorem join_aside (s : State) (k : NoticeKind) : QueriesAside s (s.join k) := by
  refine ⟨rfl, rfl, ?_, ?_, fun n h => ?_⟩
  · simp [State.join]
  · simp [State.join]
  · simpa [State.join] using inSet_mono n _ _ h

theorem unknownCard_aside (s : State) (c : CardId) (p : Place) : QueriesAside s (s.unknownCard c p) := by
  unfold State.unknownCard
  (repeat' split)
  · exact denyPlace_aside s p _
  · exact denyPlace_aside s p _
  · exact (join_aside s _).trans (denyPlace_aside _ p _)
  · exact (placeRecord_aside ‹_›).trans (finishCheck_aside _ _ p)

theorem resolveWaiter_aside (s : State) (c : CardId) (own : Option CardRecord) (p : Place) :
    QueriesAside s (s.resolveWaiter c own p) := by
  unfold State.resolveWaiter State.check
  split
  · exact denyPlace_aside s p _
  · exact finishCheck_aside s _ p
  · exact unknownCard_aside s c p

theorem foldl_aside {α : Type} (f : State → α → State) (h : ∀ t a, QueriesAside t (f t a)) (l : List α) (s : State) :
    QueriesAside s (l.foldl f s) := by
  induction l generalizing s with
  | nil => exact .refl s
  | cons a l ih => exact (h s a).trans (ih (f s a))

theorem resolveQuery_aside (s : State) (q : Query) (own : Option CardRecord) : QueriesAside s (s.resolveQuery q own) :=
  foldl_aside _ (fun t p => resolveWaiter_aside t q.card own p) _ _

/-- R66: after the host link is lost no query is left, and the link is as it was set. -/
theorem endQueries_aside (s : State) : QueriesAside (s.onCards fun u => { u with queries := [] }) s.endQueries :=
  foldl_aside _ (fun t q => resolveQuery_aside t q none) _ _

/-- A lost link leaves what the store holds, and no notice leaves the notice set. -/
theorem loseLink_notices (s : State) (k : NoticeKind) (h : k.inSet s.host.noticeSet = true) :
    k.inSet s.loseLink.host.noticeSet = true := by
  unfold State.loseLink
  rw [post_host]
  exact (endQueries_aside _).2.2.2.2 k h

theorem newLimit_notices (s : State) (n : Nat) (k : NoticeKind) (h : k.inSet s.host.noticeSet = true) :
    k.inSet (s.newLimit n).host.noticeSet = true := by
  unfold State.newLimit
  (repeat' split)
  · exact h
  · exact loseLink_notices s k h
  · exact h

/-! ### A switch of settings, which may lose the link (R187, R197) -/

@[simp] theorem only_loseLink (w : List Part) (s t : State) (h1 : Part.host ∈ w) (h2 : Part.inFlight ∈ w)
    (h3 : Part.card ∈ w) (h4 : Part.dock ∈ w) : Only w s t.loseLink ↔ Only w s t := by
  unfold State.loseLink; simp [h1, h2, h3, h4]
@[simp] theorem only_newLimit (w : List Part) (s t : State) (n : Nat) (h1 : Part.host ∈ w) (h2 : Part.inFlight ∈ w)
    (h3 : Part.card ∈ w) (h4 : Part.dock ∈ w) : Only w s (t.newLimit n) ↔ Only w s t := by
  unfold State.newLimit; (repeat' split) <;> simp [h1, h2, h3, h4]
@[simp] theorem only_switchSettings (w : List Part) (s t : State) (p : PendingSettings) (h0 : Part.store ∈ w) (h1 : Part.host ∈ w)
    (h2 : Part.inFlight ∈ w) (h3 : Part.card ∈ w) (h4 : Part.dock ∈ w) :
    Only w s (t.switchSettings p) ↔ Only w s t := by
  unfold State.switchSettings; (try dsimp only); (repeat' split) <;> simp [h0, h1, h2, h3, h4]
@[simp] theorem only_switchIfDue (w : List Part) (s t : State) (h0 : Part.store ∈ w) (h1 : Part.host ∈ w)
    (h2 : Part.inFlight ∈ w) (h3 : Part.card ∈ w) (h4 : Part.dock ∈ w) :
    Only w s t.switchIfDue ↔ Only w s t := by
  unfold State.switchIfDue; (try dsimp only); (repeat' split) <;> simp [h0, h1, h2, h3, h4]

end Sys2Proof.Machine
end

