-- ==== Sys2Proof/Laws/Docks.lean ====
section
/-! SUPPORT. What the operations of the Dock Controller may change. -/

set_option linter.all false

namespace Sys2Proof.Machine

@[simp] theorem only_endPoll (w : List Part) (s t : State) (d : DockNo) (r : DockRecord) (h0 : Part.dock ∈ w)
    (h1 : Part.inFlight ∈ w) :
    Only w s (t.endPoll d r) ↔ Only w s t := by
  unfold State.endPoll; (try dsimp only); (repeat' split) <;> simp [h0, h1]
@[simp] theorem only_stepLock (w : List Part) (s t : State) (d : DockNo) (l : LockState) (h0 : Part.dock ∈ w)
    (h1 : Part.inFlight ∈ w) :
    Only w s (t.stepLock d l) ↔ Only w s t := by
  unfold State.stepLock; (try dsimp only); (repeat' split) <;> simp [h0, h1]
@[simp] theorem only_stepSlot (w : List Part) (s t : State) (d : DockNo) (m : SlotMode) (h0 : Part.dock ∈ w)
    (h1 : Part.inFlight ∈ w) :
    Only w s (t.stepSlot d m) ↔ Only w s t := by
  unfold State.stepSlot; (try dsimp only); (repeat' split) <;> simp [h0, h1]
@[simp] theorem only_settleEntry (w : List Part) (s t : State) (d : DockNo) (b : Option BikeId) (h0 : Part.dock ∈ w)
    (h1 : Part.inFlight ∈ w) :
    Only w s (t.settleEntry d b) ↔ Only w s t := by
  unfold State.settleEntry; (try dsimp only); (repeat' split) <;> simp [h0, h1]
@[simp] theorem only_takeTag (w : List Part) (s t : State) (d : DockNo) (b : Bike) (o : Bool) (h0 : Part.dock ∈ w)
    (h1 : Part.inFlight ∈ w) :
    Only w s (t.takeTag d b o) ↔ Only w s t := by
  unfold State.takeTag; (try dsimp only); (repeat' split) <;> simp [h0, h1]
@[simp] theorem only_missTag (w : List Part) (s t : State) (d : DockNo) (r : DockRecord) (h0 : Part.dock ∈ w)
    (h1 : Part.inFlight ∈ w) :
    Only w s (t.missTag d r) ↔ Only w s t := by
  unfold State.missTag; (try dsimp only); (repeat' split) <;> simp [h0, h1]
@[simp] theorem only_stepTag (w : List Part) (s t : State) (d : DockNo) (b : Option Bike) (h0 : Part.dock ∈ w)
    (h1 : Part.inFlight ∈ w) :
    Only w s (t.stepTag d b) ↔ Only w s t := by
  unfold State.stepTag; (try dsimp only); (repeat' split) <;> simp [h0, h1]
@[simp] theorem only_noteChatter (w : List Part) (s t : State) (d : DockNo) (h0 : Part.dock ∈ w) (h1 : Part.inFlight ∈ w) :
    Only w s (t.noteChatter d) ↔ Only w s t := by
  unfold State.noteChatter; (try dsimp only); (repeat' split) <;> simp [h0, h1]
@[simp] theorem only_takeOrder (w : List Part) (s t : State) (d : DockNo) (h0 : Part.dock ∈ w) :
    Only w s (t.takeOrder d) ↔ Only w s t := by
  unfold State.takeOrder; (try dsimp only); (repeat' split) <;> simp [h0]
@[simp] theorem only_openReportWindow (w : List Part) (s t : State) (d : DockNo) (h0 : Part.dock ∈ w) :
    Only w s (t.openReportWindow d) ↔ Only w s t := by
  unfold State.openReportWindow; (try dsimp only); (repeat' split) <;> simp [h0]
@[simp] theorem only_countedInsertion (w : List Part) (s t : State) (d : DockNo) (r : DockRecord) (b : Bool)
    (h0 : Part.dock ∈ w) (h1 : Part.inFlight ∈ w) :
    Only w s (t.countedInsertion d r b) ↔ Only w s t := by
  unfold State.countedInsertion; (try dsimp only); (repeat' split) <;> simp [h0, h1]
@[simp] theorem only_uncountedInsertion (w : List Part) (s t : State) (d : DockNo) (h0 : Part.dock ∈ w) (h1 : Part.inFlight ∈ w) :
    Only w s (t.uncountedInsertion d) ↔ Only w s t := by
  unfold State.uncountedInsertion; (try dsimp only); (repeat' split) <;> simp [h0, h1]
@[simp] theorem only_tellRemoval (w : List Part) (s t : State) (d : DockNo) (b : Option BikeId) (h0 : Part.dock ∈ w)
    (h1 : Part.inFlight ∈ w) :
    Only w s (t.tellRemoval d b) ↔ Only w s t := by
  unfold State.tellRemoval; (try dsimp only); (repeat' split) <;> simp [h0, h1]
@[simp] theorem only_removal (w : List Part) (s t : State) (d : DockNo) (r : DockRecord) (h0 : Part.dock ∈ w)
    (h1 : Part.inFlight ∈ w) :
    Only w s (t.removal d r) ↔ Only w s t := by
  unfold State.removal; (try dsimp only); (repeat' split) <;> simp [h0, h1]
@[simp] theorem only_applyDecision (w : List Part) (s t : State) (d : DockNo) (b : Bool) (q : Decision) (h0 : Part.dock ∈ w)
    (h1 : Part.inFlight ∈ w) :
    Only w s (t.applyDecision d b q) ↔ Only w s t := by
  unfold State.applyDecision; (try dsimp only); (repeat' split) <;> simp [h0, h1]
@[simp] theorem only_testSensor (w : List Part) (s t : State) (d : DockNo) (h0 : Part.inFlight ∈ w) :
    Only w s (t.testSensor d) ↔ Only w s t := by
  unfold State.testSensor; (try dsimp only); (repeat' split) <;> simp [h0]
@[simp] theorem only_stepPresence (w : List Part) (s t : State) (d : DockNo) (n : Nat) (b : Bool) (h0 : Part.dock ∈ w)
    (h1 : Part.inFlight ∈ w) :
    Only w s (t.stepPresence d n b) ↔ Only w s t := by
  unfold State.stepPresence; (try dsimp only); (repeat' split) <;> simp [h0, h1]
@[simp] theorem only_stepTap (w : List Part) (s t : State) (d : DockNo) (c : Option CardId) (h0 : Part.dock ∈ w)
    (h1 : Part.inFlight ∈ w) :
    Only w s (t.stepTap d c) ↔ Only w s t := by
  unfold State.stepTap; (try dsimp only); (repeat' split) <;> simp [h0, h1]
@[simp] theorem only_stepPress (w : List Part) (s t : State) (d : DockNo) (n : Nat) (h0 : Part.inFlight ∈ w) :
    Only w s (t.stepPress d n) ↔ Only w s t := by
  unfold State.stepPress; (try dsimp only); (repeat' split) <;> simp [h0]
@[simp] theorem only_stepBattery (w : List Part) (s t : State) (d : DockNo) (n : Option Nat) (h0 : Part.dock ∈ w)
    (h1 : Part.inFlight ∈ w) :
    Only w s (t.stepBattery d n) ↔ Only w s t := by
  unfold State.stepBattery; (try dsimp only); (repeat' split) <;> simp [h0, h1]
@[simp] theorem only_stepJoin (w : List Part) (s t : State) (d : DockNo) (b : Bool) (h0 : Part.inFlight ∈ w) :
    Only w s (t.stepJoin d b) ↔ Only w s t := by
  unfold State.stepJoin; (try dsimp only); (repeat' split) <;> simp [h0]
@[simp] theorem only_takeReport (w : List Part) (s t : State) (p : Poll) (r : DockRecord) (q : DockReport)
    (h0 : Part.dock ∈ w) (h1 : Part.inFlight ∈ w) :
    Only w s (t.takeReport p r q) ↔ Only w s t := by
  unfold State.takeReport; (try dsimp only); (repeat' split) <;> simp [h0, h1]
@[simp] theorem only_missPoll (w : List Part) (s t : State) (d : DockNo) (r : DockRecord) (h0 : Part.dock ∈ w)
    (h1 : Part.inFlight ∈ w) :
    Only w s (t.missPoll d r) ↔ Only w s t := by
  unfold State.missPoll; (try dsimp only); (repeat' split) <;> simp [h0, h1]
@[simp] theorem only_takeAnswer (w : List Part) (s t : State) (p : Poll) (r : DockRecord) (q : Option DockReport)
    (h0 : Part.dock ∈ w) (h1 : Part.inFlight ∈ w) :
    Only w s (t.takeAnswer p r q) ↔ Only w s t := by
  unfold State.takeAnswer; (try dsimp only); (repeat' split) <;> simp [h0, h1]

end Sys2Proof.Machine
end

