-- ==== Sys2Proof/Laws/Faults.lean ====
section
/-! SUPPORT. What the operations of the Fault Unit may change. -/

set_option linter.all false

namespace Sys2Proof.Machine

@[simp] theorem only_changeHolds (w : List Part) (s t : State) (d : DockNo) (f : DockRecord → DockRecord) (h0 : Part.dock ∈ w)
    (h1 : Part.release ∈ w) (h2 : Part.inFlight ∈ w) : Only w s (t.changeHolds d f) ↔ Only w s t := by
  unfold State.changeHolds; (try dsimp only); (repeat' split) <;> simp [h0, h1, h2]

@[simp] theorem only_setHold (w : List Part) (s t : State) (x : FaultSubject) (k : FaultKind) (d : Option DockNo)
    (b : Bool) (h0 : Part.dock ∈ w) (h1 : Part.release ∈ w) (h2 : Part.inFlight ∈ w) :
    Only w s (t.setHold x k d b) ↔ Only w s t := by
  unfold State.setHold; (try dsimp only); (repeat' split) <;> simp [h0, h1, h2]
@[simp] theorem only_onRecord (w : List Part) (s t : State) (x : FaultSubject) (k : FaultKind) (f : FaultRecord
    → FaultRecord) (h0 : Part.fault ∈ w) :
    Only w s (t.onRecord x k f) ↔ Only w s t := by
  unfold State.onRecord; (try dsimp only); (repeat' split) <;> simp [h0]
@[simp] theorem only_recordRaise (w : List Part) (s t : State) (x : FaultSubject) (k : FaultKind)
    (c : Option DockContext) (h0 : Part.fault ∈ w) (h1 : Part.host ∈ w) :
    Only w s (t.recordRaise x k c) ↔ Only w s t := by
  unfold State.recordRaise; (try dsimp only); (repeat' split) <;> simp [h0, h1]
@[simp] theorem only_resolveRecord (w : List Part) (s t : State) (x : FaultSubject) (k : FaultKind) (h0 : Part.fault ∈ w) :
    Only w s (t.resolveRecord x k) ↔ Only w s t := by
  unfold State.resolveRecord; (try dsimp only); (repeat' split) <;> simp [h0]
@[simp] theorem only_resolveFault (w : List Part) (s t : State) (x : FaultSubject) (k : FaultKind) (d : Option DockNo)
    (h0 : Part.dock ∈ w) (h1 : Part.release ∈ w) (h2 : Part.inFlight ∈ w) (h3 : Part.fault ∈ w) :
    Only w s (t.resolveFault x k d) ↔ Only w s t := by
  unfold State.resolveFault; (try dsimp only); (repeat' split) <;> simp [h0, h1, h2, h3]
@[simp] theorem only_tellJamCleared (w : List Part) (s t : State) (d : DockNo) (h0 : Part.inFlight ∈ w) :
    Only w s (t.tellJamCleared d) ↔ Only w s t := by
  unfold State.tellJamCleared; (try dsimp only); (repeat' split) <;> simp [h0]
@[simp] theorem only_clearHolds (w : List Part) (s t : State) (d : DockNo) (r : DockRecord) (h0 : Part.dock ∈ w)
    (h1 : Part.release ∈ w) (h2 : Part.inFlight ∈ w) (h3 : Part.fault ∈ w) : Only w s (t.clearHolds d r) ↔ Only w s t := by
  have hf := fun t => only_foldl (w := w) (s := s) (fun (s : State) k => s.resolveRecord (.dock d) k)
    (fun t k => only_resolveRecord w s t _ k h3) clearableKinds t
  unfold State.clearHolds; (try dsimp only); (repeat' split) <;> simp [h0, h1, h2, h3, hf]

@[simp] theorem only_acknowledge (w : List Part) (s t : State) (x : FaultSubject) (k : FaultKind) (h0 : Part.fault ∈ w) :
    Only w s (t.acknowledge x k) ↔ Only w s t := by
  unfold State.acknowledge; (try dsimp only); (repeat' split) <;> simp [h0]
theorem clearFault_only (s : State) (x : FaultSubject) (k : FaultKind) :
    Only [.dock, .release, .inFlight, .fault] s (s.clearFault x k).2 := by
  unfold State.clearFault State.clearLinkLoss State.clearDockKind State.clearRiderReport
  (repeat' split) <;> simp <;> (repeat' split) <;> simp


end Sys2Proof.Machine
end

