-- ==== Sys2Proof/Laws/Orders.lean ====
section
/-! SUPPORT. What the operations of the Order Unit may change, and which session docks can be given up. -/

set_option linter.all false

namespace Sys2Proof.Machine

@[simp] theorem only_restartIdle (w : List Part) (s t : State)  (h0 : Part.order ∈ w) :
    Only w s (t.restartIdle) ↔ Only w s t := by
  unfold State.restartIdle; (try dsimp only); (repeat' split) <;> simp [h0]
@[simp] theorem only_countDone (w : List Part) (s t : State) (o : OrderId) (h0 : Part.order ∈ w) :
    Only w s (t.countDone o) ↔ Only w s t := by
  unfold State.countDone; (try dsimp only); (repeat' split) <;> simp [h0]
@[simp] theorem only_holdToTarget (w : List Part) (s t : State)  (h0 : Part.inFlight ∈ w) :
    Only w s (t.holdToTarget) ↔ Only w s t := by
  unfold State.holdToTarget; (try dsimp only); (repeat' split) <;> simp [h0]
@[simp] theorem only_leaveDock (w : List Part) (s t : State) (d : DockNo) (o : OrderId) (h0 : Part.order ∈ w) :
    Only w s (t.leaveDock d o) ↔ Only w s t := by
  unfold State.leaveDock; split <;> simp [h0]
theorem reserve_only {s s' : State} {d : DockNo} {o : OrderId} (h : s.reserve d o = .ok s') :
    Only [.release, .order, .inFlight] s s' := by
  unfold State.reserve at h
  (repeat' split at h) <;> first | cases h | skip
  all_goals simp

@[simp] theorem only_tryReserve (w : List Part) (s t : State) (d : DockNo) (o : OrderId) (h0 : Part.release ∈ w)
    (h1 : Part.order ∈ w) (h2 : Part.inFlight ∈ w) : Only w s (t.tryReserve d o) ↔ Only w s t := by
  unfold State.tryReserve
  split
  · exact only_iff ((reserve_only ‹_›).mono (by simp [h0, h1, h2]))
  · rfl

@[simp] theorem only_passDock (w : List Part) (s t : State) (d : DockNo) (h0 : Part.release ∈ w) (h1 : Part.order ∈ w)
    (h2 : Part.inFlight ∈ w) :
    Only w s (t.passDock d) ↔ Only w s t := by
  unfold State.passDock; (try dsimp only); (repeat' split) <;> simp [h0, h1, h2]
@[simp] theorem only_placementPass (w : List Part) (s t : State) (h0 : Part.release ∈ w) (h1 : Part.order ∈ w)
    (h2 : Part.inFlight ∈ w) : Only w s t.placementPass ↔ Only w s t := by
  unfold State.placementPass
  split
  · exact only_foldl _ (fun t d => only_passDock w s t d h0 h1 h2) _ _
  · rfl

@[simp] theorem only_closeSession (w : List Part) (s t : State) (v : VanSession) (h0 : Part.journal ∈ w)
    (h1 : Part.store ∈ w) (h2 : Part.release ∈ w) (h3 : Part.inFlight ∈ w) (h4 : Part.dock ∈ w) (h5 : Part.host ∈ w)
    (h6 : Part.order ∈ w) :
    Only w s (t.closeSession v) ↔ Only w s t := by
  unfold State.closeSession; (try dsimp only); (repeat' split) <;> simp [h0, h1, h2, h3, h4, h5, h6]
@[simp] theorem only_testComplete (w : List Part) (s t : State)  (h0 : Part.journal ∈ w) (h1 : Part.store ∈ w)
    (h2 : Part.release ∈ w) (h3 : Part.inFlight ∈ w) (h4 : Part.dock ∈ w) (h5 : Part.host ∈ w) (h6 : Part.order ∈ w) :
    Only w s (t.testComplete) ↔ Only w s t := by
  unfold State.testComplete; (try dsimp only); (repeat' split) <;> simp [h0, h1, h2, h3, h4, h5, h6]
@[simp] theorem only_enterClosing (w : List Part) (s t : State) (c : CloseCause) (h0 : Part.journal ∈ w)
    (h1 : Part.store ∈ w) (h2 : Part.release ∈ w) (h3 : Part.inFlight ∈ w) (h4 : Part.dock ∈ w) (h5 : Part.host ∈ w)
    (h6 : Part.order ∈ w) :
    Only w s (t.enterClosing c) ↔ Only w s t := by
  unfold State.enterClosing; (try dsimp only); (repeat' split) <;> simp [h0, h1, h2, h3, h4, h5, h6]
  rw [only_foldl _ (fun t d => only_onDock w s t d _ h4)]; simp [h3]

@[simp] theorem only_afterDone (w : List Part) (s t : State) (o : OrderId) (h0 : Part.journal ∈ w)
    (h1 : Part.store ∈ w) (h2 : Part.release ∈ w) (h3 : Part.inFlight ∈ w) (h4 : Part.dock ∈ w) (h5 : Part.host ∈ w)
    (h6 : Part.order ∈ w) :
    Only w s (t.afterDone o) ↔ Only w s t := by
  unfold State.afterDone; (try dsimp only); (repeat' split) <;> simp [h0, h1, h2, h3, h4, h5, h6]
@[simp] theorem only_openSession (w : List Part) (s t : State) (c : CardId) (p : Place) (o : Order)
    (h0 : Part.journal ∈ w) (h2 : Part.release ∈ w) (h3 : Part.inFlight ∈ w) (h4 : Part.dock ∈ w) (h5 : Part.host ∈ w)
    (h6 : Part.order ∈ w) :
    Only w s (t.openSession c p o) ↔ Only w s t := by
  unfold State.openSession; (try dsimp only); (repeat' split) <;> simp [h0, h2, h3, h4, h5, h6]
@[simp] theorem only_moveTap (w : List Part) (s t : State) (v : VanSession) (c : CardId) (d : DockNo)
    (h0 : Part.dock ∈ w) (h1 : Part.inFlight ∈ w) :
    Only w s (t.moveTap v c d) ↔ Only w s t := by
  unfold State.moveTap; (try dsimp only); (repeat' split) <;> simp [h0, h1]
@[simp] theorem only_collectTap (w : List Part) (s t : State) (v : VanSession) (c : CardId) (d : DockNo)
    (h0 : Part.dock ∈ w) (h1 : Part.inFlight ∈ w) :
    Only w s (t.collectTap v c d) ↔ Only w s t := by
  unfold State.collectTap; (try dsimp only); (repeat' split) <;> simp [h0, h1]
@[simp] theorem only_deliverTap (w : List Part) (s t : State) (v : VanSession) (d : DockNo) (h0 : Part.dock ∈ w)
    (h1 : Part.order ∈ w) :
    Only w s (t.deliverTap v d) ↔ Only w s t := by
  unfold State.deliverTap; (try dsimp only); (repeat' split) <;> simp [h0, h1]
@[simp] theorem only_openTap (w : List Part) (s t : State) (v : VanSession) (c : CardId) (p : Place)
    (h0 : Part.journal ∈ w) (h1 : Part.store ∈ w) (h2 : Part.release ∈ w) (h3 : Part.inFlight ∈ w)
    (h4 : Part.dock ∈ w) (h5 : Part.host ∈ w) (h6 : Part.order ∈ w) :
    Only w s (t.openTap v c p) ↔ Only w s t := by
  unfold State.openTap; (try dsimp only); (repeat' split) <;> simp [h0, h1, h2, h3, h4, h5, h6]
@[simp] theorem only_cancelSession (w : List Part) (s t : State)  (h0 : Part.journal ∈ w) (h1 : Part.store ∈ w)
    (h2 : Part.release ∈ w) (h3 : Part.inFlight ∈ w) (h4 : Part.dock ∈ w) (h5 : Part.host ∈ w) (h6 : Part.order ∈ w) :
    Only w s (t.cancelSession) ↔ Only w s t := by
  unfold State.cancelSession; (try dsimp only); (repeat' split) <;> simp [h0, h1, h2, h3, h4, h5, h6]
@[simp] theorem only_take (w : List Part) (s t : State) (c : Claim) (b : Option BikeId) (x y : Bool)
    (h0 : Part.journal ∈ w) (h1 : Part.store ∈ w) (h2 : Part.release ∈ w) (h3 : Part.inFlight ∈ w)
    (h4 : Part.dock ∈ w) (h5 : Part.host ∈ w) :
    Only w s (t.take c b x y) ↔ Only w s t := by
  unfold State.take; (try dsimp only); (repeat' split) <;> simp [h0, h1, h2, h3, h4, h5]

/-! ### The session docks (R139, R144; logs 36 and 42) -/

theorem countsClaim_iff (s : State) (d : DockNo) (o : OrderId) : s.countsClaim d o = true ↔ countsAt s d o := by
  unfold State.countsClaim countsAt
  cases s.claimOn d <;> simp [and_assoc]

theorem standsFor_iff (s : State) (v : VanSession) (d : DockNo) : s.standsFor v d = true ↔ standsIn s v d := by
  simp [State.standsFor, standsIn, countsClaim_iff]

theorem releaseAsked_false_iff (s : State) (d : DockNo) :
    s.releaseAsked d = false ↔ s.requestOn d = none ∧ ∀ o card, .vanReleaseRequest d o card ∉ s.inFlight := by
  simp only [State.releaseAsked, Bool.or_eq_false_iff, Option.isSome_eq_false_iff, Option.isNone_iff_eq_none, List.any_eq_false]
  refine and_congr_right fun _ => ⟨fun h o card hm => by simpa using h _ hm, fun h i hi => ?_⟩
  split
  · rename_i e o card
    intro he
    obtain rfl : e = d := by simpa using he
    exact h o card hi
  · simp

/-- What can be given up, and nothing else, is droppable. -/
theorem mem_droppable (s : State) (v : VanSession) (d : DockNo) : d ∈ s.droppable v ↔ canGiveUp s v d := by
  have key : s.standsFor v d = true → (s.reservedFor d (some v.order) = true ↔ ∃ c, s.claimOn d = some c ∧ c.state = .reserved) := by
    rw [standsFor_iff]
    rintro ⟨⟨c, hc, hk, ho, _⟩, _⟩
    simp [State.reservedFor, hc, hk, ho]
  simp only [State.droppable, List.mem_insertionSort, List.mem_map, List.mem_filter, Bool.and_eq_true, Bool.not_eq_true',
    beq_iff_eq, Prod.exists, exists_and_right, exists_eq_right, canGiveUp, releaseAsked_false_iff]
  constructor
  · rintro ⟨m, hm, ⟨⟨rfl, hs⟩, hr⟩, ha⟩
    exact ⟨hm, (standsFor_iff _ _ _).1 hs, (key hs).1 hr, ha⟩
  · rintro ⟨hm, hs, hr, ha⟩
    have hs := (standsFor_iff _ _ _).2 hs
    exact ⟨_, hm, ⟨⟨rfl, hs⟩, (key hs).2 hr⟩, ha⟩

/-- The first droppable dock has the highest number. -/
theorem droppable_head_max {s : State} {v : VanSession} {h : DockNo} {rest : List DockNo} (e : s.droppable v = h :: rest) :
    canGiveUp s v h ∧ ∀ d, canGiveUp s v d → d ≤ h := by
  have hp : (s.droppable v).Pairwise (fun a b => b ≤ a) := by
    unfold State.droppable
    exact List.pairwise_insertionSort (r := fun a b : DockNo => b ≤ a) _
  refine ⟨(mem_droppable s v h).1 (by simp [e]), fun d hd => ?_⟩
  have hm := (mem_droppable s v d).2 hd
  rw [e] at hm hp
  rcases List.mem_cons.1 hm with rfl | hm
  · exact le_refl _
  · exact (List.pairwise_cons.1 hp).1 _ hm

end Sys2Proof.Machine
end

