-- ==== Sys2Proof/Laws/Restart.lean ====
section
/-! SUPPORT. What a reset keeps: the commands that wait and the straps. -/

namespace Sys2Proof.Machine

theorem closeForRestart_only (s : State) : Only [.journal, .store, .release, .inFlight, .order] s s.closeForRestart := by
  unfold State.closeForRestart
  split
  · simp
  · split <;> simp

theorem resolveLines_only (s : State) : Only [.fault] s s.resolveLines := by
  unfold State.resolveLines
  rw [only_foldl]
  · simp
  · intro t a; exact only_onFaults _ _ _ _ (by decide)

theorem retakeDocks_only (s : State) : Only [.dock, .inFlight] s s.retakeDocks := by
  unfold State.retakeDocks
  rw [only_foldl]
  · simp
  · intro t a; simp

theorem recountJournal_only (s : State) : Only [.journal] s s.recountJournal := by
  unfold State.recountJournal; simp

theorem warmStart_work_only (s : State) :
    Only [.journal, .store, .release, .inFlight, .order, .fault, .dock] s
      s.closeForRestart.resolveLines.retakeDocks.recountJournal.admitWithheld := by
  rw [only_admitWithheld _ _ _ (by decide) (by decide) (by decide)]
  exact ((((closeForRestart_only s).mono (by decide)).trans ((resolveLines_only _).mono (by decide))).trans
    ((retakeDocks_only _).mono (by decide))).trans ((recountJournal_only _).mono (by decide))

theorem warmStart_pending (s : State) (c : ResetCause) : (s.warmStart c).pending = s.pending :=
  (warmStart_work_only (s.warmBlocks c)) .pending (by decide)

theorem warmStart_straps (s : State) (c : ResetCause) : (s.warmStart c).straps = s.straps :=
  (warmStart_work_only (s.warmBlocks c)) .straps (by decide)

@[simp] theorem restart_pending (s : State) (c : ResetCause) : (s.restart c).pending = s.pending := by
  unfold State.restart; split
  · exact warmStart_pending s c
  · rfl

@[simp] theorem restart_straps (s : State) (c : ResetCause) : (s.restart c).straps = s.straps := by
  unfold State.restart; split
  · exact warmStart_straps s c
  · rfl

theorem warmStart_resetLow (s : State) (c : ResetCause) : (s.warmStart c).resetLow = s.resetLow :=
  (warmStart_work_only (s.warmBlocks c)) .resetLow (by decide)

@[simp] theorem restart_resetLow (s : State) (c : ResetCause) : (s.restart c).resetLow = s.resetLow := by
  unfold State.restart; split
  · exact warmStart_resetLow s c
  · rfl

theorem warmStart_phase (s : State) (c : ResetCause) : (s.warmStart c).phase = .running :=
  (warmStart_work_only (s.warmBlocks c)) .phase (by decide)

@[simp] theorem restart_phase (s : State) (c : ResetCause) : (s.restart c).phase = .running := by
  unfold State.restart; split
  · exact warmStart_phase s c
  · rfl

/-- After a restart every part but the commands that wait, the straps and the reset line may differ. -/
theorem restart_only (s : State) (c : ResetCause) :
    Only [.phase, .now, .inFlight, .host, .dock, .card, .release, .term, .journal, .order, .fault, .supply, .store] s
      (s.restart c) := by
  intro p hp
  cases p <;>
    first | exact restart_pending s c | exact restart_straps s c | exact restart_resetLow s c | exact absurd hp (by decide)

theorem darkened_only (s : State) (p : Phase) : Only [.phase, .host, .inFlight, .dock, .term] s (s.darkened p) := by
  intro q hq; cases q <;> first | rfl | exact absurd hq (by decide)

/-- With the reset line high the reset is made; with it low the part ends held in reset (R176). -/
theorem restartUnlessHeld_high {s : State} {c : ResetCause} (h : s.resetLow = false) :
    s.restartUnlessHeld c = s.restart c := by
  simp [State.restartUnlessHeld, h]

theorem restartUnlessHeld_low {s : State} {c : ResetCause} (h : s.resetLow = true) :
    s.restartUnlessHeld c = (s.restart c).darkened .lineLow := by
  simp [State.restartUnlessHeld, h]

theorem restartUnlessHeld_only (s : State) (c : ResetCause) :
    Only [.phase, .now, .inFlight, .host, .dock, .card, .release, .term, .journal, .order, .fault, .supply, .store] s
      (s.restartUnlessHeld c) := by
  cases h : s.resetLow
  · rw [restartUnlessHeld_high h]; exact restart_only s c
  · rw [restartUnlessHeld_low h]; exact (restart_only s c).trans ((darkened_only _ _).mono (by decide))

end Sys2Proof.Machine
end

