-- ==== Sys2Proof/Laws/Terminals.lean ====
section
/-! SUPPORT. What the operations of the Terminal Unit may change. -/

set_option linter.all false

namespace Sys2Proof.Machine

@[simp] theorem only_powerTerminal (w : List Part) (s t : State) (p : PowerState) (x : TerminalId) (h0 : Part.term ∈ w) (h1 : Part.host ∈ w) (h2 : Part.card ∈ w)
    (h3 : Part.release ∈ w) (h4 : Part.inFlight ∈ w) :
    Only w s (t.powerTerminal p x) ↔ Only w s t := by
  unfold State.powerTerminal; dsimp only; split <;> simp [h0, h1, h2, h3, h4]




@[simp] theorem only_chooseClass (w : List Part) (s t : State) (x : TerminalId) (r : Rights) (h0 : Part.term ∈ w)
    (h1 : Part.inFlight ∈ w) :
    Only w s (t.chooseClass x r) ↔ Only w s t := by
  unfold State.chooseClass; (try dsimp only); (repeat' split) <;> simp [h0, h1]
@[simp] theorem only_takeResult (w : List Part) (s t : State) (x : TerminalId) (r : CheckResult) (h0 : Part.term ∈ w)
    (h1 : Part.inFlight ∈ w) :
    Only w s (t.takeResult x r) ↔ Only w s t := by
  unfold State.takeResult; (try dsimp only); (repeat' split) <;> simp [h0, h1]
@[simp] theorem only_claimFailed (w : List Part) (s t : State) (x : TerminalId) (d : DockNo) (h0 : Part.term ∈ w)
    (h1 : Part.inFlight ∈ w) :
    Only w s (t.claimFailed x d) ↔ Only w s t := by
  unfold State.claimFailed; (try dsimp only); (repeat' split) <;> simp [h0, h1]
@[simp] theorem only_takeClaimNews (w : List Part) (s t : State) (x : TerminalId) (d : DockNo) (n : ClaimNews)
    (h0 : Part.term ∈ w) (h1 : Part.inFlight ∈ w) :
    Only w s (t.takeClaimNews x d n) ↔ Only w s t := by
  unfold State.takeClaimNews; (try dsimp only); (repeat' split) <;> simp [h0, h1]
@[simp] theorem only_enableLine (w : List Part) (s t : State) (x : TerminalId) (h0 : Part.term ∈ w)
    (h1 : Part.host ∈ w) (h2 : Part.dock ∈ w) (h3 : Part.release ∈ w) (h4 : Part.inFlight ∈ w) (h5 : Part.fault ∈ w) :
    Only w s (t.enableLine x) ↔ Only w s t := by
  unfold State.enableLine; (try dsimp only); (repeat' split) <;> simp [h0, h1, h2, h3, h4, h5]

end Sys2Proof.Machine
end

