-- ==== Sys2Proof/Laws/Exec.lean ====
section
/-! SUPPORT. Which parts of the state each command may change, said once for all commands (`parts`, `exec_only`). -/

set_option linter.all false

namespace Sys2Proof.Machine

/-- The parts that a command may change. -/
def parts : Instr → List Part
  | .hostFrameGood _ => [.host, .inFlight]
  | .hostFrameBad _ => [.host, .inFlight]
  | .frameSent => [.host, .inFlight]
  | .unknownKindRequest _ _ => [.host, .inFlight]
  | .status _ _ => [.host, .inFlight]
  | .noticeMask _ _ => [.host, .inFlight]
  | .timeSet _ _ => [.host, .inFlight, .store, .card, .dock]
  | .reset _ _ => [.host, .inFlight, .phase, .dock]
  | .requestReset => [.phase, .now, .inFlight, .host, .dock, .card, .release, .term, .journal, .order, .fault, .supply, .store]
  | .layoutGet _ _ => [.host, .inFlight]
  | .layoutSet _ _ => [.host, .inFlight, .dock, .card, .release, .journal, .order, .fault, .store]
  | .serviceStart _ _ => [.host, .inFlight, .store]
  | .serviceStop _ _ => [.host, .inFlight, .store]
  | .settingsGet _ _ => [.host, .inFlight]
  | .settingsStage _ _ => [.host, .inFlight, .store, .card, .dock]
  | .settingsDrop _ _ => [.host, .inFlight, .store]
  | .settingsSwitch => [.host, .inFlight, .store, .card, .dock]
  | .dockGet _ _ => [.host, .inFlight]
  | .dockSetService _ _ => [.host, .inFlight, .dock, .release]
  | .cardPut _ _ => [.host, .inFlight, .card]
  | .cardGet _ _ => [.host, .inFlight]
  | .cardDrop _ _ => [.host, .inFlight, .card]
  | .cardVerdict _ _ => [.host, .inFlight, .card, .dock]
  | .journalRead _ _ => [.host, .inFlight]
  | .journalRelease _ _ => [.host, .inFlight, .journal, .dock]
  | .orderAdd _ _ => [.host, .inFlight, .order]
  | .orderCancel _ _ => [.host, .inFlight, .order, .dock, .journal, .store, .release]
  | .orderList _ _ => [.host, .inFlight]
  | .faultList _ _ => [.host, .inFlight]
  | .faultAck _ _ => [.host, .inFlight, .fault]
  | .faultClear _ _ => [.host, .inFlight, .fault, .dock, .release]
  | .terminalGet _ _ => [.host, .inFlight]
  | .terminalEnable _ _ => [.host, .inFlight, .term, .fault, .dock, .release]
  | .silenceDeadline => [.host, .inFlight, .card, .dock]
  | .dockPoll => [.host, .inFlight, .dock]
  | .dockReport _ => [.host, .inFlight, .dock]
  | .dockPollMissed => [.host, .inFlight, .dock]
  | .reportWindowDeadline _ => [.host, .inFlight, .dock]
  | .crewWindowDeadline _ => [.host, .inFlight, .dock, .order]
  | .dockCapChange _ => [.host, .inFlight, .dock, .release]
  | .dockClaimNotice _ => [.host, .inFlight, .dock]
  | .cardCheck _ _ => [.host, .inFlight, .card, .dock]
  | .queryDeadline _ => [.host, .inFlight, .card, .dock]
  | .passSale _ _ _ _ _ => [.host, .inFlight, .card, .dock, .term]
  | .charge _ _ => [.host, .inFlight, .card]
  | .refund _ => [.host, .inFlight, .card]
  | .claimRequest _ _ _ _ _ => [.host, .inFlight, .dock, .release, .term, .card]
  | .claimGrant _ _ => [.host, .inFlight, .dock, .release, .term, .order, .card]
  | .reservationRequest _ _ => [.host, .inFlight, .release, .order]
  | .reservationDrop _ => [.host, .inFlight, .release]
  | .vanReleaseRequest _ _ _ => [.host, .inFlight, .dock, .release, .order]
  | .claimLockChange _ _ _ => [.host, .inFlight, .dock, .release]
  | .claimRemoval _ _ => [.host, .inFlight, .dock, .release, .journal, .store]
  | .claimInsertion _ _ => [.host, .inFlight, .release]
  | .releaseDeadline _ => [.host, .inFlight, .dock, .release]
  | .takeWindowDeadline _ => [.host, .inFlight, .dock, .release]
  | .relockDeadline _ => [.host, .inFlight, .dock, .release]
  | .displacement _ => [.host, .inFlight, .dock, .release]
  | .lockJamCleared _ => [.host, .inFlight, .dock, .release]
  | .orphanReconcile _ _ _ => [.host, .inFlight, .dock, .release]
  | .allocation _ _ _ _ _ => [.host, .inFlight, .dock, .release, .term, .card]
  | .graceExpiry _ => [.host, .inFlight, .release]
  | .bikeTakenNotice _ _ => [.host, .inFlight, .release]
  | .bookingRequest _ => [.host, .inFlight, .journal, .dock]
  | .bookingGivenBack _ => [.host, .inFlight, .journal, .dock]
  | .vanBooking _ _ => [.host, .inFlight, .journal, .dock, .order, .release]
  | .journalEntryWrite _ => [.host, .inFlight, .journal, .dock, .store, .release]
  | .journalWithheldNotice _ _ => [.host, .inFlight, .journal, .dock]
  | .journalCountNotice _ _ => [.host, .inFlight, .journal, .dock]
  | .crewTap _ _ => [.host, .inFlight, .journal, .dock, .order, .store, .release]
  | .placementPass => [.host, .inFlight, .order, .release]
  | .vanClaimNotice _ _ _ => [.host, .inFlight, .order, .journal, .store, .release, .dock]
  | .crewInsertionNotice _ _ => [.host, .inFlight, .order, .journal, .store, .release, .dock]
  | .vanInNotice _ _ _ _ => [.host, .inFlight, .order, .journal, .store, .release, .dock]
  | .vanIdleDeadline => [.host, .inFlight, .order, .journal, .store, .release, .dock]
  | .faultRaise _ _ _ _ => [.host, .inFlight, .fault, .dock, .release]
  | .faultResolution _ _ _ => [.host, .inFlight, .fault, .dock, .release]
  | .holdClear _ => [.host, .inFlight, .fault, .dock, .release]
  | .bikeArrivalNotice _ _ => [.host, .inFlight, .dock, .release]
  | .faultRemovalNotice _ _ => [.host, .inFlight, .fault, .dock, .release]
  | .terminalHello _ => [.host, .inFlight, .term, .card, .release]
  | .terminalTap _ _ => [.host, .inFlight, .term]
  | .terminalPaid _ _ _ _ => [.host, .inFlight, .term]
  | .terminalPick _ _ => [.host, .inFlight, .term]
  | .terminalCancel _ => [.host, .inFlight, .term]
  | .terminalBadRecord _ => [.host, .inFlight, .term, .card, .release]
  | .terminalRecordDiscarded _ => [.host, .inFlight, .term]
  | .lineBreak _ => [.host, .inFlight, .term, .card, .release]
  | .terminalPowerSet _ _ => [.host, .inFlight, .term, .card, .release]
  | .checkResultAtSession _ _ _ => [.host, .inFlight, .term]
  | .claimNoticeAtSession _ _ _ => [.host, .inFlight, .term]
  | .choosingDeadline _ => [.host, .inFlight, .term]
  | .offeredDeadline _ => [.host, .inFlight, .term, .release]
  | .supplySample _ _ => [.phase, .now, .inFlight, .host, .dock, .card, .release, .term, .journal, .order, .fault,
      .supply, .store]
  | .supplyResetEntry => [.host, .inFlight, .phase, .dock, .term, .supply]
  | .resetLineLow => [.resetLow, .host, .inFlight, .phase, .dock, .term]
  | .resetLineRelease => [.resetLow, .phase, .now, .inFlight, .host, .dock, .card, .release, .term, .journal, .order, .fault,
      .supply, .store]
  | .powerUp => [.phase, .now, .inFlight, .host, .dock, .card, .release, .term, .journal, .order, .fault, .supply, .store]
  | .supplyPinsFall _ => [.host, .inFlight, .phase, .dock, .term, .store]
  | .backupCellFailure => [.store]

theorem request_only {α : Type} {i : Instr} {k : Nat} {tag : Byte} {s t : State} {x : Except ReplyCode α} {f : α → State → State}
    {w : List Part} (h0 : Part.host ∈ w) (h1 : Part.inFlight ∈ w) (hf : ∀ a u, Only w s (f a u) ↔ Only w s u)
    (h : request i k tag s x f = .next t) : Only w s t := by
  refine act_only h0 h1 (fun u => ?_) h
  rcases x with _ | a
  · simp [h0]
  · exact hf a u

theorem line_only {i : Instr} {x : TerminalId} {a : LineArrival} {s t : State} {w : List Part} (h0 : Part.host ∈ w)
    (h1 : Part.inFlight ∈ w) (h2 : Part.term ∈ w) (hf : ∀ u, Only w s (u.takeLine x a) ↔ Only w s u)
    (h : lineArrival i x a s = .next t) : Only w s t := by
  refine act_only h0 h1 (fun u => ?_) h
  unfold State.lineTakes
  split
  · simp [h2]
  · exact hf u

theorem execHostFrameGood_only (bytes : List Byte) (s s' : State) (h : execHostFrameGood bytes s = .next s') :
    Only [.host, .inFlight] s s' := by
  refine act_only (by decide) (by decide) (fun u => ?_) h
  (try dsimp only); (repeat' split) <;> simp
theorem execHostFrameBad_only (bytes : List Byte) (s s' : State) (h : execHostFrameBad bytes s = .next s') :
    Only [.host, .inFlight] s s' := by
  refine act_only (by decide) (by decide) (fun u => ?_) h
  (try dsimp only); (repeat' split) <;> simp
theorem execUnknownKindRequest_only (kind tag : Byte) (s s' : State) (h : execUnknownKindRequest kind tag s = .next s') :
    Only [.host, .inFlight] s s' := by
  refine act_only (by decide) (by decide) (fun u => ?_) h
  (try dsimp only); (repeat' split) <;> simp
theorem execStatus_only (tag : Byte) (body : List Byte) (s s' : State) (h : execStatus tag body s = .next s') :
    Only [.host, .inFlight] s s' := by
  refine request_only (by decide) (by decide) (fun a u => ?_) h
  (try dsimp only); (repeat' split) <;> simp
theorem execNoticeMask_only (tag : Byte) (body : List Byte) (s s' : State) (h : execNoticeMask tag body s = .next s') :
    Only [.host, .inFlight] s s' := by
  refine request_only (by decide) (by decide) (fun a u => ?_) h
  (try dsimp only); (repeat' split) <;> simp
theorem execTimeSet_only (tag : Byte) (body : List Byte) (s s' : State) (h : execTimeSet tag body s = .next s') :
    Only [.host, .inFlight, .store, .card, .dock] s s' := by
  refine request_only (by decide) (by decide) (fun a u => ?_) h
  (try dsimp only); (repeat' split) <;> simp
theorem execLayoutGet_only (tag : Byte) (body : List Byte) (s s' : State) (h : execLayoutGet tag body s = .next s') :
    Only [.host, .inFlight] s s' := by
  refine request_only (by decide) (by decide) (fun a u => ?_) h
  (try dsimp only); (repeat' split) <;> simp
theorem execServiceStart_only (tag : Byte) (body : List Byte) (s s' : State) (h : execServiceStart tag body s = .next s') :
    Only [.host, .inFlight, .store] s s' := by
  refine request_only (by decide) (by decide) (fun a u => ?_) h
  (try dsimp only); (repeat' split) <;> simp
theorem execServiceStop_only (tag : Byte) (body : List Byte) (s s' : State) (h : execServiceStop tag body s = .next s') :
    Only [.host, .inFlight, .store] s s' := by
  refine request_only (by decide) (by decide) (fun a u => ?_) h
  (try dsimp only); (repeat' split) <;> simp
theorem execSettingsGet_only (tag : Byte) (body : List Byte) (s s' : State) (h : execSettingsGet tag body s = .next s') :
    Only [.host, .inFlight] s s' := by
  refine request_only (by decide) (by decide) (fun a u => ?_) h
  (try dsimp only); (repeat' split) <;> simp
theorem execSettingsStage_only (tag : Byte) (body : List Byte) (s s' : State) (h : execSettingsStage tag body s = .next s') :
    Only [.host, .inFlight, .store, .card, .dock] s s' := by
  refine request_only (by decide) (by decide) (fun a u => ?_) h
  (try dsimp only); (repeat' split) <;> simp
theorem execSettingsDrop_only (tag : Byte) (body : List Byte) (s s' : State) (h : execSettingsDrop tag body s = .next s') :
    Only [.host, .inFlight, .store] s s' := by
  refine request_only (by decide) (by decide) (fun a u => ?_) h
  (try dsimp only); (repeat' split) <;> simp
theorem execSettingsSwitch_only  (s s' : State) (h : execSettingsSwitch  s = .next s') :
    Only [.host, .inFlight, .store, .card, .dock] s s' := by
  refine act_only (by decide) (by decide) (fun u => ?_) h
  (try dsimp only); (repeat' split) <;> simp
theorem execDockGet_only (tag : Byte) (body : List Byte) (s s' : State) (h : execDockGet tag body s = .next s') :
    Only [.host, .inFlight] s s' := by
  refine request_only (by decide) (by decide) (fun a u => ?_) h
  (try dsimp only); (repeat' split) <;> simp
theorem execDockSetService_only (tag : Byte) (body : List Byte) (s s' : State) (h : execDockSetService tag body s = .next s') :
    Only [.host, .inFlight, .dock, .release] s s' := by
  refine request_only (by decide) (by decide) (fun a u => ?_) h
  (try dsimp only); (repeat' split) <;> simp
theorem execCardPut_only (tag : Byte) (body : List Byte) (s s' : State) (h : execCardPut tag body s = .next s') :
    Only [.host, .inFlight, .card] s s' := by
  refine request_only (by decide) (by decide) (fun a u => ?_) h
  (try dsimp only); (repeat' split) <;> simp
theorem execCardGet_only (tag : Byte) (body : List Byte) (s s' : State) (h : execCardGet tag body s = .next s') :
    Only [.host, .inFlight] s s' := by
  refine request_only (by decide) (by decide) (fun a u => ?_) h
  (try dsimp only); (repeat' split) <;> simp
theorem execCardDrop_only (tag : Byte) (body : List Byte) (s s' : State) (h : execCardDrop tag body s = .next s') :
    Only [.host, .inFlight, .card] s s' := by
  refine request_only (by decide) (by decide) (fun a u => ?_) h
  (try dsimp only); (repeat' split) <;> simp
theorem execCardVerdict_only (tag : Byte) (body : List Byte) (s s' : State) (h : execCardVerdict tag body s = .next s') :
    Only [.host, .inFlight, .card, .dock] s s' := by
  refine request_only (by decide) (by decide) (fun a u => ?_) h
  (try dsimp only); (repeat' split) <;> simp
theorem execJournalRead_only (tag : Byte) (body : List Byte) (s s' : State) (h : execJournalRead tag body s = .next s') :
    Only [.host, .inFlight] s s' := by
  refine request_only (by decide) (by decide) (fun a u => ?_) h
  (try dsimp only); (repeat' split) <;> simp
theorem execJournalRelease_only (tag : Byte) (body : List Byte) (s s' : State) (h : execJournalRelease tag body s = .next s') :
    Only [.host, .inFlight, .journal, .dock] s s' := by
  refine request_only (by decide) (by decide) (fun a u => ?_) h
  (try dsimp only); (repeat' split) <;> simp
theorem execOrderAdd_only (tag : Byte) (body : List Byte) (s s' : State) (h : execOrderAdd tag body s = .next s') :
    Only [.host, .inFlight, .order] s s' := by
  refine request_only (by decide) (by decide) (fun a u => ?_) h
  (try dsimp only); (repeat' split) <;> simp
theorem execOrderCancel_only (tag : Byte) (body : List Byte) (s s' : State) (h : execOrderCancel tag body s = .next s') :
    Only [.host, .inFlight, .order, .dock, .journal, .store, .release] s s' := by
  refine request_only (by decide) (by decide) (fun a u => ?_) h
  (try dsimp only); (repeat' split) <;> simp
theorem execOrderList_only (tag : Byte) (body : List Byte) (s s' : State) (h : execOrderList tag body s = .next s') :
    Only [.host, .inFlight] s s' := by
  refine request_only (by decide) (by decide) (fun a u => ?_) h
  (try dsimp only); (repeat' split) <;> simp
theorem execFaultList_only (tag : Byte) (body : List Byte) (s s' : State) (h : execFaultList tag body s = .next s') :
    Only [.host, .inFlight] s s' := by
  refine request_only (by decide) (by decide) (fun a u => ?_) h
  (try dsimp only); (repeat' split) <;> simp
theorem execFaultAck_only (tag : Byte) (body : List Byte) (s s' : State) (h : execFaultAck tag body s = .next s') :
    Only [.host, .inFlight, .fault] s s' := by
  refine request_only (by decide) (by decide) (fun a u => ?_) h
  (try dsimp only); (repeat' split) <;> simp
theorem execFaultClear_only (tag : Byte) (body : List Byte) (s s' : State) (h : execFaultClear tag body s = .next s') :
    Only [.host, .inFlight, .fault, .dock, .release] s s' := by
  refine request_only (by decide) (by decide) (fun a u => ?_) h
  exact (only_reply _ _ _ _ _ _ _ (by decide)).trans (only_iff ((clearFault_only u a.1 a.2).mono (by decide)))
theorem execTerminalGet_only (tag : Byte) (body : List Byte) (s s' : State) (h : execTerminalGet tag body s = .next s') :
    Only [.host, .inFlight] s s' := by
  refine request_only (by decide) (by decide) (fun a u => ?_) h
  (try dsimp only); (repeat' split) <;> simp
theorem execTerminalEnable_only (tag : Byte) (body : List Byte) (s s' : State) (h : execTerminalEnable tag body s = .next s') :
    Only [.host, .inFlight, .term, .fault, .dock, .release] s s' := by
  refine request_only (by decide) (by decide) (fun a u => ?_) h
  (try dsimp only); (repeat' split) <;> simp
theorem execSilenceDeadline_only  (s s' : State) (h : execSilenceDeadline  s = .next s') :
    Only [.host, .inFlight, .card, .dock] s s' := by
  refine act_only (by decide) (by decide) (fun u => ?_) h
  (try dsimp only); (repeat' split) <;> simp
theorem execDockPoll_only  (s s' : State) (h : execDockPoll  s = .next s') :
    Only [.host, .inFlight, .dock] s s' := by
  refine act_only (by decide) (by decide) (fun u => ?_) h
  (try dsimp only); (repeat' split) <;> simp
theorem execDockReport_only (bytes : List Byte) (s s' : State) (h : execDockReport bytes s = .next s') :
    Only [.host, .inFlight, .dock] s s' := by
  refine act_only (by decide) (by decide) (fun u => ?_) h
  (try dsimp only); (repeat' split) <;> simp
theorem execDockPollMissed_only  (s s' : State) (h : execDockPollMissed  s = .next s') :
    Only [.host, .inFlight, .dock] s s' := by
  refine act_only (by decide) (by decide) (fun u => ?_) h
  (try dsimp only); (repeat' split) <;> simp
theorem execReportWindowDeadline_only (d : DockNo) (s s' : State) (h : execReportWindowDeadline d s = .next s') :
    Only [.host, .inFlight, .dock] s s' := by
  refine act_only (by decide) (by decide) (fun u => ?_) h
  (try dsimp only); (repeat' split) <;> simp
theorem execCrewWindowDeadline_only (d : DockNo) (s s' : State) (h : execCrewWindowDeadline d s = .next s') :
    Only [.host, .inFlight, .dock, .order] s s' := by
  refine act_only (by decide) (by decide) (fun u => ?_) h
  (try dsimp only); (repeat' split) <;> simp
theorem execDockCapChange_only (c : CapChange) (s s' : State) (h : execDockCapChange c s = .next s') :
    Only [.host, .inFlight, .dock, .release] s s' := by
  refine act_only (by decide) (by decide) (fun u => ?_) h
  (try dsimp only); (repeat' split) <;> simp
theorem execDockClaimNotice_only (d : DockNo) (s s' : State) (h : execDockClaimNotice d s = .next s') :
    Only [.host, .inFlight, .dock] s s' := by
  refine act_only (by decide) (by decide) (fun u => ?_) h
  (try dsimp only); (repeat' split) <;> simp
theorem execCardCheck_only (card : CardId) (place : Place) (s s' : State) (h : execCardCheck card place s = .next s') :
    Only [.host, .inFlight, .card, .dock] s s' := by
  refine act_only (by decide) (by decide) (fun u => ?_) h
  (try dsimp only); (repeat' split) <;> simp
theorem execQueryDeadline_only (tag : Byte) (s s' : State) (h : execQueryDeadline tag s = .next s') :
    Only [.host, .inFlight, .card, .dock] s s' := by
  refine act_only (by decide) (by decide) (fun u => ?_) h
  (try dsimp only); (repeat' split) <;> simp
theorem execPassSale_only (t : TerminalId) (attempt : Nat) (code : CardId) (rights : Byte) (expiry : ClockTime)
    (s s' : State) (h : execPassSale t attempt code rights expiry s = .next s') :
    Only [.host, .inFlight, .card, .dock, .term] s s' := by
  refine act_only (by decide) (by decide) (fun u => ?_) h
  (try dsimp only); (repeat' split) <;> simp
  exact only_iff ((placeRecord_only ‹_›).mono (by decide))
theorem execCharge_only (d : DockNo) (card : CardId) (s s' : State) (h : execCharge d card s = .next s') :
    Only [.host, .inFlight, .card] s s' := by
  refine act_only (by decide) (by decide) (fun u => ?_) h
  (try dsimp only); (repeat' split) <;> simp
theorem execRefund_only (card : CardId) (s s' : State) (h : execRefund card s = .next s') :
    Only [.host, .inFlight, .card] s s' := by
  refine act_only (by decide) (by decide) (fun u => ?_) h
  (try dsimp only); (repeat' split) <;> simp
theorem execClaimRequest_only (d : DockNo) (kind : ClaimKind) (holder : CardId) (origin : CardOrigin) (owner : Owner)
    (s s' : State) (h : execClaimRequest d kind holder origin owner s = .next s') :
    Only [.host, .inFlight, .dock, .release, .term, .card] s s' := by
  refine act_only (by decide) (by decide) (fun u => ?_) h
  (try dsimp only); (repeat' split) <;> simp
theorem execClaimGrant_only (d : DockNo) (answer : GrantAnswer) (s s' : State) (h : execClaimGrant d answer s = .next s') :
    Only [.host, .inFlight, .dock, .release, .term, .order, .card] s s' := by
  refine act_only (by decide) (by decide) (fun u => ?_) h
  (try dsimp only); (repeat' split) <;> simp
theorem execReservationRequest_only (d : DockNo) (o : OrderId) (s s' : State) (h : execReservationRequest d o s = .next s') :
    Only [.host, .inFlight, .release, .order] s s' := by
  refine act_only (by decide) (by decide) (fun u => ?_) h
  (try dsimp only); (repeat' split) <;> simp
theorem execReservationDrop_only (d : DockNo) (s s' : State) (h : execReservationDrop d s = .next s') :
    Only [.host, .inFlight, .release] s s' := by
  refine act_only (by decide) (by decide) (fun u => ?_) h
  (try dsimp only); (repeat' split) <;> simp
theorem execVanReleaseRequest_only (d : DockNo) (o : OrderId) (card : CardId) (s s' : State)
    (h : execVanReleaseRequest d o card s = .next s') :
    Only [.host, .inFlight, .dock, .release, .order] s s' := by
  refine act_only (by decide) (by decide) (fun u => ?_) h
  (try dsimp only); (repeat' split) <;> simp
  exact only_iff ((reserve_only ‹_›).mono (by decide))
theorem execClaimLockChange_only (d : DockNo) (lock : LockState) (completed : Bool) (s s' : State)
    (h : execClaimLockChange d lock completed s = .next s') :
    Only [.host, .inFlight, .dock, .release] s s' := by
  refine act_only (by decide) (by decide) (fun u => ?_) h
  (try dsimp only); (repeat' split) <;> simp
theorem execClaimRemoval_only (d : DockNo) (bike : Option BikeId) (s s' : State) (h : execClaimRemoval d bike s = .next s') :
    Only [.host, .inFlight, .dock, .release, .journal, .store] s s' := by
  refine act_only (by decide) (by decide) (fun u => ?_) h
  (try dsimp only); (repeat' split) <;> simp
theorem execClaimInsertion_only (d : DockNo) (crew : Option OrderId) (s s' : State) (h : execClaimInsertion d crew s = .next s') :
    Only [.host, .inFlight, .release] s s' := by
  refine act_only (by decide) (by decide) (fun u => ?_) h
  (try dsimp only); (repeat' split) <;> simp
theorem execReleaseDeadline_only (d : DockNo) (s s' : State) (h : execReleaseDeadline d s = .next s') :
    Only [.host, .inFlight, .dock, .release] s s' := by
  refine act_only (by decide) (by decide) (fun u => ?_) h
  (try dsimp only); (repeat' split) <;> simp
theorem execTakeWindowDeadline_only (d : DockNo) (s s' : State) (h : execTakeWindowDeadline d s = .next s') :
    Only [.host, .inFlight, .dock, .release] s s' := by
  refine act_only (by decide) (by decide) (fun u => ?_) h
  (try dsimp only); (repeat' split) <;> simp
theorem execRelockDeadline_only (d : DockNo) (s s' : State) (h : execRelockDeadline d s = .next s') :
    Only [.host, .inFlight, .dock, .release] s s' := by
  refine act_only (by decide) (by decide) (fun u => ?_) h
  (try dsimp only); (repeat' split) <;> simp
theorem execDisplacement_only (d : DockNo) (s s' : State) (h : execDisplacement d s = .next s') :
    Only [.host, .inFlight, .dock, .release] s s' := by
  refine act_only (by decide) (by decide) (fun u => ?_) h
  (try dsimp only); (repeat' split) <;> simp
theorem execLockJamCleared_only (d : DockNo) (s s' : State) (h : execLockJamCleared d s = .next s') :
    Only [.host, .inFlight, .dock, .release] s s' := by
  refine act_only (by decide) (by decide) (fun u => ?_) h
  (try dsimp only); (repeat' split) <;> simp
theorem execOrphanReconcile_only (d : DockNo) (occupancy : Occupancy) (lock : LockState) (s s' : State)
    (h : execOrphanReconcile d occupancy lock s = .next s') :
    Only [.host, .inFlight, .dock, .release] s s' := by
  refine act_only (by decide) (by decide) (fun u => ?_) h
  (try dsimp only); (repeat' split) <;> simp
theorem execAllocation_only (t : TerminalId) (cls : BikeClass) (holder : CardId) (origin : CardOrigin)
    (exclude : Option DockNo) (s s' : State) (h : execAllocation t cls holder origin exclude s = .next s') :
    Only [.host, .inFlight, .dock, .release, .term, .card] s s' := by
  refine act_only (by decide) (by decide) (fun u => ?_) h
  (try dsimp only); (repeat' split) <;> simp
theorem execGraceExpiry_only (bike : BikeId) (s s' : State) (h : execGraceExpiry bike s = .next s') :
    Only [.host, .inFlight, .release] s s' := by
  refine act_only (by decide) (by decide) (fun u => ?_) h
  (try dsimp only); (repeat' split) <;> simp
theorem execBikeTakenNotice_only (bike : BikeId) (entryWritten : Bool) (s s' : State)
    (h : execBikeTakenNotice bike entryWritten s = .next s') :
    Only [.host, .inFlight, .release] s s' := by
  refine act_only (by decide) (by decide) (fun u => ?_) h
  (try dsimp only); (repeat' split) <;> simp
theorem execBookingRequest_only (d : DockNo) (s s' : State) (h : execBookingRequest d s = .next s') :
    Only [.host, .inFlight, .journal, .dock] s s' := by
  refine act_only (by decide) (by decide) (fun u => ?_) h
  (try dsimp only); (repeat' split) <;> simp
theorem execBookingGivenBack_only (d : DockNo) (s s' : State) (h : execBookingGivenBack d s = .next s') :
    Only [.host, .inFlight, .journal, .dock] s s' := by
  refine act_only (by decide) (by decide) (fun u => ?_) h
  (try dsimp only); (repeat' split) <;> simp
theorem execVanBooking_only (card : CardId) (place : Place) (s s' : State) (h : execVanBooking card place s = .next s') :
    Only [.host, .inFlight, .journal, .dock, .order, .release] s s' := by
  refine act_only (by decide) (by decide) (fun u => ?_) h
  (try dsimp only); (repeat' split) <;> simp
theorem execJournalEntryWrite_only (q : EntryRequest) (s s' : State) (h : execJournalEntryWrite q s = .next s') :
    Only [.host, .inFlight, .journal, .dock, .store, .release] s s' := by
  refine act_only (by decide) (by decide) (fun u => ?_) h
  (try dsimp only); (repeat' split) <;> simp
theorem execJournalWithheldNotice_only (d : DockNo) (joins : Bool) (s s' : State)
    (h : execJournalWithheldNotice d joins s = .next s') :
    Only [.host, .inFlight, .journal, .dock] s s' := by
  refine act_only (by decide) (by decide) (fun u => ?_) h
  (try dsimp only); (repeat' split) <;> simp
theorem execJournalCountNotice_only (d : DockNo) (c : CountChange) (s s' : State) (h : execJournalCountNotice d c s = .next s') :
    Only [.host, .inFlight, .journal, .dock] s s' := by
  refine act_only (by decide) (by decide) (fun u => ?_) h
  (try dsimp only); (repeat' split) <;> simp
theorem execCrewTap_only (card : CardId) (place : Place) (s s' : State) (h : execCrewTap card place s = .next s') :
    Only [.host, .inFlight, .journal, .dock, .order, .store, .release] s s' := by
  refine act_only (by decide) (by decide) (fun u => ?_) h
  (try dsimp only); (repeat' split) <;> simp
theorem execPlacementPass_only  (s s' : State) (h : execPlacementPass  s = .next s') :
    Only [.host, .inFlight, .order, .release] s s' := by
  refine act_only (by decide) (by decide) (fun u => ?_) h
  (try dsimp only); (repeat' split) <;> simp
theorem execVanClaimNotice_only (d : DockNo) (o : OrderId) (news : VanNews) (s s' : State)
    (h : execVanClaimNotice d o news s = .next s') :
    Only [.host, .inFlight, .order, .journal, .store, .release, .dock] s s' := by
  refine act_only (by decide) (by decide) (fun u => ?_) h
  (try dsimp only); (repeat' split) <;> simp
theorem execCrewInsertionNotice_only (d : DockNo) (news : CrewInsertion) (s s' : State)
    (h : execCrewInsertionNotice d news s = .next s') :
    Only [.host, .inFlight, .order, .journal, .store, .release, .dock] s s' := by
  refine act_only (by decide) (by decide) (fun u => ?_) h
  (try dsimp only); (repeat' split) <;> simp
theorem execVanInNotice_only (o : OrderId) (d : DockNo) (seq : SeqNo) (identified : Bool) (s s' : State)
    (h : execVanInNotice o d seq identified s = .next s') :
    Only [.host, .inFlight, .order, .journal, .store, .release, .dock] s s' := by
  refine act_only (by decide) (by decide) (fun u => ?_) h
  (try dsimp only); (repeat' split) <;> simp
theorem execVanIdleDeadline_only  (s s' : State) (h : execVanIdleDeadline  s = .next s') :
    Only [.host, .inFlight, .order, .journal, .store, .release, .dock] s s' := by
  refine act_only (by decide) (by decide) (fun u => ?_) h
  (try dsimp only); (repeat' split) <;> simp
theorem execFaultRaise_only (x : FaultSubject) (k : FaultKind) (dock : Option DockNo) (carried : Carried)
    (s s' : State) (h : execFaultRaise x k dock carried s = .next s') :
    Only [.host, .inFlight, .fault, .dock, .release] s s' := by
  refine act_only (by decide) (by decide) (fun u => ?_) h
  (try dsimp only); (repeat' split) <;> simp
theorem execFaultResolution_only (x : FaultSubject) (k : FaultKind) (dock : Option DockNo) (s s' : State)
    (h : execFaultResolution x k dock s = .next s') :
    Only [.host, .inFlight, .fault, .dock, .release] s s' := by
  refine act_only (by decide) (by decide) (fun u => ?_) h
  (try dsimp only); (repeat' split) <;> simp
theorem execHoldClear_only (d : DockNo) (s s' : State) (h : execHoldClear d s = .next s') :
    Only [.host, .inFlight, .fault, .dock, .release] s s' := by
  refine act_only (by decide) (by decide) (fun u => ?_) h
  (try dsimp only); (repeat' split) <;> simp
theorem execBikeArrivalNotice_only (d : DockNo) (bike : BikeId) (s s' : State) (h : execBikeArrivalNotice d bike s = .next s') :
    Only [.host, .inFlight, .dock, .release] s s' := by
  refine act_only (by decide) (by decide) (fun u => ?_) h
  (try dsimp only); (repeat' split) <;> simp
theorem execFaultRemovalNotice_only (d : DockNo) (bike : Option BikeId) (s s' : State)
    (h : execFaultRemovalNotice d bike s = .next s') :
    Only [.host, .inFlight, .fault, .dock, .release] s s' := by
  refine act_only (by decide) (by decide) (fun u => ?_) h
  (try dsimp only); (repeat' split) <;> simp
theorem execTerminalHello_only (t : TerminalId) (s s' : State) (h : execTerminalHello t s = .next s') :
    Only [.host, .inFlight, .term, .card, .release] s s' := by
  exact line_only (by decide) (by decide) (by decide) (fun u => by simp [State.takeLine]) h
theorem execTerminalTap_only (t : TerminalId) (card : CardId) (s s' : State) (h : execTerminalTap t card s = .next s') :
    Only [.host, .inFlight, .term] s s' := by
  exact line_only (by decide) (by decide) (by decide) (fun u => by simp [State.takeLine]) h
theorem execTerminalPaid_only (t : TerminalId) (code : CardId) (rights : Byte) (expiry : ClockTime) (s s' : State)
    (h : execTerminalPaid t code rights expiry s = .next s') :
    Only [.host, .inFlight, .term] s s' := by
  exact line_only (by decide) (by decide) (by decide) (fun u => by simp [State.takeLine]) h
theorem execTerminalPick_only (t : TerminalId) (cls : BikeClass) (s s' : State) (h : execTerminalPick t cls s = .next s') :
    Only [.host, .inFlight, .term] s s' := by
  exact line_only (by decide) (by decide) (by decide) (fun u => by simp [State.takeLine]) h
theorem execTerminalCancel_only (t : TerminalId) (s s' : State) (h : execTerminalCancel t s = .next s') :
    Only [.host, .inFlight, .term] s s' := by
  exact line_only (by decide) (by decide) (by decide) (fun u => by simp [State.takeLine]) h
theorem execTerminalBadRecord_only (t : TerminalId) (s s' : State) (h : execTerminalBadRecord t s = .next s') :
    Only [.host, .inFlight, .term, .card, .release] s s' := by
  exact line_only (by decide) (by decide) (by decide) (fun u => by simp [State.takeLine]) h
theorem execTerminalRecordDiscarded_only (t : TerminalId) (s s' : State) (h : execTerminalRecordDiscarded t s = .next s') :
    Only [.host, .inFlight, .term] s s' := by
  exact line_only (by decide) (by decide) (by decide) (fun u => by simp [State.takeLine]) h
theorem execLineBreak_only (t : TerminalId) (s s' : State) (h : execLineBreak t s = .next s') :
    Only [.host, .inFlight, .term, .card, .release] s s' := by
  exact line_only (by decide) (by decide) (by decide) (fun u => by simp [State.takeLine]) h
theorem execTerminalPowerSet_only (p : PowerState) (only : Option TerminalId) (s s' : State)
    (h : execTerminalPowerSet p only s = .next s') :
    Only [.host, .inFlight, .term, .card, .release] s s' := by
  refine act_only (by decide) (by decide) (fun u => ?_) h
  exact only_foldl _ (fun v a => by simp) _ _
theorem execCheckResultAtSession_only (t : TerminalId) (attempt : Nat) (r : CheckResult) (s s' : State)
    (h : execCheckResultAtSession t attempt r s = .next s') :
    Only [.host, .inFlight, .term] s s' := by
  refine act_only (by decide) (by decide) (fun u => ?_) h
  (try dsimp only); (repeat' split) <;> simp
theorem execClaimNoticeAtSession_only (t : TerminalId) (d : DockNo) (news : ClaimNews) (s s' : State)
    (h : execClaimNoticeAtSession t d news s = .next s') :
    Only [.host, .inFlight, .term] s s' := by
  refine act_only (by decide) (by decide) (fun u => ?_) h
  (try dsimp only); (repeat' split) <;> simp
theorem execChoosingDeadline_only (t : TerminalId) (s s' : State) (h : execChoosingDeadline t s = .next s') :
    Only [.host, .inFlight, .term] s s' := by
  refine act_only (by decide) (by decide) (fun u => ?_) h
  (try dsimp only); (repeat' split) <;> simp
theorem execOfferedDeadline_only (t : TerminalId) (s s' : State) (h : execOfferedDeadline t s = .next s') :
    Only [.host, .inFlight, .term, .release] s s' := by
  refine act_only (by decide) (by decide) (fun u => ?_) h
  (try dsimp only); (repeat' split) <;> simp

theorem next_inj {s t : State} (h : (Host.Outcome.next s : Host.Outcome State Fault Refusal) = .next t) : s = t := by
  injection h

theorem execFrameSent_only (s s' : State) (h : execFrameSent s = .next s') : Only [.host, .inFlight] s s' := by
  unfold execFrameSent at h
  split at h
  · exact next_inj h ▸ Only.refl _ s
  · split at h
    · exact act_only (by decide) (by decide) (fun u => by simp) h
    all_goals obtain rfl := next_inj h; simp

theorem execReset_only (tag : Byte) (body : List Byte) (s s' : State) (h : execReset tag body s = .next s') :
    Only [.host, .inFlight, .phase, .dock] s s' := by
  refine request_only (by decide) (by decide) (fun a u => ?_) h
  simp

theorem execLayoutSet_only (tag : Byte) (body : List Byte) (s s' : State) (h : execLayoutSet tag body s = .next s') :
    Only [.host, .inFlight, .dock, .card, .release, .journal, .order, .fault, .store] s s' := by
  refine request_only (by decide) (by decide) (fun a u => ?_) h
  (try dsimp only); (repeat' split)
  · simp
  · simp
  · rw [only_reply _ _ _ _ _ _ _ (by decide), only_iff ((rebuilt_only _ _).mono (by decide))]; simp

theorem execSupplySample_only (m : Bool) (l : Byte) (s s' : State) (h : execSupplySample m l s = .next s') :
    Only [.phase, .now, .inFlight, .host, .dock, .card, .release, .term, .journal, .order, .fault, .supply, .store] s s' := by
  unfold execSupplySample at h
  split at h
  · exact act_only (by decide) (by decide) (fun u => by simp) h
  · obtain rfl := next_inj h
    unfold State.sampleInReset
    dsimp only
    split
    · rw [only_iff (restartUnlessHeld_only _ _)]; simp
    · simp
  all_goals obtain rfl := next_inj h; simp

theorem execRequestReset_only (s s' : State) (h : execRequestReset s = .next s') :
    Only [.phase, .now, .inFlight, .host, .dock, .card, .release, .term, .journal, .order, .fault, .supply, .store] s s' := by
  obtain rfl := next_inj h; split
  · exact restartUnlessHeld_only s _
  · simp

theorem resetLow_only (s : State) (b : Bool) : Only [.resetLow] s { s with resetLow := b } := by
  intro q hq; cases q <;> first | rfl | exact absurd hq (by decide)

theorem execResetLineRelease_only (s s' : State) (h : execResetLineRelease s = .next s') :
    Only [.resetLow, .phase, .now, .inFlight, .host, .dock, .card, .release, .term, .journal, .order, .fault, .supply,
      .store] s s' := by
  obtain rfl := next_inj h; split
  · exact ((resetLow_only s _).mono (by decide)).trans ((restart_only _ _).mono (by decide))
  · exact (resetLow_only s _).mono (by decide)

theorem execPowerUp_only (s s' : State) (h : execPowerUp s = .next s') :
    Only [.phase, .now, .inFlight, .host, .dock, .card, .release, .term, .journal, .order, .fault, .supply, .store] s s' := by
  obtain rfl := next_inj h; split
  · exact restartUnlessHeld_only s _
  · simp

theorem execSupplyResetEntry_only (s s' : State) (h : execSupplyResetEntry s = .next s') :
    Only [.host, .inFlight, .phase, .dock, .term, .supply] s s' := by
  obtain rfl := next_inj h; split
  · rw [only_onSupply _ _ _ _ (by decide)]; exact (darkened_only s _).mono (by decide)
  · simp

theorem execResetLineLow_only (s s' : State) (h : execResetLineLow s = .next s') :
    Only [.resetLow, .host, .inFlight, .phase, .dock, .term] s s' := by
  obtain rfl := next_inj h
  have hl : Only [.resetLow, .host, .inFlight, .phase, .dock, .term] s { s with resetLow := true } :=
    (resetLow_only s _).mono (by decide)
  split
  all_goals first | exact hl.trans ((darkened_only _ _).mono (by decide)) | exact hl

theorem execSupplyPinsFall_only (m : Bool) (s s' : State) (h : execSupplyPinsFall m s = .next s') :
    Only [.host, .inFlight, .phase, .dock, .term, .store] s s' := by
  obtain rfl := next_inj h
  rw [only_onStore _ _ _ _ (by decide)]; split
  · simp
  · exact (darkened_only s _).mono (by decide)

theorem execBackupCellFailure_only (s s' : State) (h : execBackupCellFailure s = .next s') : Only [.store] s s' := by
  obtain rfl := next_inj h; split <;> simp

/-- From a state to the one after a command, only the command's parts may differ. -/
theorem exec_only (c : Instr) (s t : State) (h : exec c s = .next t) : Only (parts c) s t := by
  cases c
  · exact execHostFrameGood_only _ s t h
  · exact execHostFrameBad_only _ s t h
  · exact execFrameSent_only s t h
  · exact execUnknownKindRequest_only _ _ s t h
  · exact execStatus_only _ _ s t h
  · exact execNoticeMask_only _ _ s t h
  · exact execTimeSet_only _ _ s t h
  · exact execReset_only _ _ s t h
  · exact execRequestReset_only s t h
  · exact execLayoutGet_only _ _ s t h
  · exact execLayoutSet_only _ _ s t h
  · exact execServiceStart_only _ _ s t h
  · exact execServiceStop_only _ _ s t h
  · exact execSettingsGet_only _ _ s t h
  · exact execSettingsStage_only _ _ s t h
  · exact execSettingsDrop_only _ _ s t h
  · exact execSettingsSwitch_only s t h
  · exact execDockGet_only _ _ s t h
  · exact execDockSetService_only _ _ s t h
  · exact execCardPut_only _ _ s t h
  · exact execCardGet_only _ _ s t h
  · exact execCardDrop_only _ _ s t h
  · exact execCardVerdict_only _ _ s t h
  · exact execJournalRead_only _ _ s t h
  · exact execJournalRelease_only _ _ s t h
  · exact execOrderAdd_only _ _ s t h
  · exact execOrderCancel_only _ _ s t h
  · exact execOrderList_only _ _ s t h
  · exact execFaultList_only _ _ s t h
  · exact execFaultAck_only _ _ s t h
  · exact execFaultClear_only _ _ s t h
  · exact execTerminalGet_only _ _ s t h
  · exact execTerminalEnable_only _ _ s t h
  · exact execSilenceDeadline_only s t h
  · exact execDockPoll_only s t h
  · exact execDockReport_only _ s t h
  · exact execDockPollMissed_only s t h
  · exact execReportWindowDeadline_only _ s t h
  · exact execCrewWindowDeadline_only _ s t h
  · exact execDockCapChange_only _ s t h
  · exact execDockClaimNotice_only _ s t h
  · exact execCardCheck_only _ _ s t h
  · exact execQueryDeadline_only _ s t h
  · exact execPassSale_only _ _ _ _ _ s t h
  · exact execCharge_only _ _ s t h
  · exact execRefund_only _ s t h
  · exact execClaimRequest_only _ _ _ _ _ s t h
  · exact execClaimGrant_only _ _ s t h
  · exact execReservationRequest_only _ _ s t h
  · exact execReservationDrop_only _ s t h
  · exact execVanReleaseRequest_only _ _ _ s t h
  · exact execClaimLockChange_only _ _ _ s t h
  · exact execClaimRemoval_only _ _ s t h
  · exact execClaimInsertion_only _ _ s t h
  · exact execReleaseDeadline_only _ s t h
  · exact execTakeWindowDeadline_only _ s t h
  · exact execRelockDeadline_only _ s t h
  · exact execDisplacement_only _ s t h
  · exact execLockJamCleared_only _ s t h
  · exact execOrphanReconcile_only _ _ _ s t h
  · exact execAllocation_only _ _ _ _ _ s t h
  · exact execGraceExpiry_only _ s t h
  · exact execBikeTakenNotice_only _ _ s t h
  · exact execBookingRequest_only _ s t h
  · exact execBookingGivenBack_only _ s t h
  · exact execVanBooking_only _ _ s t h
  · exact execJournalEntryWrite_only _ s t h
  · exact execJournalWithheldNotice_only _ _ s t h
  · exact execJournalCountNotice_only _ _ s t h
  · exact execCrewTap_only _ _ s t h
  · exact execPlacementPass_only s t h
  · exact execVanClaimNotice_only _ _ _ s t h
  · exact execCrewInsertionNotice_only _ _ s t h
  · exact execVanInNotice_only _ _ _ _ s t h
  · exact execVanIdleDeadline_only s t h
  · exact execFaultRaise_only _ _ _ _ s t h
  · exact execFaultResolution_only _ _ _ s t h
  · exact execHoldClear_only _ s t h
  · exact execBikeArrivalNotice_only _ _ s t h
  · exact execFaultRemovalNotice_only _ _ s t h
  · exact execTerminalHello_only _ s t h
  · exact execTerminalTap_only _ _ s t h
  · exact execTerminalPaid_only _ _ _ _ s t h
  · exact execTerminalPick_only _ _ s t h
  · exact execTerminalCancel_only _ s t h
  · exact execTerminalBadRecord_only _ s t h
  · exact execTerminalRecordDiscarded_only _ s t h
  · exact execLineBreak_only _ s t h
  · exact execTerminalPowerSet_only _ _ s t h
  · exact execCheckResultAtSession_only _ _ _ s t h
  · exact execClaimNoticeAtSession_only _ _ _ s t h
  · exact execChoosingDeadline_only _ s t h
  · exact execOfferedDeadline_only _ s t h
  · exact execSupplySample_only _ _ s t h
  · exact execSupplyResetEntry_only s t h
  · exact execResetLineLow_only s t h
  · exact execResetLineRelease_only s t h
  · exact execPowerUp_only s t h
  · exact execSupplyPinsFall_only _ s t h
  · exact execBackupCellFailure_only s t h

end Sys2Proof.Machine
end

