-- ==== Sys2Proof/Laws/Report.lean ====
section
/-! SUPPORT. What each step of an answered report (R5) does to the record of its dock, and what it leaves alone; the detector's
decisions as the tables of R15 and R16. -/

namespace Sys2Proof.Machine

/-- From `s` to `t` an act changed the record of dock `d` by `g`, added to the work in flight, and left every other dock record
and the Release Controller alone. -/
structure Acts (d : DockNo) (s t : State) (g : DockRecord → DockRecord) : Prop where
  at_ : t.dock? d = (s.dock? d).map g
  grow : ∃ l, t.inFlight = s.inFlight ++ l
  oth : OtherDocksSame d s t
  rel : t.release = s.release

theorem Acts.trans {d s t u g h} (a : Acts d s t g) (b : Acts d t u h) : Acts d s u (h ∘ g) := by
  refine ⟨?_, ?_, ⟨b.oth.1.trans a.oth.1, fun e he => (b.oth.2 e he).trans (a.oth.2 e he)⟩, b.rel.trans a.rel⟩
  · rw [b.at_, a.at_, Option.map_map]
  · obtain ⟨l, hl⟩ := a.grow; obtain ⟨m, hm⟩ := b.grow
    exact ⟨l ++ m, by rw [hm, hl, List.append_assoc]⟩

theorem Acts.same {d} {s t : State} (h : t.dock.table = s.dock.table) (g : ∃ l, t.inFlight = s.inFlight ++ l)
    (r : t.release = s.release) : Acts d s t id := by
  refine ⟨?_, g, ⟨by rw [h], fun e _ => by simp [State.dock?, h]⟩, r⟩
  simp [State.dock?, h]

theorem Acts.refl (d s) : Acts d s s id := .same rfl ⟨[], by simp⟩ rfl

theorem acts_onDock (s : State) (d) (f) : Acts d s (s.onDock d f) f := by
  refine ⟨by simp, ⟨[], by simp⟩, ⟨by simp, fun e he => dock?_onDock_other s d e f he⟩, rfl⟩

theorem acts_post (s : State) (d i) : Acts d s (s.post i) id := .same rfl ⟨[i], rfl⟩ rfl
theorem acts_raise (s : State) (d a b c e) : Acts d s (s.raise a b c e) id := acts_post s d _
theorem acts_postIf (s : State) (d b i) : Acts d s (s.postIf b i) id := by
  unfold State.postIf; split
  · exact acts_post ..
  · exact .refl ..
theorem acts_postPass (s : State) (d) : Acts d s s.postPass id := acts_postIf ..
theorem Acts.cast {d s t g h} (a : Acts d s t g) (e : ∀ r, g r = h r) : Acts d s t h := by
  have : g = h := funext e
  exact this ▸ a

theorem acts_relamp (s : State) (d) : ∃ f : DockRecord → Lamp, Acts d s (s.relamp d)
    (fun r => { r with lamp := f r }) := ⟨_, acts_onDock s d _⟩

theorem acts_changeSlot (s : State) (d f) : Acts d s (s.changeSlot d f) f := by
  unfold State.changeSlot; split
  · next h =>
    refine ⟨by simp [h], ⟨[], by simp⟩, ⟨rfl, fun _ _ => rfl⟩, rfl⟩
  · dsimp only; split
    · exact acts_onDock ..
    · exact (((acts_onDock s d f).trans (acts_post ..)).trans (acts_postPass ..)).cast (fun _ => rfl)

theorem acts_takeSlot (s : State) (d) : ∃ (m : DockRecord → SlotMode) (w : DockRecord → Bool), Acts d s (s.takeSlot d)
    (fun r => { r with commanded := m r, withheld := w r }) := by
  have h0 : Acts d s s (fun r => { r with commanded := r.commanded, withheld := r.withheld }) := .refl ..
  unfold State.takeSlot; dsimp only; (repeat' split)
  all_goals first
    | exact ⟨_, _, h0⟩
    | exact ⟨fun _ => .opened, fun r => r.withheld, acts_changeSlot s d fun r => { r with commanded := .opened }⟩
    | exact ⟨fun _ => .shut, fun r => r.withheld, acts_changeSlot s d fun r => { r with commanded := .shut }⟩
    | exact ⟨fun r => r.commanded, fun _ => true, ((acts_onDock s d fun r => { r with withheld := true }).trans
        (acts_post ..)).cast (fun r => rfl)⟩
    | exact ⟨fun _ => .shut, fun _ => false, (((acts_onDock s d fun r => { r with withheld := false }).trans
        (acts_post ..)).trans (acts_changeSlot _ d fun r => { r with commanded := .shut })).cast (fun r => rfl)⟩
    | exact ⟨fun r => r.commanded, fun _ => false, ((acts_onDock s d fun r => { r with withheld := false }).trans
        (acts_post ..)).cast (fun r => rfl)⟩

theorem acts_settle (s : State) (d b) : Acts d s (s.settleEntry d b) (fun r => { r with returnEntry := none }) := by
  unfold State.settleEntry; split
  · next h =>
    refine ⟨?_, ⟨[], by simp⟩, ⟨rfl, fun _ _ => rfl⟩, rfl⟩
    rcases hr : s.dock? d with _ | r
    · rfl
    · rw [hr] at h; simp at h
      have : ({ r with returnEntry := none } : DockRecord) = r := by rw [← h]
      simp [this]
  · exact ((acts_onDock s d _).trans (acts_post ..)).cast (fun r => rfl)

theorem acts_endPoll (s : State) (d r) : ∃ f : DockRecord → Lamp, Acts d s (s.endPoll d r) (fun r => { r with lamp := f r }) := by
  obtain ⟨f, h⟩ := acts_relamp s d
  refine ⟨f, ?_⟩
  have h2 : Acts d s ((s.relamp d).onDocks fun u => { u with poll := none }) (fun r => { r with lamp := f r }) :=
    ⟨h.at_, h.grow, h.oth, h.rel⟩
  unfold State.endPoll; dsimp only; split
  · exact h2
  · exact (h2.trans (acts_postPass ..)).cast (fun r => rfl)

theorem acts_stepLock (s : State) (d l) : Acts d s (s.stepLock d l)
    (fun r => { r with lock := l, command := if r.command.completedBy l then .none else r.command }) := by
  unfold State.stepLock; split
  · next h => exact ⟨by simp [h], ⟨[], by simp⟩, ⟨rfl, fun _ _ => rfl⟩, rfl⟩
  · next r h =>
    dsimp only
    have a := (acts_onDock s d fun x => { x with lock := l, command := if r.command.completedBy l then .none else x.command }).trans (acts_postIf _ d (decide (r.lock ≠ l) && (s.claimOn d).isSome) (.claimLockChange d l (r.command.completedBy l)))
    refine ⟨?_, a.grow, a.oth, a.rel⟩
    rw [a.at_, h]; rfl

theorem acts_stepSlot (s : State) (d m) : Acts d s (s.stepSlot d m) (fun r => { r with acknowledged := m }) := acts_changeSlot ..

theorem acts_stepTag (s : State) (d tag) : ∃ (b : DockRecord → Option Bike) (e : DockRecord → Option ReturnEntry)
    (w : DockRecord → Nat), Acts d s (s.stepTag d tag)
    (fun r => { r with bike := b r, returnEntry := e r, tagWait := w r })
   ∧ ∀ r, s.dock? d = some r → r.wantsTag = false → b r = r.bike ∧ e r = r.returnEntry ∧ w r = r.tagWait := by
  have h0 : Acts d s s (fun r => { r with bike := r.bike, returnEntry := r.returnEntry, tagWait := r.tagWait }) := .refl ..
  unfold State.stepTag; split
  · exact ⟨_, _, _, h0, fun _ _ _ => ⟨rfl, rfl, rfl⟩⟩
  · next r hr =>
    split
    · next hw =>
      have hx : ∀ (b : DockRecord → Option Bike) (e : DockRecord → Option ReturnEntry) (w : DockRecord → Nat), ∀ r,
          s.dock? d = some r → r.wantsTag = false → b r = r.bike ∧ e r = r.returnEntry ∧ w r = r.tagWait := by
        intro b e w r' hr' hn; rw [hr] at hr'; cases hr'; rw [hw] at hn; cases hn
      split
      · unfold State.takeTag; dsimp only; split
        · exact ⟨_, _, _, (((acts_onDock s d fun r => { r with tagWait := 0 }).trans (acts_raise ..)).trans
              (acts_settle ..)).cast (fun r => rfl), hx _ _ _⟩
        · exact ⟨_, _, _, (((((acts_onDock s d fun r => { r with tagWait := 0 }).trans
              (acts_onDock _ d fun r => { r with bike := some _ })).trans (acts_settle ..)).trans
              (acts_post ..)).trans (acts_post ..)).cast (fun r => rfl), hx _ _ _⟩
      · unfold State.missTag; split
        · exact ⟨_, _, _, (acts_onDock s d fun x => { x with tagWait := x.tagWait + 1 }).cast (fun r => rfl), hx _ _ _⟩
        · exact ⟨_, _, _, (((acts_onDock s d fun r => { r with tagWait := 0 }).trans (acts_raise ..)).trans
              (acts_settle ..)).cast (fun r => rfl), hx _ _ _⟩
    · exact ⟨_, _, _, h0, fun _ _ _ => ⟨rfl, rfl, rfl⟩⟩

theorem acts_noteChatter (s : State) (d) : ∃ c : DockRecord → List Elapsed, Acts d s (s.noteChatter d)
    (fun r => { r with chatter := c r }) := by
  unfold State.noteChatter; dsimp only; split
  · exact ⟨_, ((acts_onDock s d _).trans (acts_raise ..)).cast (fun r => rfl)⟩
  · exact ⟨_, acts_onDock s d _⟩

theorem acts_testSensor (s : State) (d) : Acts d s (s.testSensor d) id := by
  unfold State.testSensor; split
  · exact acts_raise ..
  · exact .refl ..

theorem acts_takeOrder (s : State) (d) : Acts d s (s.takeOrder d)
    (fun r => { r with insertionOrder := s.dock.insertionCounter }) := by
  have a := acts_onDock s d (fun r => { r with insertionOrder := s.dock.insertionCounter })
  exact ⟨a.at_, a.grow, a.oth, a.rel⟩

theorem acts_openReport (s : State) (d) : Acts d s (s.openReportWindow d)
    (fun r => { r with reportWindow := if s.settings.reportWindow = 0 then r.reportWindow else some (s.now + s.settings.reportWindow) }) := by
  unfold State.openReportWindow; split
  · next h => exact (Acts.refl ..).cast (fun r => rfl)
  · next h => exact (acts_onDock s d _).cast (fun r => rfl)

theorem acts_counted (s : State) (d r b) : Acts d s (s.countedInsertion d r b) (fun x => { x with
    occupancy := .occupied, unrecorded := false, tagWait := 0, returnEntry := some ⟨b, r.crewWindow.map (·.order)⟩,
        crewWindow := none,
    insertionOrder := s.dock.insertionCounter,
    reportWindow := if s.settings.reportWindow = 0 then x.reportWindow else some (s.now + s.settings.reportWindow) }) := by
  unfold State.countedInsertion; dsimp only
  exact ((((((acts_onDock s d _).trans (acts_takeOrder ..)).trans (acts_openReport ..)).trans (acts_post ..)).trans
      (acts_postIf ..)).trans (acts_postIf ..)).cast (fun r => rfl)

theorem acts_uncounted (s : State) (d) : Acts d s (s.uncountedInsertion d) (fun x => { x with
    occupancy := .occupied, unrecorded := true, insertionOrder := s.dock.insertionCounter,
    reportWindow := if s.settings.reportWindow = 0 then x.reportWindow else some (s.now + s.settings.reportWindow) }) := by
  unfold State.uncountedInsertion; dsimp only
  exact ((((((acts_onDock s d _).trans (acts_takeOrder ..)).trans (acts_openReport ..)).trans (acts_post ..)).trans
      (acts_postIf ..)).trans (acts_raise ..)).cast (fun r => rfl)

theorem acts_tellRemoval (s : State) (d b) : Acts d s (s.tellRemoval d b) id := by
  unfold State.tellRemoval; split
  · exact acts_raise ..
  · dsimp only; split
    · exact ((acts_post ..).trans (acts_raise ..)).cast (fun _ => rfl)
    · exact acts_post ..

theorem acts_removal (s : State) (d r) : Acts d s (s.removal d r) (fun x => { x with
    returnEntry := none, occupancy := .empty, bike := none, battery := none, unrecorded := false, tagWait :=
        0, reportWindow := none }) := by
  unfold State.removal; dsimp only
  exact (((((acts_settle s d _).trans (acts_tellRemoval ..)).trans (acts_post ..)).trans (acts_onDock _ d _)).trans
      (acts_post ..)).cast (fun r => rfl)

/-- What a decision leaves alone. -/
structure PresKeep (r r' : DockRecord) : Prop where
  h : (r'.link, r'.misses, r'.lock, r'.acknowledged, r'.command, r'.lastTap, r'.baseline, r'.candidate,
      r'.saturation, r'.lastSense)
    = (r.link, r.misses, r.lock, r.acknowledged, r.command, r.lastTap, r.baseline, r.candidate, r.saturation, r.lastSense)

/-- The occupancy a decision leaves (R15, R16). -/
def occAfter (q : Decision) (r : DockRecord) : Occupancy :=
  match q with
  | .nothing => r.occupancy | .insertion => .occupied | .removal => .empty | .firstOccupied => .occupied | .firstEmpty => .empty

theorem acts_applyDecision (s : State) (d late q) : ∃ g, Acts d s (s.applyDecision d late q) g ∧ ∀ r, s.dock? d = some r
    → PresKeep r (g r) ∧ (g r).occupancy = occAfter q r := by
  unfold State.applyDecision; split
  · exact ⟨_, .refl .., fun r h => by simp_all⟩
  · next r hr =>
    split
    · exact ⟨_, .refl .., fun r h => ⟨⟨rfl⟩, rfl⟩⟩
    · split
      · obtain ⟨c, hc⟩ := acts_noteChatter (s.countedInsertion d r late) d
        obtain ⟨m, w, hm⟩ := acts_takeSlot ((s.countedInsertion d r late).noteChatter d) d
        exact ⟨_, ((acts_counted s d r late).trans hc).trans hm, fun r h => ⟨⟨rfl⟩, rfl⟩⟩
      · obtain ⟨c, hc⟩ := acts_noteChatter (s.uncountedInsertion d) d
        obtain ⟨m, w, hm⟩ := acts_takeSlot ((s.uncountedInsertion d).noteChatter d) d
        exact ⟨_, ((acts_uncounted s d).trans hc).trans hm, fun r h => ⟨⟨rfl⟩, rfl⟩⟩
    · obtain ⟨c, hc⟩ := acts_noteChatter (s.removal d r) d
      obtain ⟨m, w, hm⟩ := acts_takeSlot ((s.removal d r).noteChatter d) d
      exact ⟨_, ((acts_removal s d r).trans hc).trans hm, fun r h => ⟨⟨rfl⟩, rfl⟩⟩
    · obtain ⟨m, w, hm⟩ := acts_takeSlot
          (((s.onDock d fun r => { r with occupancy := .occupied, returnEntry := none, unrecorded := false }).takeOrder d).post
        (.journalCountNotice d (.occupancy .occupied))) d
      exact ⟨_, (((acts_onDock s d _).trans (acts_takeOrder ..)).trans (acts_post ..)).trans hm, fun r h => ⟨⟨rfl⟩, rfl⟩⟩
    · obtain ⟨m, w, hm⟩ := acts_takeSlot ((s.onDock d fun r => { r with occupancy := .empty }).post
          (.journalCountNotice d (.occupancy .empty))) d
      exact ⟨_, ((acts_onDock s d _).trans (acts_post ..)).trans hm, fun r h => ⟨⟨rfl⟩, rfl⟩⟩

theorem acts_presence (s : State) (d x late) : ∃ g, Acts d s (s.stepPresence d x late) g ∧ ∀ r, s.dock? d = some r →
    PresKeep (r.sensed x s.settings.threshold s.settings.hysteresis).1 (g r)
    ∧ (g r).occupancy = occAfter (r.sensed x s.settings.threshold s.settings.hysteresis).2
        (r.sensed x s.settings.threshold s.settings.hysteresis).1 := by
  unfold State.stepPresence; split
  · exact ⟨_, .refl .., fun r h => by simp_all⟩
  · next r hr =>
    dsimp only
    obtain ⟨g, hg, hk⟩ := acts_applyDecision (s.onDock d fun _ =>
        (r.sensed x s.settings.threshold s.settings.hysteresis).1) d late
        (r.sensed x s.settings.threshold s.settings.hysteresis).2
    refine ⟨_, ((acts_onDock s d _).trans hg).trans (acts_testSensor ..), fun r' h => ?_⟩
    rw [hr] at h; cases h
    exact hk _ (by simp [hr])

theorem acts_readerWaits (s : State) (d r) : Acts d s (s.readerWaits d r) (fun x => { x with readerResult := some r }) := by
  have a := acts_onDock s d (fun x => { x with readerResult := some r })
  exact ⟨a.at_, a.grow, a.oth, a.rel⟩

/-- The last card tap after a report (R25). -/
def tapAfter (s : State) (tap : Option CardId) (l : Option CardTap) : Option CardTap :=
    match tap with | none => l | some card => some ⟨card, s.store.clock, s.store.clockUnset⟩
theorem acts_tap (s : State) (d tap) : ∃ (c : DockRecord → Bool) (q : DockRecord → Option ReaderResult),
    Acts d s (s.stepTap d tap) (fun r => { r with checkPending := c r, readerResult := q r, lastTap := tapAfter s tap r.lastTap }) := by
  unfold State.stepTap; split
  · exact ⟨fun r => r.checkPending, fun r => r.readerResult, .refl ..⟩
  · dsimp only; split
    · next h => exact ⟨fun r => r.checkPending, fun r => r.readerResult, by simp [h], ⟨[], by simp⟩, ⟨rfl, fun _ _ => rfl⟩, rfl⟩
    · split
      · exact ⟨fun _ => true, fun r => r.readerResult, (((acts_onDock s d _).trans (acts_onDock _ d _)).trans
            (acts_post ..)).cast (fun r => rfl)⟩
      · exact ⟨fun r => r.checkPending, _, ((acts_onDock s d _).trans (acts_readerWaits ..)).cast (fun r => rfl)⟩

theorem acts_press (s : State) (d n) : Acts d s (s.stepPress d n) id := by
  unfold State.stepPress; (repeat' split)
  all_goals first | exact .refl .. | exact acts_raise ..

theorem acts_battery (s : State) (d n) : Acts d s (s.stepBattery d n) (fun r => { r with battery := n }) := by
  unfold State.stepBattery; dsimp only; (repeat' split)
  all_goals first
    | exact acts_onDock ..
    | exact ((acts_onDock s d _).trans (acts_raise ..)).cast (fun r => rfl)
    | exact ((acts_onDock s d _).trans (acts_post ..)).cast (fun r => rfl)

theorem acts_join (s : State) (d b) : Acts d s (s.stepJoin d b) id := by
  unfold State.stepJoin; (repeat' split)
  · exact ((acts_post ..).trans (acts_post ..)).cast (fun _ => rfl)
  · exact .refl ..

/-- The record after steps 1 to 3 of R5. -/
def afterHeard (q : DockReport) (r : DockRecord) (p : Poll) : DockRecord :=
  let r1 := r.heard p q.emptyRef
  { r1 with lock := q.lockSeen, command := if r1.command.completedBy q.lockSeen then .none else r1.command, acknowledged := q.slotSeen }

/-- An answered report as a whole: the record after the first three steps, the bike as the tag step leaves it (unchanged where no tag
is wanted), the detector's sample and decision, and the last four steps. -/
theorem acts_report (s : State) (p r q) (hr : s.dock? p.dock = some r) :
    ∃ g b e w v x, Acts p.dock s (s.takeReport p r q) g ∧ (r.wantsTag = false → b = r.bike ∧ e = r.returnEntry ∧ w = r.tagWait)
      ∧ v = ({ afterHeard q r p with bike := b, returnEntry := e, tagWait := w } : DockRecord).sensed q.sense
          s.settings.threshold s.settings.hysteresis
      ∧ PresKeep v.1 x ∧ x.occupancy = occAfter v.2 v.1
      ∧ g r = { x with
          checkPending := (g r).checkPending, readerResult := (g r).readerResult, battery := q.battery
          lamp := (g r).lamp, lastTap := tapAfter s q.tap x.lastTap } := by
  unfold State.takeReport; dsimp only
  have A3 := ((acts_onDock s p.dock fun r => r.heard p q.emptyRef).trans (acts_stepLock _ p.dock q.lockSeen)).trans
    (acts_stepSlot _ p.dock q.slotSeen)
  have h3 := A3.at_; rw [hr] at h3
  obtain ⟨b, e, w, B, hw⟩ := acts_stepTag
    (((s.onDock p.dock fun r => r.heard p q.emptyRef).stepLock p.dock q.lockSeen).stepSlot p.dock q.slotSeen) p.dock q.tag
  have A4 := A3.trans B
  have h4 := A4.at_; rw [hr] at h4
  have o4 : Only [.dock, .inFlight] s ((((s.onDock p.dock fun r => r.heard p q.emptyRef).stepLock p.dock q.lockSeen).stepSlot
    p.dock q.slotSeen).stepTag p.dock q.tag) := by simp
  generalize (((s.onDock p.dock fun r => r.heard p q.emptyRef).stepLock p.dock q.lockSeen).stepSlot
    p.dock q.slotSeen).stepTag p.dock q.tag = s4 at A4 h4 o4 ⊢
  obtain ⟨g, G, hg⟩ := acts_presence s4 p.dock q.sense r.link.lateJoin
  have A5 := A4.trans G
  have o5 : Only [.dock, .inFlight] s (s4.stepPresence p.dock q.sense r.link.lateJoin) := o4.trans (by simp)
  generalize s4.stepPresence p.dock q.sense r.link.lateJoin = s5 at A5 o5 ⊢
  obtain ⟨c, rr, C⟩ := acts_tap s5 p.dock q.tap
  have A9 := (((A5.trans C).trans (acts_press _ p.dock q.presses)).trans (acts_battery _ p.dock q.battery)).trans
    (acts_join _ p.dock r.link.completes)
  obtain ⟨l, L⟩ := acts_endPoll ((((s5.stepTap p.dock q.tap).stepPress p.dock q.presses).stepBattery p.dock q.battery).stepJoin
    p.dock r.link.completes) p.dock r
  have hs : s4.settings = s.settings := congrArg (fun x : Store => x.live) (o4 .store (by decide))
  have hg' := hg _ h4
  rw [hs] at hg'
  refine ⟨_, b (afterHeard q r p), e (afterHeard q r p), w (afterHeard q r p), _, g _, A9.trans L, hw _ h3, rfl, hg'.1, hg'.2, ?_⟩
  have h5 : s5.store = s.store := o5 .store (by decide)
  simp only [Function.comp, id, tapAfter, h5]

theorem exec_report {s : State} {d p r b q} (hr : s.phase = .running) (h : reported s d p r b q) :
    ∃ t, exec (.dockReport b) s = .next t ∧ t.dock = ((s.taking (.dockReport b)).takeReport p r q).dock
      ∧ t.inFlight = ((s.taking (.dockReport b)).takeReport p r q).inFlight
      ∧ t.release = ((s.taking (.dockReport b)).takeReport p r q).release := by
  obtain ⟨h1, h2, h3, h4, h5⟩ := h
  refine ⟨_, rfl, ?_⟩
  have hp : (s.taking (.dockReport b)).polled = some (p, r) := by
    unfold State.polled
    show (match s.dock.poll with | none => none | some p => ((s.taking (.dockReport b)).dock? p.dock).map fun r => (p, r)) = _
    rw [h1]; show (s.dock? p.dock).map _ = _
    rw [h2, h3]; rfl
  simp only [execDockReport, hr, if_true, hp]
  have ht : (s.taking (.dockReport b)).takeAnswer p r (readReport b) = (s.taking (.dockReport b)).takeReport p r q := by
    rw [h4]; unfold State.takeAnswer; dsimp only; rw [if_pos (by rw [h5, h2])]
  rw [ht]; exact ⟨rfl, rfl, rfl⟩

theorem poll_endPoll (s : State) (d r) : (s.endPoll d r).dock.poll = none := by
  unfold State.endPoll; dsimp only; split <;> simp [State.postPass, State.postIf] <;> split <;> rfl

theorem sensed_facts (z : DockRecord) (x T H : Nat) :
    (z.sensed x T H).1.lastSense = some x
    ∧ (x = 4095 → (z.sensed x T H).1.saturation = min 3 (z.saturation + 1) ∧ (z.sensed x T H).1.baseline = z.baseline
        ∧ (z.sensed x T H).1.candidate = none
       ∧ (z.sensed x T H).2 = .nothing ∧ (z.sensed x T H).1.occupancy = z.occupancy)
    ∧ (x ≠ 4095 → (z.sensed x T H).1.saturation = 0 ∧ (z.sensed x T H).1.occupancy = z.occupancy
       ∧ (z.sensed x T H).1.baseline = (if z.occupancy = .empty ∧ x < z.baseline.getD 0 + T then some
           (followBaseline (z.baseline.getD 0) x) else z.baseline)
       ∧ ((z.sensed x T H).1.candidate, (z.sensed x T H).2) = detect z.occupancy z.candidate x (z.baseline.getD 0 + T)
           (z.baseline.getD 0 + T - H)) := by
  by_cases h : x = Config.saturated
  · unfold DockRecord.sensed; simp only [if_pos h]; exact ⟨by trivial, fun _ => ⟨by trivial, by trivial, by trivial,
        by trivial, by trivial⟩, fun n => absurd h n⟩
  · unfold DockRecord.sensed; simp only [if_neg h]; exact ⟨by trivial, fun n => absurd n h, fun _ => ⟨by trivial,
        by trivial, by trivial, by trivial⟩⟩

/-- The occupancy a decision leaves, from the one before it. -/
def occOf (q : Decision) (o : Occupancy) : Occupancy :=
  match q with
  | .nothing => o | .insertion => .occupied | .removal => .empty | .firstOccupied => .occupied | .firstEmpty => .empty
theorem detect_table (occ : Occupancy) (cand : Option Side) (x up low : Nat) :
   (occOf (detect occ cand x up low).2 occ, (detect occ cand x up low).1) = (match occ with
                | .empty =>
                  if x < up then (.empty, none)
                  else if cand = some .occupied then (.occupied, none) else (.empty, some .occupied)
                | .occupied =>
                  if low ≤ x then (.occupied, none)
                  else if cand = some .empty then (.empty, none) else (.occupied, some .empty)
                | .unknown =>
                  if up ≤ x then
                    (if cand = some .occupied then (.occupied, none) else (.unknown, some .occupied))
                  else if x < low then
                    (if cand = some .empty then (.empty, none) else (.unknown, some .empty))
                  else (.unknown, none)) := by
  rcases occ <;> unfold detect <;> dsimp only <;> split_ifs <;> first | rfl | (exfalso; omega)

end Sys2Proof.Machine
end

