-- ==== Sys2Proof/Laws/Steps.lean ====
section
/-! SUPPORT. What the shared operations behind the statements do, said once: a single-act step in a ready state, the ends and
moves of a claim, the settings switch, samples of the supply, and what a warm start keeps. -/

namespace Sys2Proof.Machine

theorem ready_taking {s : State} {i : Instr} (h : s.ready) : (s.taking i).ready := h

theorem switchIfDue_none {s : State} (h : s.switchDue = false) : s.switchIfDue = s := by
  unfold State.switchIfDue; simp [h]

theorem switchIfDue_some {s : State} {p : PendingSettings} (hp : s.store.pendingSet = some p)
    (h : s.switchDue = true) : s.switchIfDue = s.switchSettings p := by
  unfold State.switchIfDue; simp [h, hp]

theorem newLimit_store (s : State) (n : Nat) : (s.newLimit n).store = s.store :=
  (show Only [.host, .inFlight, .card, .dock] s (s.newLimit n) by simp) .store (by decide)

theorem switchSettings_store (s : State) (p : PendingSettings) :
    (s.switchSettings p).store = { s.store with live := p.settings, pendingSet := none } := by
  unfold State.switchSettings; dsimp only; split <;> simp only [newLimit_store, State.postIf, State.join] <;> split <;> rfl

theorem switchSettings_notice (s : State) (p : PendingSettings) : NoticeKind.settingsSwitched.inSet
    (s.switchSettings p).host.noticeSet = true := by
  unfold State.switchSettings; dsimp only; split
  · simp [State.postIf, State.join]; split <;> simp [State.post, inSet_or]
  · apply newLimit_notices; simp [State.postIf, State.join]; split <;> simp [State.post, inSet_or]

/-- A reply is the last frame of the output once sending has begun. -/
theorem reply_answered (s : State) (k : Nat) (tag : Byte) (c : ReplyCode) (p : Payload) :
   Answered ((s.reply k tag c p).onHost HostLink.beginSending) k tag c p := by
  unfold Answered State.reply
  simp only [onHost_host]
  unfold HostLink.beginSending
  split
  · rename_i h; simp only [send_outgoing] at h
    rcases ho : s.host.outgoing with _ | ⟨a, as⟩
    · rw [ho] at h; simp at h
    · rw [ho] at h; simp at h; obtain ⟨rfl, rfl⟩ := h; rw [← List.cons_append, List.getLast?_append]; simp
  · simp

/-- The switch test of the model is the condition of R186 and R187. -/
theorem switchDue_iff (s : State) (p : PendingSettings) (hp : s.store.pendingSet = some p) : s.switchDue = true ↔ dueAt s p := by
  unfold State.switchDue dueAt State.clockReached
  rw [hp]; rcases hx : p.switchTime with _ | x <;> simp [hx]


theorem dropQueries_card (s : State) : s.dropQueries.card = { s.card with queries := [], nextTag := 1 } := by
  unfold State.dropQueries
  simp only [onCards_card]
  have : ((((s.card.queries.flatMap (·.waiters)).filter Place.terminalOnly).foldl
      (fun s p => s.denyPlace p .outOfService) s)).card = s.card := by
    have := (only_foldl (w := [.dock, .inFlight]) (s := s) (fun s p => s.denyPlace p .outOfService)
        (by intro t a; simp) (((s.card.queries.flatMap (·.waiters)).filter Place.terminalOnly)) s).2 (Only.refl _ _)
    exact this .card (by decide)
  rw [this]


theorem dropQueries_counter (s : State) : s.dropQueries.dock.insertionCounter = s.dock.insertionCounter := by
  unfold State.dropQueries
  simp only [onCards_dock]
  generalize ((s.card.queries.flatMap (·.waiters)).filter Place.terminalOnly) = l
  induction l generalizing s with
  | nil => rfl
  | cons a l ih => rw [List.foldl_cons, ih]; cases a <;> rfl

theorem begun_send_reply {h : HostLink} {f : OutFrame} (hb : h.begun = true) (hf : f ≠ .notice none) :
    (h.send f).begun = true := by
  have := begun_beginSending (h.send f)
  rwa [beginSending_send hb hf] at this

/-- A cold start is the reset state with the straps, the rate and the cause filled in. -/
theorem coldStart_eq (s : State) (c : ResetCause) : s.coldStart c = { State.reset with
        pending := s.pending
        straps := s.straps
        resetLow := s.resetLow
        host := { State.reset.host with rate := s.straps }
        store := { State.reset.store with resetCause := c } } := by
  have : HostLink.afterReset s.straps 60 = { State.reset.host with rate := s.straps } := by
    simp [HostLink.afterReset, State.reset, HostLink.fresh, HostLink.join, NoticeKind.inSet, NoticeKind.bit,
        HostLink.queueNotice, HostLink.send, HostLink.beginSending, Code.notice, OutFrame.isNotice]
  unfold State.coldStart; rw [this]

/-- The run a sample leaves (R169). -/
theorem sample_facts (m : SupplyMonitor) (b : Bool) (l : Byte) :
    (m.sample b l).run = some (b, if m.run.any (fun r => r.1 == b) then min 3 ((m.run.map Prod.snd).getD 0 + 1) else 1) := by
  unfold SupplyMonitor.sample enterRun
  rcases m.run with _ | ⟨v, n⟩
  · rfl
  · by_cases h : v = b <;> simp [h]

theorem changePower_supply (s : State) (p : PowerState) : (s.changePower p).supply = { s.supply with power := p } := by
  unfold State.changePower State.join
  split
  · subst p; rfl
  · dsimp only; split
    · rw [(show Only [.inFlight] ((s.onSupply fun m => { m with power := p }).onHost
          (·.join .powerChanged)) _ by simp) .supply (by decide)]; rfl
    · rfl

/-- What a power change after a sample leaves alone. -/
def SupplyKept (s t : State) : Prop :=
  t.supply.run = s.supply.run ∧ t.supply.level = s.supply.level ∧ t.supply.debounced = s.supply.debounced
      ∧ t.now = s.now ∧ t.store = s.store

theorem SupplyKept.refl (s) : SupplyKept s s := ⟨rfl, rfl, rfl, rfl, rfl⟩

theorem SupplyKept.trans {s t u} (h : SupplyKept s t) (k : SupplyKept t u) : SupplyKept s u := by
  obtain ⟨a, b, c, d, e⟩ := h; obtain ⟨a', b', c', d', e'⟩ := k
  exact ⟨a'.trans a, b'.trans b, c'.trans c, d'.trans d, e'.trans e⟩

theorem changePower_keepsSupply (s : State) (p) : SupplyKept s (s.changePower p) := by
  have h : Only [.supply, .host, .inFlight] s (s.changePower p) := by simp
  unfold SupplyKept
  rw [changePower_supply, h .now (by decide), h .store (by decide)]
  exact ⟨rfl, rfl, rfl, rfl, rfl⟩

theorem shutDown_keepsSupply (s : State) : SupplyKept s s.shutDown := ⟨rfl, rfl, rfl, rfl, rfl⟩

theorem testLevel_keepsSupply (s : State) (n) : SupplyKept s (s.testLevel n) := by
  unfold State.testLevel; dsimp only;
      (repeat' split) <;> first | exact .refl s | exact changePower_keepsSupply s _ | exact shutDown_keepsSupply s

theorem takeSample_keepsSupply (s : State) (m : Bool) (l : Byte) : SupplyKept (s.tick.onSupply (·.sample m l))
    (s.takeSample m l) := by
  unfold State.takeSample State.followPower State.decidePower
  dsimp only
  split
  · refine .trans ?_ (testLevel_keepsSupply _ _)
    split
    · exact .refl _
    · split
      · exact .refl _
      · exact changePower_keepsSupply _ _
  · split
    · exact .refl _
    · have a : ∀ u : State, SupplyKept u (u.onSupply fun m => { m with decided := true }) := fun u => ⟨rfl, rfl, rfl, rfl, rfl⟩
      split
      · exact ((a _).trans (changePower_keepsSupply _ _)).trans (shutDown_keepsSupply _)
      · exact (a _).trans (changePower_keepsSupply _ _)

theorem beginSending_last_notice (h : HostLink) (as : List OutFrame) : ∃ c,
    (HostLink.beginSending { h with outgoing := as ++ [.notice none] }).outgoing.getLast? = some (.notice c) := by
  unfold HostLink.beginSending
  split
  · rename_i rest hh
    dsimp only at hh
    rcases as with _ | ⟨a, as⟩
    · simp at hh; subst hh; exact ⟨_, rfl⟩
    · simp only [List.cons_append, List.cons.injEq] at hh
      obtain ⟨rfl, rfl⟩ := hh
      exact ⟨none, by dsimp only; rw [← List.cons_append, List.getLast?_append]; rfl⟩
  · exact ⟨none, by simp⟩

/-- The fields of a dock record that retaking the docks and admitting withheld ones leave alone. -/
def keptRecord (r : DockRecord) := (r.link, r.command, r.checkPending, r.occupancy, r.bike, r.dockHolds, r.bikeHolds)

def RecordsKept (s t : State) : Prop := t.dock.table.map keptRecord = s.dock.table.map keptRecord

theorem RecordsKept.refl (s) : RecordsKept s s := rfl

theorem RecordsKept.trans {s t u} (h : RecordsKept s t) (k : RecordsKept t u) : RecordsKept s u := Eq.trans k h

theorem RecordsKept.of {s t : State} (h : t.dock.table = s.dock.table) : RecordsKept s t := by unfold RecordsKept; rw [h]

theorem kept_postPass (s : State) : RecordsKept s s.postPass :=
  .of (by rw [(show Only [.inFlight] s s.postPass by simp) .dock (by decide)])

theorem kept_onDock (s : State) (d) (f : DockRecord → DockRecord) (h : ∀ r, keptRecord
    (f r) = keptRecord r) : RecordsKept s (s.onDock d f) := by
  unfold RecordsKept
  show (s.dock.table.modify d f).map keptRecord = _
  apply List.ext_getElem?; intro i
  simp [List.getElem?_modify, List.getElem?_map]
  rcases s.dock.table[i]? with _ | r
  · rfl
  · simp; split <;> simp [h]

theorem kept_relamp (s : State) (d) : RecordsKept s (s.relamp d) := kept_onDock s d _ (fun _ => rfl)

theorem kept_changeSlot (s : State) (d f) (h : ∀ r, keptRecord (f r) = keptRecord r) : RecordsKept s (s.changeSlot d f) := by
  unfold State.changeSlot; (repeat' split)
  · exact .refl s
  · exact kept_onDock s d f h
  · exact ((kept_onDock s d f h).trans (.of rfl)).trans (kept_postPass _)

theorem kept_post (s : State) (i) : RecordsKept s (s.post i) := .of rfl

theorem kept_takeSlot (s : State) (d) : RecordsKept s (s.takeSlot d) := by
  unfold State.takeSlot; dsimp only; (repeat' split)
  all_goals first
    | exact .refl s
    | exact kept_changeSlot s d (fun r => { r with commanded := .opened }) (fun _ => rfl)
    | exact kept_changeSlot s d (fun r => { r with commanded := .shut }) (fun _ => rfl)
    | skip
  · exact (kept_onDock s d (fun r => { r with withheld := true }) (fun _ => rfl)).trans (kept_post _ _)
  · exact ((kept_onDock s d (fun r => { r with withheld := false }) (fun _ => rfl)).trans (kept_post _ _)).trans
        (kept_changeSlot _ d (fun r => { r with commanded := .shut }) (fun _ => rfl))
  · exact (kept_onDock s d (fun r => { r with withheld := false }) (fun _ => rfl)).trans (kept_post _ _)

theorem kept_foldl {α} (f : State → α → State) (h : ∀ t a, RecordsKept t (f t a)) (l : List α)
    (s : State) : RecordsKept s (l.foldl f s) := by
  induction l generalizing s with
  | nil => exact .refl s
  | cons a l ih => exact (h s a).trans (ih _)

theorem kept_retake (s : State) : RecordsKept s s.retakeDocks := kept_foldl _ (fun t d => (kept_takeSlot t d).trans
    (kept_relamp _ d)) _ _

theorem kept_admitDock (s : State) (d) : RecordsKept s (s.admitDock d) := by
  unfold State.admitDock; dsimp only; split
  · refine .trans (kept_onDock s d (fun r => { r with commanded := .opened, withheld := false }) (fun _ => rfl)) ?_
    refine RecordsKept.trans (t := (((s.onJournal fun j => { j with withheld := j.withheld.erase d }).onDock d fun r =>
      { r with commanded := .opened, withheld := false }).onAccount d fun a => { a with slotOpen := true }).relamp d) ?_
      (kept_postPass _)
    refine RecordsKept.trans ?_ (kept_relamp _ d)
    exact .of rfl
  · exact .of rfl

theorem kept_admit (n) (s : State) : RecordsKept s (s.admitUpTo n) := by
  induction n generalizing s with
  | zero => exact .refl s
  | succ n ih =>
    unfold State.admitUpTo; (repeat' split)
    · exact .refl s
    · exact (kept_admitDock s _).trans (ih _)
    · exact .refl s

theorem closeForRestart_release (s : State) : s.closeForRestart.release = s.release := by
  unfold State.closeForRestart; (repeat' split)
  · rfl
  · simp
  · simp [State.writeRequested, State.appendEntry]

theorem closeForRestart_session (s : State) : s.closeForRestart.order.session = none := by
  unfold State.closeForRestart; (repeat' split)
  · assumption
  · rfl
  · rfl

theorem closeForRestart_store (s : State) : ∃ q, s.closeForRestart.store = { s.store with nextSeq := q } := by
  unfold State.closeForRestart; (repeat' split)
  · exact ⟨s.store.nextSeq, rfl⟩
  · exact ⟨s.store.nextSeq, rfl⟩
  · exact ⟨_, rfl⟩

theorem resolveLines_lost (s : State) : s.resolveLines.fault.lost = s.fault.lost := by
  unfold State.resolveLines; simp [terminals, State.resolveRecord]

/-- Every part of the state after a warm start, from the state before it (9.4, 9.5). -/
theorem warmStart_facts (s : State) (c : ResetCause) : (s.warmStart c).release = s.release.warm
   ∧ (s.warmStart c).card = s.card.warm ∧ (s.warmStart c).supply = {} ∧ (s.warmStart c).term = ⟨{}, {}, {}, {}⟩
   ∧ (s.warmStart c).order.session = none ∧ (s.warmStart c).fault.lost = 0
   ∧ (∃ q, (s.warmStart c).store = { s.store with clock := 0, clockUnset := true, resetCause := c, warm := true, nextSeq := q })
   ∧ (s.warmStart c).dock.table.map keptRecord = (s.dock.table.map DockRecord.warm).map keptRecord
   ∧ (s.warmStart c).host = HostLink.afterReset s.straps s.store.live.silenceLimit ∧ (s.warmStart c).inFlight = [] := by
  have hw : ∃ X : State, s.warmStart c = { X with inFlight := [], host := HostLink.afterReset s.straps s.settings.silenceLimit }
     ∧ Only [.journal, .store, .release, .inFlight, .order, .fault, .dock] (s.warmBlocks c) X
     ∧ Only [.dock, .inFlight, .journal] (s.warmBlocks c).closeForRestart.resolveLines X
     ∧ RecordsKept (s.warmBlocks c) X := by
    refine ⟨_, rfl, warmStart_work_only (s.warmBlocks c), ?_, ?_⟩
    · have h := ((retakeDocks_only (s.warmBlocks c).closeForRestart.resolveLines).mono
          (v := [.dock, .inFlight, .journal]) (by decide)).trans ((recountJournal_only _).mono (by decide))
      exact (only_admitWithheld [.dock, .inFlight, .journal] (s.warmBlocks c).closeForRestart.resolveLines
          (s.warmBlocks c).closeForRestart.resolveLines.retakeDocks.recountJournal (by decide) (by decide)
          (by decide)).2 h
    · have h1 : RecordsKept (s.warmBlocks c) (s.warmBlocks c).closeForRestart.resolveLines := by
        refine .of ?_
        rw [(resolveLines_only _) .dock (by decide), (closeForRestart_only _) .dock (by decide)]
      have h2 : RecordsKept (s.warmBlocks c).closeForRestart.resolveLines.retakeDocks
          (s.warmBlocks c).closeForRestart.resolveLines.retakeDocks.recountJournal :=
          .of (by rw [(recountJournal_only _) .dock (by decide)])
      exact ((h1.trans (kept_retake _)).trans h2).trans (kept_admit _ _)
  obtain ⟨X, hX, o1, o2, o3⟩ := hw
  rw [hX]
  have rl := resolveLines_only (s.warmBlocks c).closeForRestart
  have a1 : X.release = s.release.warm := by
    rw [o2 .release (by decide), rl .release (by decide), closeForRestart_release]; rfl
  have a2 : X.card = s.card.warm := by rw [o1 .card (by decide)]; rfl
  have a3 : X.supply = {} := by rw [o1 .supply (by decide)]; rfl
  have a4 : X.term = ⟨{}, {}, {}, {}⟩ := by rw [o1 .term (by decide)]; rfl
  have a5 : X.order.session = none := by rw [o2 .order (by decide), rl .order (by decide), closeForRestart_session]
  have a6 : X.fault.lost = 0 := by
    rw [o2 .fault (by decide), resolveLines_lost, (closeForRestart_only _) .fault (by decide)]; rfl
  have a7 : ∃ q, X.store = { s.store with clock := 0, clockUnset := true, resetCause := c, warm := true, nextSeq := q } := by
    rw [o2 .store (by decide), rl .store (by decide)]
    obtain ⟨q, hq⟩ := closeForRestart_store (s.warmBlocks c)
    exact ⟨q, hq⟩
  exact ⟨a1, a2, a3, a4, a5, a6, a7, o3, rfl, rfl⟩

/-- In a ready state an act answers the state its effect gives, with the sender left as it is. -/
theorem ready_next {i : Instr} {s : State} {f : State → State} (h : s.ready) (t : State) (hf : f (s.taking i) = t)
    (hh : t.host = s.host) :
    act i s f = .next t := by
  unfold act; rw [if_pos h.1, hf]; unfold State.onHost; rw [hh, beginSending_of_begun h.2, ← hh]

/-- A claim that stands is the claim found on its dock. -/
theorem claimOn_stands {s : State} {c : Claim} (h : stands s c) : s.claimOn c.dock = some c := by
  unfold State.claimOn
  rcases hf : s.release.claims.find? (fun x => x.dock == c.dock) with _ | x
  · rw [List.find?_eq_none] at hf; exact absurd (by simp) (hf c h.1)
  · have := List.find?_some hf
    rw [hf]; exact congrArg some (h.2 x (List.mem_of_find?_eq_some hf) (by simpa using this))

/-- In a ready state an act without effect only takes its own entry out of the work handed on. -/
theorem taken_only {i : Instr} {s : State} {f : State → State} (h : s.ready)
    (hf : f (s.taking i) = s.taking i) : act i s f = .next { s with inFlight := s.inFlight.erase i } :=
  ready_next h _ hf rfl

theorem postPass_eq (s : State) : s.postPass = { s with inFlight := s.inFlight ++ passDue s } := by
  unfold State.postPass State.postIf passDue; split <;> simp [State.post]

theorem state_eq_of_parts {a b : State} (h : (a.phase, a.now, a.pending, a.inFlight, a.straps, a.resetLow, a.host, a.dock,
    a.card, a.release, a.term, a.journal, a.order, a.fault, a.supply, a.store) = (b.phase, b.now, b.pending,
    b.inFlight, b.straps, b.resetLow, b.host, b.dock, b.card, b.release, b.term, b.journal, b.order, b.fault, b.supply,
    b.store)) : a = b := by
  cases a; cases b; simp at h; simp [h]

/-- What ending a claim untaken does, as one state. -/
theorem endUntaken_eq (s : State) (c : Claim) (news : ClaimNews) : s.endUntaken c news =
    { s with
      release := { s.release with claims := s.release.claims.filter fun x => x.dock != c.dock }
      inFlight := s.inFlight ++ untakenTold s c news } := by
  unfold State.endUntaken State.endClaim untakenTold State.tellOwner ownerTold
  rw [postPass_eq]
  by_cases h1 : c.offline = true <;> by_cases h2 : c.kind = .van <;> rcases ho : c.owner with t | t | t | _ <;>
    simp [h1, h2, State.post, State.removeClaim, State.onRelease, passDue, State.sessionOpen] <;> rfl

/-- An act that ends a claim untaken satisfies EndsUntaken. -/
theorem ends_of {i : Instr} {s : State} {f : State → State} {c : Claim} {cmd : LockCommand} {news first} (h : s.ready)
    (he : exec i s = act i s f) (hf : f (s.taking i) = ((s.taking i).postAll first |>.setCommand c.dock cmd).endUntaken c news) :
    EndsUntaken i s c cmd news first := by
  unfold EndsUntaken; rw [he]
  refine ready_next h _ ?_ ?_
  rotate_left
  · rfl
  · rw [hf, endUntaken_eq]
    simp [untakenTold, passDue, State.sessionOpen, State.postAll, State.setCommand, State.onDock, State.onDocks,
        State.taking]; try rfl

/-- An act that moves a claim satisfies MovesClaim. -/
theorem moves_of {i : Instr} {s : State} {f : State → State} {c c' : Claim} {cmd : LockCommand} {first last} (h : s.ready)
    (he : exec i s = act i s f) (hf : f (s.taking i) =
        ((((s.taking i).postAll first).onClaim c.dock fun _ => c').setCommand c.dock cmd |>.tellDock c.dock).postAll last) :
    MovesClaim i s c c' cmd first last := by
  unfold MovesClaim; rw [he]
  refine ready_next h _ ?_ ?_
  rotate_left
  · rfl
  · rw [hf]; simp [State.postAll, State.setCommand, State.onDock, State.onDocks, State.taking, State.tellDock,
        State.post, State.onClaim, State.onRelease]

/-- Updating the claim on the dock of a standing claim is replacing that claim. -/
theorem onClaim_stands {s : State} {c : Claim} (h : stands s c) (f : Claim → Claim) (x : State)
    (hx : x.release = s.release) : x.onClaim c.dock f = x.onClaim c.dock fun _ => f c := by
  unfold State.onClaim State.onRelease; rw [hx]
  have : ∀ a b : ReleaseUnit, a = b → ({ x with release := a } : State) = { x with release := b } := by intro a b h; rw [h]
  apply this
  show ReleaseUnit.mk _ _ _ = ReleaseUnit.mk _ _ _
  congr 1
  apply List.map_congr_left; intro y hy; split
  · next hd => rw [h.2 y hy hd]
  · rfl

theorem tellOwner_eq (s : State) (c news) : s.tellOwner c news = s.postAll (ownerTold c news) := by
  unfold State.tellOwner ownerTold; rcases c.owner <;> simp [State.post, State.postAll]

theorem postAll_nil (s : State) : s.postAll [] = s := by simp [State.postAll]


theorem stands_taking {s : State} {c : Claim} (i) (h : stands s c) : (s.taking i).claimOn c.dock = some c :=
    claimOn_stands (s := s.taking i) h

theorem dueClaim_reached {s : State} {c : Claim} (i) (h : stands s c) {d} (hd : c.deadline = some d)
    (hle : d ≤ s.now) {st} (hst : c.state = st) :
    (s.taking i).dueClaim c.dock st = some c := by
  unfold State.dueClaim; rw [stands_taking i h]
  simp [hst, State.reached, hd, State.taking, hle]

theorem dueClaim_early {s : State} {c : Claim} (i) (h : stands s c) {d} (hd : c.deadline = some d) (hle : s.now < d) (st) :
    (s.taking i).dueClaim c.dock st = none := by
  unfold State.dueClaim; rw [stands_taking i h]
  simp [State.reached, hd, State.taking]; intro _; exact decide_eq_false (Nat.not_le.2 hle)

/-- Setting the command a dock already has changes nothing. -/
theorem setCommand_same {s : State} {d r} (h : s.dock? d = some r) : s.setCommand d r.command = s := by
  unfold State.setCommand State.onDock State.onDocks
  have : s.dock.table.modify d (fun x => { x with command := r.command }) = s.dock.table := by
    apply List.ext_getElem?; intro i; rw [List.getElem?_modify]
    by_cases hi : d = i
    · subst hi; have : s.dock.table[d]? = some r := h
      rw [this]; simp
    · simp [hi]
  show ({ s with dock := { s.dock with table := _ } } : State) = s
  rw [this]

theorem releasingHolder_iff (s : State) (card) (d) : s.releasingHolder card (some d) = true ↔ ∃ x ∈ s.release.claims,
    x.state.releasing = true ∧ x.holder = some card ∧ x.dock ≠ d := by
  simp [State.releasingHolder, and_assoc]

end Sys2Proof.Machine
end

