-- ==== Sys2Proof/WellFormed.lean ====
section
/-! DEFINITION. Which commands are well formed: the ranges of 4.3 and 11.7 that an operand's type does not already keep. A body's
bytes are not judged here: the part examines them itself (R192). -/

namespace Sys2Proof

open Sys2Proof.Machine

/-- A dock number, 0 to 63 (4.3). -/
def dockOk (d : DockNo) : Bool := d < 64

/-- A card id or a bike id is nonzero (4.3). -/
def idOk (w : Word) : Bool := w != 0

/-- A place: a dock reader 0 to 63, or a terminal. -/
def placeOk : Place → Bool
  | .reader d => dockOk d
  | .terminal _ _ => true

def ownerOk : Owner → Bool
  | .terminal _ => true
  | .reader d => dockOk d
  | .order o => o != 0
  | .nobody => true

def subjectOk : FaultSubject → Bool
  | .dock d => dockOk d
  | .bike b => idOk b
  | .terminal _ => true

/-- A body from the host has at most 512 bytes (4.4, R190). -/
def bodyOk (body : List Byte) : Bool := body.length ≤ 512

def crewOk (c : Option OrderId) : Bool := c.all (· != 0)

def entryOk : EntryRequest → Bool
  | .pendingReturn d b _ c => dockOk d && b.all idOk && crewOk c
  | .claimEnding d _ b _ _ _ _ _ => dockOk d && b.all idOk
  | .orderClosed o _ n q => o != 0 && n ≤ q && 1 ≤ q && q ≤ 64

def insertionOk : CrewInsertion → Bool
  | .inserted c => crewOk c
  | .dropped c => crewOk c

/-- A command whose operands lie in their ranges. -/
def Instr.wf : Instr → Bool
  | .hostFrameGood _ => true
  | .hostFrameBad _ => true
  | .frameSent => true
  | .unknownKindRequest kind _ => !(1 ≤ kind.toNat && kind.toNat ≤ 0x1B)
  | .status _ body => bodyOk body
  | .noticeMask _ body => bodyOk body
  | .timeSet _ body => bodyOk body
  | .reset _ body => bodyOk body
  | .requestReset => true
  | .layoutGet _ body => bodyOk body
  | .layoutSet _ body => bodyOk body
  | .serviceStart _ body => bodyOk body
  | .serviceStop _ body => bodyOk body
  | .settingsGet _ body => bodyOk body
  | .settingsStage _ body => bodyOk body
  | .settingsDrop _ body => bodyOk body
  | .settingsSwitch => true
  | .dockGet _ body => bodyOk body
  | .dockSetService _ body => bodyOk body
  | .cardPut _ body => bodyOk body
  | .cardGet _ body => bodyOk body
  | .cardDrop _ body => bodyOk body
  | .cardVerdict _ body => bodyOk body
  | .journalRead _ body => bodyOk body
  | .journalRelease _ body => bodyOk body
  | .orderAdd _ body => bodyOk body
  | .orderCancel _ body => bodyOk body
  | .orderList _ body => bodyOk body
  | .faultList _ body => bodyOk body
  | .faultAck _ body => bodyOk body
  | .faultClear _ body => bodyOk body
  | .terminalGet _ body => bodyOk body
  | .terminalEnable _ body => bodyOk body
  | .silenceDeadline => true
  | .dockPoll => true
  | .dockReport _ => true
  | .dockPollMissed => true
  | .reportWindowDeadline d => dockOk d
  | .crewWindowDeadline d => dockOk d
  | .dockCapChange _ => true
  | .dockClaimNotice d => dockOk d
  | .cardCheck c p => idOk c && placeOk p
  | .queryDeadline t => t != 0
  | .passSale _ _ _ _ _ => true
  | .charge d c => dockOk d && idOk c
  | .refund c => idOk c
  | .claimRequest d k c _ o => dockOk d && k != .van && idOk c && ownerOk o
  | .claimGrant d _ => dockOk d
  | .reservationRequest d o => dockOk d && o != 0
  | .reservationDrop d => dockOk d
  | .vanReleaseRequest d o c => dockOk d && o != 0 && idOk c
  | .claimLockChange d _ _ => dockOk d
  | .claimRemoval d b => dockOk d && b.all idOk
  | .claimInsertion d c => dockOk d && crewOk c
  | .releaseDeadline d => dockOk d
  | .takeWindowDeadline d => dockOk d
  | .relockDeadline d => dockOk d
  | .displacement d => dockOk d
  | .lockJamCleared d => dockOk d
  | .orphanReconcile d _ _ => dockOk d
  | .allocation _ _ c _ x => idOk c && x.all dockOk
  | .graceExpiry b => idOk b
  | .bikeTakenNotice b _ => idOk b
  | .bookingRequest d => dockOk d
  | .bookingGivenBack d => dockOk d
  | .vanBooking c p => idOk c && placeOk p
  | .journalEntryWrite q => entryOk q
  | .journalWithheldNotice d _ => dockOk d
  | .journalCountNotice d _ => dockOk d
  | .crewTap c p => idOk c && placeOk p
  | .placementPass => true
  | .vanClaimNotice d o _ => dockOk d && o != 0
  | .crewInsertionNotice d n => dockOk d && insertionOk n
  | .vanInNotice o d q _ => o != 0 && dockOk d && q != 0
  | .vanIdleDeadline => true
  | .faultRaise x _ d _ => subjectOk x && d.all dockOk
  | .faultResolution x _ d => subjectOk x && d.all dockOk
  | .holdClear d => dockOk d
  | .bikeArrivalNotice d b => dockOk d && idOk b
  | .faultRemovalNotice d b => dockOk d && b.all idOk
  | .terminalHello _ => true
  | .terminalTap _ _ => true
  | .terminalPaid _ _ _ _ => true
  | .terminalPick _ _ => true
  | .terminalCancel _ => true
  | .terminalBadRecord _ => true
  | .terminalRecordDiscarded _ => true
  | .lineBreak _ => true
  | .terminalPowerSet _ only => only.isNone
  | .checkResultAtSession _ _ _ => true
  | .claimNoticeAtSession _ d _ => dockOk d
  | .choosingDeadline _ => true
  | .offeredDeadline _ => true
  | .supplySample _ _ => true
  | .supplyResetEntry => true
  | .resetLineLow => true
  | .resetLineRelease => true
  | .powerUp => true
  | .supplyPinsFall _ => true
  | .backupCellFailure => true

end Sys2Proof
end

