-- ==== Sys2Proof/Tests/Slice0.lean ====
section
/-! SUPPORT. Tests: the smoke tests of well-formedness, the two checks of the lines, a few single steps, and for every statement
with hypotheses a state and operands that meet them, clause by clause. -/

namespace Sys2Proof.Tests

open Sys2Proof Sys2Proof.Machine

-- One theorem at a time: many kernel evaluations begun at once need more memory than the check allows.
set_option Elab.async false

/-! ### Ill-formed commands are refused -/

theorem test_wf_dock_out_of_range : (Instr.releaseDeadline 64).wf = false ∧ (Instr.releaseDeadline 63).wf = true := by decide
theorem test_wf_zero_card : (Instr.refund 0).wf = false ∧ (Instr.refund 1).wf = true := by decide
theorem test_wf_zero_bike : (Instr.graceExpiry 0).wf = false := by decide
theorem test_wf_place_without_dock : (Instr.crewTap 5 (.reader 64)).wf = false := by decide
theorem test_wf_owner_without_dock : (Instr.claimRequest 1 .member 5 .host (.reader 64)).wf = false := by decide
theorem test_wf_owner_zero_order : (Instr.claimRequest 1 .member 5 .host (.order 0)).wf = false := by decide
theorem test_wf_van_claim_request : (Instr.claimRequest 1 .van 5 .host .nobody).wf = false := by decide
theorem test_wf_subject_without_dock : (Instr.faultRaise (.dock 64) .sensor none .nothing).wf = false := by decide
theorem test_wf_subject_zero_bike : (Instr.faultRaise (.bike 0) .riderReport none .nothing).wf = false := by decide
theorem test_wf_long_body : (Instr.status 1 (List.replicate 513 0)).wf = false := by decide +kernel
theorem test_wf_zero_crew_order : (Instr.claimInsertion 1 (some 0)).wf = false := by decide
theorem test_wf_entry_done_above_quantity : (Instr.journalEntryWrite (.orderClosed 1 .done 3 2)).wf = false := by decide
theorem test_wf_entry_quantity_range : (Instr.journalEntryWrite (.orderClosed 1 .done 0 65)).wf = false := by decide
theorem test_wf_entry_dock : (Instr.journalEntryWrite (.pendingReturn 64 none false none)).wf = false := by decide
theorem test_wf_claim_entry_bike : (Instr.journalEntryWrite (.claimEnding 1 .member
    (some 0) none none false false false)).wf = false := by
  decide
theorem test_wf_insertion_news : (Instr.crewInsertionNotice 1 (.inserted (some 0))).wf = false
    ∧ (Instr.crewInsertionNotice 1 (.dropped (some 0))).wf = false := by decide
theorem test_wf_known_kind_as_unknown : (Instr.unknownKindRequest 0x1B 1).wf = false
    ∧ (Instr.unknownKindRequest 0x1C 1).wf = true := by
  decide
theorem test_wf_zero_query_tag : (Instr.queryDeadline 0).wf = false := by decide
theorem test_wf_zero_order : (Instr.reservationRequest 1 0).wf = false ∧ (Instr.vanReleaseRequest 1 0 5).wf = false := by decide
theorem test_wf_power_of_one_terminal : (Instr.terminalPowerSet .mains (some .t0)).wf = false
    ∧ (Instr.terminalPowerSet .mains none).wf = true := by decide
theorem test_wf_zero_sequence_number : (Instr.vanInNotice 1 1 0 true).wf = false := by decide

/-! ### The lines -/

/-- The check value of CRC-16 with this polynomial and initial value over "123456789". -/
theorem test_crc_check_value : crc16 [0x31, 0x32, 0x33, 0x34, 0x35, 0x36, 0x37, 0x38, 0x39] = 0x29B1 := by decide +kernel

theorem test_terminal_check_sums_to_zero : [0x02, 0x04, 0, 0, 0, 7, sumCheck [0x02, 0x04, 0, 0, 0, 7]].foldl (· + ·)
    (0 : Byte) = 0 := by
  decide

/-- A bad frame swallows the next, which hunting then finds among its bytes (R190). -/
theorem test_hunt_finds_swallowed_frame :
    (hunt 20 ([0xC3, 0x00, 0x01, 0x01] ++ hostFrame 0x01 7 [])).1 = [.bad, .good ⟨0x01, 7, []⟩] := by decide +kernel

theorem test_no_word_spells_a_command : decodeTableWord 8 0 = none ∧ State.reset.withFetchWord 8 0 = State.reset :=
    by decide +kernel

/-! ### Small states -/

/-- The state a command answers. -/
def after (c : Instr) (s : State) : State :=
  match exec c s with
  | .next t => t
  | .fault _ => s
  | .refused _ => s

/-- A dock with a bike a member may hire. -/
def full : DockRecord :=
  { link := .online, occupancy := .occupied, bike := some ⟨11, .standard⟩, baseline := some 600, lamp := .green }

/-- An empty dock with its slot open. -/
def vacant : DockRecord :=
  { link := .online, occupancy := .empty, commanded := .opened, acknowledged := .opened, baseline := some 600, lamp := .amber }

/-- A serving station on mains with the link UP and its clock set. -/
def station (docks : List DockRecord) : State :=
  { State.reset with
    host := { deadline := some 60 }
    dock := { table := docks, caps := { station := .serving, power := .mains } }
    journal := { account := docks.map fun r => { occupancy := r.occupancy, slotOpen := r.effOpen } }
    supply := { power := .mains, decided := true, debounced := some true, run := some (true, 3), level := some 200 }
    store := { station := .serving, clock := 1000, clockUnset := false
               layout := { dockCount := docks.length, journalBase := 64, faultBase := 128 } } }

def demo : State := station [full, vacant]

/-- A claim of card 5 on dock 0, owned by the dock's reader. -/
def hire (st : ClaimState) : Claim :=
  { dock := 0, kind := .member, state := st, holder := some 5, owner := .reader 0, order := none
    orphanCause := if st = .orphan then some .link else none, takeWindow := 30, tariff := 7, offline := false
    deadline := if st.releasing then some 0 else none }

/-- A reservation on dock 0 for order 3. -/
def reservation : Claim :=
  { dock := 0, kind := .van, state := .reserved, holder := none, owner := .order 3, order := some 3, orphanCause := none
    takeWindow := 0, tariff := 0, offline := false, deadline := none }

def holding (c : Claim) : State := { demo with release := { claims := [c] } }

def member : CardRecord :=
  { card := 5, role := .member, standing := .good, rights := .standard, credit := 1, used := 0, origin := .host, expiry := none, stamp := 0 }

def known (r : CardRecord) : State := { demo with card := { table := [r] } }

def order3 (k : OrderKind) (st : OrderState) : Order :=
  { id := 3, kind := k, cls := .any, quantity := 2, notBefore := none, state := st, done := 0 }

/-- An open session on order 3. -/
def visit : VanSession :=
  { state := .opened, order := 3, card := 9, cause := none, idleDeadline := some 0, docks := [], awaiting := 0, windows := [] }

def visited (k : OrderKind) (v : VanSession) (s : State) : State :=
  { s with order := { queue := [order3 k .active], session := some v } }

/-- One report of dock `d`, with no tap, press or battery. -/
def report (d : Nat) (lock slot : Nat) (sense : Nat) : List Byte :=
  withCheck ([byteOf d, byteOf lock, byteOf slot] ++ bytes2 sense ++ bytes4 0 ++ [0] ++ bytes4 0 ++ [0,
      0xFF] ++ bytes2 600 ++ [0])

/-- Dock `d` with this record is being polled. -/
def polled (r : DockRecord) : State :=
  { demo with dock := { demo.dock with table := [r, vacant], poll := some (r.poll 0) } }

/-- Terminal T0 with this session on an UP line. -/
def atT0 (x : Session) (s : State) : State := { s with term := s.term.set .t0 { line := .up, power := true, session := x } }

/-! ### Single steps -/

theorem test_step_takes_the_front :
    step { demo with pending := [.backupCellFailure, .dockPoll] } = .next { demo with pending := [.dockPoll] } := by rfl

theorem test_terminal_record_is_read : readTerminalRecord .t1 false
    ([0xA5, 2, 4, 0, 0, 0, 7] ++ [sumCheck [2, 4, 0, 0, 0, 7]]) = .terminalTap .t1 7 := by
  decide +kernel

/-- R14: the three readings of its example. -/
theorem test_baseline_example :
    let r : DockRecord := { vacant with lastSense := none }
    ([632, 560, 610].map fun x => ((after (.dockReport (report 0 0 0 x)) (polled r)).dock.table[0]?.bind
        (·.baseline))) = [some 602, some 598, some 600] := by
  decide +kernel

/-- 1.9, report 2: a counted insertion. -/
theorem test_counted_insertion :
    let t := after (.dockReport (report 0 0 0 912)) (polled { vacant with candidate := some .occupied })
    (t.dock.table[0]?.map fun r => (r.occupancy, r.returnEntry, r.reportWindow, r.commanded, r.insertionOrder))
      = some (.occupied, some ⟨false, none⟩, some 60, .shut, 0) ∧ t.dock.insertionCounter = 1 := by decide +kernel

/-- R127: with nothing held and 1 the next number, what lies where. -/
theorem test_positions_wrap :
    let s : State := { demo with store := { demo.store with nextSeq := 1 } }
    s.position 1 = .next ∧ s.position 0xFFFFFFFF = .released ∧ s.position 2 = .ahead ∧ s.position 0x80000001 = .released
      ∧ s.position 0x80000000 = .ahead := by decide +kernel

/-- 9.6, t = 5230: the level falls below CUTOFF in RESERVE. -/
theorem test_shutdown_in_reserve :
    let s := { demo with supply := { power := .reserve, decided := true, debounced := some false, run := some (false, 3), level := some 124 } }
    let t := after (.supplySample false 95) s
    t.phase = .shutdown ∧ t.supply.power = .reserve ∧ t.host.outgoing = [.notice (some 0x0100)] := by decide +kernel

theorem test_hire_at_a_dock_is_granted :
    let s : State := { known member with release := { requests := [⟨0, .member, 5, .host, .reader 0, none⟩] } }
    let t := after (.claimGrant 0 .free) s
    (t.release.claims.map fun c => (c.dock, c.state, c.deadline)) = [(0, .releaseSent, some 5)]
      ∧ (t.dock.table[0]?.map fun r => (r.command, r.readerResult)) = some (.release, some .allow) := by decide +kernel

/-- R108: an arrival that its line deferred is taken in the act of the answer, after it. -/
theorem test_deferred_tap_follows_the_answer :
    let s : State := { demo with
      term := demo.term.set .t0 { line := .up, session := { state := .checking, allocating := true }, deferred := [.tap 7] } }
    let t := after (.allocation .t0 .electric 5 .host none) s
    (t.terminal .t0).out = [.refuse .noBike, .show .wait] ∧ (t.terminal .t0).deferred = []
      ∧ t.inFlight = [.cardCheck 7 (.terminal .t0 1)] := by decide +kernel

/-- R121: a bike that goes while the claim of its dock is booked leaves the slack as it was, until the booking ends. -/
theorem test_removal_does_not_count_twice :
    let s : State := { demo with journal := { demo.journal with
      account := [{ occupancy := .occupied, slotOpen := true, booked := true }, { occupancy := .empty, slotOpen := true }] } }
    let t := after (.journalCountNotice 0 (.occupancy .empty)) s
    t.slack = s.slack ∧ (after (.journalCountNotice 0 (.booked false)) t).slack = s.slack + 1 := by decide +kernel

/-- R176: a supply that recovers while the reset line is low leaves the part held in reset. -/
theorem test_recovery_under_a_low_line :
    let s : State := { demo with phase := .supplyReset, resetLow := true }
    (after (.supplySample false 104) s).phase = .lineLow
      ∧ (after .resetLineRelease (after (.supplySample false 104) s)).store.resetCause = .line := by decide +kernel

/-- R45, R192: a verdict for card id 0 is refused before it is looked up. -/
theorem test_verdict_for_card_zero : (after (.cardVerdict 4 (9 :: bytes4 0 ++ [1])) demo).host.outgoing
    = [.reply 0x91 4 .badField .nothing] := by decide +kernel

/-! ### What the statements assume can be met -/

theorem meets_StepRunsFront : ({ demo with pending := [.dockPoll, .frameSent] } : State).pending = .dockPoll :: [.frameSent] := rfl

theorem meets_EveryStepAnswers : demo.pending = [] ∧ demo.ownWork = some .dockPoll
    ∧ ({ demo with phase := .supplyReset } : State).ownWork = none := by decide +kernel

theorem meets_StoppedPartTakesNothing : ∀ p ∈ [Phase.resetAsked, .shutdown, .supplyReset, .lineLow, .pinsDown],
    ({ demo with phase := p } : State).phase ≠ .running ∧ takenStopped .dockPoll = false := by decide +kernel

theorem meets_HuntFindsFrameSent : (0xC3 : Byte) ∉ ([1, 2] : List Byte)
    ∧ (List.replicate 512 (7 : Byte)).length ≤ 512 := by decide +kernel

theorem meets_FramesAreTakenOverrunOrBad :
    (demo.ready ∧ demo.host.rx = [] ∧ demo.host.waiting = [] ∧ demo.host.requestOpen = false
      ∧ demo.host.outgoing.any OutFrame.isReply = false ∧ demo.host.lost = false)
    ∧ (let s : State := { demo with host := { demo.host with waiting := [⟨1, 1, []⟩, ⟨1, 2, []⟩], requestOpen := true } }
       s.ready ∧ s.host.rx = [] ∧ s.host.waiting.length = 2 ∧ s.host.requestOpen = true ∧ s.host.lost = false)
    ∧ (let s : State := { demo with host := { demo.host with lost := true, deadline := none } }; s.ready ∧ s.host.lost = true)
    ∧ ((0xC3 : Byte) ∉ ([0x02, 0x01] : List Byte) ∧ 512 < fieldAt [0x02, 0x01] 0 2)
    ∧ (let b : List Byte := [0, 0, 1, 1, 0, 0]
       0xC3 ∉ b ∧ fieldAt b 0 2 ≤ 512 ∧ b.length = fieldAt b 0 2 + 6 ∧ crc16 (b.take (fieldAt b 0 2 + 4)) ≠ halfAt b
           (fieldAt b 0 2 + 4)) := by
  decide +kernel

theorem meets_FramesAreTakenOverrunOrBad_waits :
    (let s : State := { demo with host := { demo.host with requestOpen := true, waiting := [⟨1, 1, []⟩] } }
     s.ready ∧ s.host.rx = [] ∧ s.host.waiting.length < 2 ∧ s.host.requestOpen = true ∧ s.host.lost = false)
    ∧ (let s : State := { demo with host := { demo.host with outgoing := [.reply 0x81 1 .ok .nothing] } }
       s.ready ∧ s.host.outgoing.any OutFrame.isReply = true ∧ s.host.waiting.length < 2) := by decide +kernel

theorem meets_FrameSentGoesOn :
    let f : OutFrame := .notice (some 1)
    let g : OutFrame := .reply 0x81 1 .ok .nothing
    (demo.phase = .running ∧ f.isReply = false)
    ∧ (let s : State := { demo with host := { demo.host with outgoing := [g], requestOpen := true } }
       s.host.outgoing = g :: [] ∧ g.isReply = true ∧ s.host.waiting = [])
    ∧ (let s : State := { demo with host := { demo.host with outgoing := [g], requestOpen := true, waiting := [⟨1, 2, []⟩] } }
       s.host.outgoing = g :: [] ∧ s.host.waiting = ⟨1, 2, []⟩ :: [] ∧ ([] : List OutFrame).any OutFrame.isReply = false) := by
  decide +kernel

theorem meets_FormIsExaminedFirst : demo.ready ∧ ([1] : List Byte) ≠ [] := by decide +kernel

/-- Bodies one byte too long, with a presence byte of each kind, a bad outcome, and fields just outside their ranges. -/
theorem meets_FormIsExaminedFirst_more :
    demo.ready ∧ ([0, 0, 0] : List Byte).length ≠ 2 ∧ lengthUnfit [] 5 6 4 ∧ lengthUnfit [0, 3, 0, 2, 2, 0, 9] 5 6 4
      ∧ lengthUnfit [0, 3, 0, 2, 2, 1] 5 6 4 ∧ ¬ lengthUnfit [0, 3, 0, 2, 2, 2] 5 6 4
      ∧ 2 < fieldAt [1, 0, 0, 0, 5, 3] 5 1
      ∧ 64 < fieldAt (65 :: bytes2 1024 ++ bytes2 3840) 0 1 ∧ demo.dockCount ≤ fieldAt [2] 0 1 ∧ 2 < fieldAt [0, 3] 1 1
      ∧ fieldAt (bytes4 0 ++ [0, 0, 0, 1, 0, 0, 0]) 0 4 = 0 ∧ 16 < fieldAt [0, 0, 0, 17] 3 1
      ∧ 8 < fieldAt [1, 0, 0, 0, 5, 9] 5 1 ∧ 3 < fieldAt [4] 0 1 := by
  refine ⟨by decide, by decide, .inl (by decide), .inr (.inl (by decide)), .inr (.inr (by decide)), ?_, ?_⟩
  · rintro (h | h | h) <;> revert h <;> decide
  · decide +kernel

theorem meets_SilenceLosesTheLink :
    let s : State := { demo with now := 60 }
    s.ready ∧ s.host.lost = false ∧ s.host.deadline = some 60 ∧ 60 ≤ s.now := by decide +kernel

theorem meets_NoticeMaskSets : demo.ready ∧ (0x0FFF : Half) &&& 0xF000 = 0 ∧ (0x1000 : Half) &&& 0xF000 ≠ 0
    ∧ NoticeKind.terminalChanged.inSet 0x0FFF = true := by decide +kernel

theorem meets_StatusReportsAndEmpties : demo.ready := by decide +kernel

/-- A set whose switch time is 1000. -/
def staged : PendingSettings := { settings := { silenceAction := .restrict, silenceLimit := 30 }, switchTime := some 1000 }

theorem meets_ClockIsSetAndSettingsSwitch :
    let s : State := { demo with store := { demo.store with pendingSet := some staged } }
    s.ready ∧ (∀ p ∈ s.store.pendingSet, p.switchTime = some 1000) ∧ (999 : ClockTime) < 1000 ∧ (1000 : ClockTime) ≤ 1000
      ∧ s.store.clockUnset = false ∧ (1000 : ClockTime) ≤ s.store.clock ∧ staged.settings.silenceLimit ≠ s.store.live.silenceLimit
      ∧ s.host.lost = false := by decide +kernel

theorem meets_ClockIsSetAndSettingsSwitch_due :
    dueAt { demo with store := { demo.store with pendingSet := some staged } } staged
        ∧ dueAt demo { staged with switchTime := none } :=
  ⟨Or.inr ⟨1000, rfl, rfl, by decide⟩, Or.inl rfl⟩

/-- A good frame long ago: a limit of 30 s lies in the past. -/
theorem meets_ClockIsSetAndSettingsSwitch_overdue :
    overdueAt { demo with now := 30 } staged ∧ ¬ overdueAt { demo with now := 29 } staged :=
  ⟨⟨rfl, by decide, by decide⟩, fun h => absurd h.2.2 (by decide)⟩

/-- The body of SETTINGS_STAGE with the default set. -/
def stageBody (switch : List Byte) : List Byte := switch ++ Coding.settings {}

theorem meets_SettingsAreStagedAndDropped :
    Operands.settingsStage (stageBody [0]) = .ok ⟨{}, none⟩
    ∧ Operands.settingsStage (stageBody (1 :: bytes4 1001)) = .ok ⟨{}, some 1001⟩
    ∧ Operands.settingsStage (stageBody [2]) = .error .badField ∧ Operands.settingsStage [] = .error .badLength :=
        by decide +kernel

theorem meets_SettingsAreStagedAndDropped_refused :
    2 ≤ fieldAt [2] 0 1 ∧ fieldAt [0] 0 1 = 0 ∧ ([0] : List Byte).length ≠ 27 ∧ fieldAt [1] 0 1 = 1
        ∧ ([1] : List Byte).length ≠ 31
    ∧ (stageBody [0]).length = 27 ∧ (stageBody (1 :: bytes4 1001)).length = 31
    ∧ (let b : List Byte := [0] ++ Coding.settings { takeWindow := 9 }; b.length = 27 ∧ fieldAt b (1 + 0) 1 < 10)
    ∧ (let b : List Byte := 1 :: bytes4 9 ++ Coding.settings { crewWindow := 61 }; b.length = 31 ∧ 60 < fieldAt b (5 + 9) 1) := by
  decide +kernel

theorem meets_SettingsAreStagedAndDropped_waits : ¬ dueAt demo ⟨{}, some 1001⟩ := by
  rintro (h | ⟨x, h, _, h2⟩)
  · exact absurd h (by decide)
  · obtain rfl : (1001 : ClockTime) = x := by simpa using h
    exact absurd h2 (by decide)

theorem meets_ReadingRequestsAnswer : demo.ready ∧ demo.dock? 1 = some vacant ∧ (known member).cardRecord 5 = some member := by
  decide +kernel

theorem meets_ServiceStartsAndStops :
    demo.ready ∧ demo.store.station = .serving ∧ demo.release.claims = [] ∧ demo.order.session = none
    ∧ (holding (hire .released)).release.claims ≠ [] ∧ (visited .collect visit demo).order.session.isSome = true
    ∧ ({ demo with store := { demo.store with station := .configuring } } : State).store.station = .configuring :=
        by decide +kernel

/-- 10.2, the worked example: 48 docks, bases 1024 and 3840. -/
theorem meets_LayoutSetRebuilds :
    Operands.layoutSet (48 :: bytes2 1024 ++ bytes2 3840) = .ok ⟨48, 1024, 3840⟩
    ∧ Operands.layoutSet (48 :: bytes2 1030 ++ bytes2 3840) = .error .badField
    ∧ Operands.layoutSet (48 :: bytes2 4000 ++ bytes2 4048) = .error .badField
    ∧ State.reset.ready ∧ State.reset.store.station = .configuring ∧ State.reset.journal.entries = []
    ∧ demo.store.station = .serving := by decide +kernel

theorem meets_PartIsStopped : demo.ready ∧ demo.phase ∈ [Phase.running, .resetAsked, .shutdown]
    ∧ ({ demo with phase := .shutdown } : State).host.outgoing = [] ∧ demo.phase ≠ .pinsDown ∧ demo.phase ≠ .lineLow
    ∧ demo.phase ∉ [Phase.pinsDown, .supplyReset]
    ∧ (∀ p ∈ [Phase.supplyReset, .lineLow, .pinsDown], ({ demo with phase := p } : State).phase = p) := by decide +kernel

theorem meets_RestartIsWarmOrCold : ∀ x ∈ resets, ∀ agrees : Bool,
    let s : State := { demo with phase := x.2.1, store := { demo.store with checkAgrees := agrees } }
    s.phase = x.2.1 ∧ s.host.outgoing = [] ∧ s.store.checkAgrees = agrees := by decide +kernel

/-- A part with a van session and a fault of a line, stopped, the reset line low or high. -/
theorem meets_RestartIsWarmOrCold_more : ∀ x ∈ resets, ∀ low : Bool,
    let f : FaultRecord := ⟨.terminal .t0, .lineFailed, 0, true, 0, true, 0, .active, .new, none, .mains⟩
    let s : State := { visited .collect visit demo with phase := x.2.1, resetLow := low, fault := { table := [f] } }
    s.phase = x.2.1 ∧ s.host.outgoing = [] ∧ s.store.checkAgrees = true ∧ s.resetLow = low ∧ lineFault f = true
      ∧ s.order.session = some visit ∧ s.orderOf visit.order = some (order3 .collect .active)
      ∧ s.dock? 1 = some vacant ∧ vacant.commanded = .opened ∧ (after x.1 s).level 1 ≠ .closed := by decide +kernel

/-- Samples that settle nothing, decide, change the state and shut the part down, by the tables of R170 and R171. -/
theorem meets_SupplyIsSampled_tables :
    let undecided : State := { demo with supply := { power := .battery, run := some (false, 2) } }
    let off (p : PowerState) : State :=
      { demo with supply := { power := p, decided := true, debounced := some false, run := some (false, 3) } }
    undecided.ready ∧ (off .battery).ready
      ∧ poweredBy undecided none 95 = (.battery, false) ∧ poweredBy undecided (some false) 119 = (.reserve, false)
      ∧ poweredBy undecided (some false) 120 = (.battery, false) ∧ poweredBy undecided (some false) 95 = (.reserve, true)
      ∧ poweredBy undecided (some true) 95 = (.mains, false)
      ∧ poweredBy demo (some true) 0 = (.mains, false) ∧ poweredBy demo (some false) 120 = (.battery, false)
      ∧ poweredBy demo (some false) 95 = (.reserve, true)
      ∧ poweredBy (off .battery) (some false) 119 = (.reserve, false) ∧ poweredBy (off .battery) (some false) 120 = (.battery, false)
      ∧ poweredBy (off .reserve) (some false) 127 = (.reserve, false) ∧ poweredBy (off .reserve) (some false) 128 = (.battery, false)
      ∧ poweredBy (off .reserve) (some true) 96 = (.mains, false) := by decide +kernel

theorem meets_SupplyIsSampled :
    let s : State := { demo with supply := { power := .battery, decided := true, debounced := some false, run := some (false, 3) } }
    s.ready ∧ (119 : Byte).toNat < s.store.live.supplyLow ∧ s.store.live.supplyCutoff ≤ (119 : Byte).toNat
      ∧ (95 : Byte).toNat < s.store.live.supplyCutoff ∧ s.supply.power ≠ .mains
      ∧ ({ s with phase := .supplyReset } : State).phase = .supplyReset
      ∧ s.store.live.supplyCutoff + s.store.live.supplyHysteresis ≤ (104 : Byte).toNat := by decide +kernel

theorem meets_PollChoosesItsDock :
    (let r : DockRecord := { full with command := .release }
     let s : State := { demo with dock := { demo.dock with table := [r, vacant], urgentRun := 1, urgentPos := some 0 } }
     s.ready ∧ s.dock.poll = none ∧ s.dock.table[0]? = some r ∧ r.urgent = true ∧ s.dock.urgentRun < 2
       ∧ urgentKey s.dock.urgentPos 2 0 = 2)
    ∧ (demo.dock.table[0]? = some full ∧ (∀ x ∈ demo.dock.table, x.urgent = false) ∧ 0 = demo.dock.rotation) := by decide +kernel

/-- A report of dock 0 at the reading `x`. -/
def readAt (x : Nat) : DockReport :=
  { dock := 0, lock := .locked, slot := .opened, sense := x, tag := none, tap := none, presses := 0, battery := none, emptyRef := 600
    poweredUp := false }

theorem meets_AnsweredReportIsRecorded : reported (polled full) 0 (full.poll 0) full (report 0 0 0 900)
    (readAt 900) := by decide +kernel

/-- A report with a tap, a press, a battery level of 24 and a tag, from a dock that joins with its report window open. -/
theorem meets_AnsweredReportIsRecorded_more :
    let b := withCheck ([0, 0, 0] ++ bytes2 900 ++ bytes4 11 ++ [0] ++ bytes4 5 ++ [1, 24] ++ bytes2 600 ++ [0])
    let q : DockReport := { readAt 900 with tag := some ⟨11, .standard⟩, tap := some 5, presses := 1, battery := some 24 }
    let r : DockRecord := { full with link := .joining .stale, reportWindow := some 9, saturation := 2 }
    reported (polled r) 0 (r.poll 0) r b q ∧ 24 < demo.store.live.batteryLow ∧ r.checkPending = false
      ∧ r.bikeHolds.batteryLow = false ∧ r.dockHolds.sensor = false
      ∧ ((after (.dockReport b) (polled r)).dock? 0).any (fun x => x.link == .online && x.bike.isSome && x.reportWindow.isSome)
      ∧ ((after (.dockReport (report 0 0 0 4095)) (polled r)).dock? 0).any (fun x => x.saturation == 3)
      ∧ demo.store.live.batteryLow + 10 ≤ 35 := by decide +kernel

theorem meets_PresenceDetectorDecides : reported (polled vacant) 0 (vacant.poll 0) vacant (report 0 0 0 799) (readAt 799)
    ∧ reported (polled vacant) 0 (vacant.poll 0) vacant (report 0 0 0 800) (readAt 800)
    ∧ reported (polled vacant) 0 (vacant.poll 0) vacant (report 0 0 0 4095) (readAt 4095) := by decide +kernel

theorem meets_InsertionsAndRemovals :
    (let r : DockRecord := { vacant with candidate := some .occupied }
     reported (polled r) 0 (r.poll 0) r (report 0 0 0 800) (readAt 800) ∧ r.link = .online ∧ r.commanded = .opened
       ∧ r.baseline.getD 600 + demo.store.live.threshold ≤ 800)
    ∧ (let r : DockRecord := { vacant with candidate := some .occupied, commanded := .shut }
       let q : DockReport := { readAt 800 with slot := .shut }
       reported (polled r) 0 (r.poll 0) r (report 0 0 1 800) q ∧ r.commanded = .shut ∧ q.slot = .shut)
    ∧ (let r : DockRecord := { full with candidate := some .empty }
       reported (polled r) 0 (r.poll 0) r (report 0 0 0 719) (readAt 719) ∧ r.bike.isSome = true ∧ (polled r).claimOn 0 = none
         ∧ 719 < r.baseline.getD 600 + demo.store.live.threshold - demo.store.live.hysteresis)
    ∧ (holding (hire .released)).claimOn 0 = some (hire .released) := by decide +kernel

/-- A late insertion, the removal of a bike not identified, with a tag to take and without, and the two first decisions. -/
theorem meets_InsertionsAndRemovals_more :
    (let r : DockRecord := { vacant with candidate := some .occupied, link := .joining .lost }
     reported (polled r) 0 (r.poll 0) r (report 0 0 0 800) (readAt 800))
    ∧ (let b := withCheck ([0, 0, 0] ++ bytes2 719 ++ bytes4 11 ++ [0] ++ bytes4 0 ++ [0, 0xFF] ++ bytes2 600 ++ [0])
       let r : DockRecord := { full with bike := none, candidate := some .empty, returnEntry := some ⟨false, none⟩ }
       let q : DockReport := { readAt 719 with tag := some ⟨11, .standard⟩ }
       let h : DockRecord := { r with dockHolds := { tagUnread := true } }
       reported (polled r) 0 (r.poll 0) r b q ∧ r.dockHolds.tagUnread = false ∧ r.dockHolds.tagConflict = false
         ∧ (q.tag.filter fun k => !((polled r).dock.table.zipIdx.any fun x => x.2 != 0 && x.1.bike.any fun y => y.id == k.id)) = q.tag
         ∧ reported (polled h) 0 (h.poll 0) h b q ∧ h.bike = none ∧ h.dockHolds.tagUnread = true)
    ∧ (let r : DockRecord := { link := .joining .absent, candidate := some .occupied, baseline := some 600 }
       reported (polled r) 0 (r.poll 0) r (report 0 0 0 800) (readAt 800) ∧ r.occupancy = .unknown)
    ∧ (let r : DockRecord := { link := .joining .absent, candidate := some .empty }
       reported (polled r) 0 (r.poll 0) r (report 0 0 0 719) (readAt 719) ∧ r.occupancy = .unknown ∧ r.baseline.getD 600 = 600) := by
  decide +kernel

/-- An insertion at a dock with a VAN claim and a crew window, with its slot open and shut. -/
theorem meets_InsertionsAndRemovals_told : ∀ b ∈ [SlotMode.opened, .shut],
    let r : DockRecord := { vacant with candidate := some .occupied, commanded := b, crewWindow := some ⟨9, 3⟩ }
    let s : State := { polled r with release := { claims := [reservation] } }
    reported s 0 (r.poll 0) r (report 0 0 1 800) { readAt 800 with slot := .shut }
      ∧ s.claimOn 0 = some reservation ∧ reservation.kind = .van ∧ r.crewWindow ≠ none := by decide +kernel

/-- A wanted tag, taken, in conflict, and unread; a seventh change within 20 s. -/
theorem meets_InsertionsAndRemovals_tags :
    (let b := withCheck ([0, 0, 0] ++ bytes2 900 ++ bytes4 11 ++ [0] ++ bytes4 0 ++ [0, 0xFF] ++ bytes2 600 ++ [0])
     let r : DockRecord := { full with bike := none, tagWait := 2, returnEntry := some ⟨false, none⟩ }
     reported (polled r) 0 (r.poll 0) r b { readAt 900 with tag := some ⟨11, .standard⟩ }
       ∧ reported (polled r) 0 (r.poll 0) r (report 0 0 0 900) (readAt 900) ∧ vacant.bike = none
       ∧ (let s : State := { polled r with dock := { (polled r).dock with table := [r, full] } }
          reported s 0 (r.poll 0) r b { readAt 900 with tag := some ⟨11, .standard⟩ } ∧ s.dock? 1 = some full))
    ∧ (let h : List Elapsed := (List.replicate 6 0 ++ [20]).filter (fun x => 20 ≤ x + 20)
       7 ≤ h.length) := by decide +kernel

theorem meets_MissedPollIsCounted :
    (polled full).dock.poll = some (full.poll 0) ∧ (polled full).dock? 0 = some full ∧ readReport [] = none
    ∧ readReport (report 1 0 0 900) = some { readAt 900 with dock := 1 } := by decide +kernel

theorem meets_WindowsAndGraceRunOut :
    let r : DockRecord := { full with reportWindow := some 0, crewWindow := some ⟨1, 3⟩ }
    let s : State := { demo with dock := { demo.dock with table := [r] } }
    s.ready ∧ s.dock? 0 = some r ∧ r.reportWindow = some 0 ∧ 0 ≤ s.now ∧ r.crewWindow = some ⟨1, 3⟩ ∧ s.now < 1 :=
        by decide +kernel

theorem meets_ClaimsFollowTheLock : ∀ st ∈ [ClaimState.releaseSent, .released, .relocking, .jammedOpen, .orphan],
    (holding (hire st)).ready ∧ stands (holding (hire st)) (hire st) := by decide +kernel

theorem meets_ClaimDeadlinesJamsAndOrphans :
    (∀ st ∈ [ClaimState.releaseSent, .released, .relocking], (hire st).deadline = some 0 ∧ stands (holding (hire st)) (hire st)
      ∧ (holding (hire st)).dock? 0 = some full)
    ∧ (full.link ≠ .lost ∧ full.command = .none ∧ full.lock = .locked)
    ∧ (let s : State := { holding (hire .released) with dock := { demo.dock with table := [{ full with link := .lost }, vacant] } }
       stands s (hire .released) ∧ s.dock? 0 = some { full with link := .lost })
    ∧ stands (holding (hire .jammedOpen)) (hire .jammedOpen) ∧ stands (holding (hire .orphan)) (hire .orphan)
    ∧ (∀ x ∈ (holding (hire .orphan)).release.claims, x.state.releasing = true → x.holder = some 5 → x.dock = 0)
    ∧ (let other := { hire .released with dock := 1 }
       let s : State := { demo with release := { claims := [hire .orphan, other] } }
       stands s (hire .orphan) ∧ other.state.releasing = true ∧ other.holder = some 5 ∧ other.dock ≠ (hire .orphan).dock) := by
  decide +kernel

theorem meets_ClaimsEndAtRemoval : (∀ st ∈ [ClaimState.releaseSent, .released, .relocking, .jammedOpen, .orphan],
      stands (holding (hire st)) (hire st)) ∧ stands (holding reservation) reservation
    ∧ (hire .released).kind = .member ∧ (hire .released).holder = some 5 ∧ demo.store.live.grace ≠ 0 :=
          by decide +kernel

theorem meets_ClaimTestsInOrder : demo.ready ∧ demo.dock? 0 = some full ∧ demo.claimsKept
    ∧ refusal demo [] 0 full .member 5 = none ∧ refusal demo [] 1 vacant .member 5 = some .noBike
    ∧ (holding (hire .released)).claimsKept ∧ refusal (holding (hire .released)) [] 0 full .member 5 = some .already
    ∧ refusal (holding (hire .released)) [] 0 full .member 6 = some .claimed := by decide +kernel

theorem meets_AllocatorTakesTheLongestStanding :
    demo.ready ∧ demo.hireable .standard 0 = true ∧ demo.hireable .standard 1 = false ∧ demo.hireable .electric 0 = false
    ∧ (let s := atT0 { state := .checking, allocating := true } demo
       (s.terminal .t0).session.allocating = true ∧ (s.terminal .t0).session.reallocated = false
           ∧ (s.terminal .t0).line = .up) := by
  decide +kernel

theorem meets_AllocatorTakesTheLongestStanding_deferred :
    let s : State := { demo with
      term := demo.term.set .t0 { line := .up, session := { state := .checking, allocating := true }, deferred := [.tap 7] } }
    s.ready ∧ (s.terminal .t0).deferred = [.tap 7] ∧ (7 : CardId) ≠ 0 ∧ (s.terminal .t0).session.allocating = true
      ∧ (∀ d ∈ [0, 1], s.hireable .electric d = false) := by decide +kernel

/-- The release of a reservation, and one whose reservation has gone. -/
theorem meets_GrantsAreAnswered_van :
    let q : ClaimRequest := ⟨0, .van, 9, .host, .order 3, some 3⟩
    let s : State := visited .collect { visit with docks := [(0, .reserved)] }
      { demo with release := { claims := [reservation], requests := [q] } }
    s.ready ∧ s.claimsKept ∧ s.requestOn 0 = some q ∧ s.claimOn 0 = some reservation ∧ s.level 0 ≠ .closed
      ∧ s.store.station = .serving ∧ full.link = .online ∧ full.occupancy = .occupied ∧ full.lock = .locked
      ∧ ({ s with release := { s.release with claims := [] } } : State).claimOn 0 = none := by decide +kernel

theorem meets_GrantsAreAnswered_terminal :
    let q : ClaimRequest := ⟨0, .member, 5, .host, .terminal .t0, none⟩
    let s : State := atT0 { state := .checking, allocating := true } { demo with release := { requests := [q] } }
    s.ready ∧ s.claimsKept ∧ s.requestOn 0 = some q ∧ (s.terminal .t0).line = .up ∧ (s.terminal .t0).session.allocating = true
      ∧ (s.terminal .t0).deferred = [] ∧ refusal s [] 0 full .member 5 = none
      ∧ refusal s [] 1 vacant .member 5 = some .noBike := by decide +kernel

theorem meets_GrantsAreAnswered :
    let q : ClaimRequest := ⟨0, .member, 5, .host, .reader 0, none⟩
    let s : State := { demo with release := { requests := [q] } }
    s.ready ∧ s.claimsKept ∧ s.requestOn 0 = some q ∧ s.dock? 0 = some full ∧ refusal s [] 0 full .member 5 = none
      ∧ refusal s [] 1 vacant .member 5 = some .noBike := by decide +kernel

theorem meets_ReservationsComeAndGo :
    (let s := visited .collect visit demo
     s.ready ∧ s.dock? 0 = some full ∧ s.order.session = some visit ∧ s.orderOf 3 = some (order3 .collect .active)
       ∧ s.claimOn 0 = none ∧ s.requestOn 0 = none ∧ s.level 0 ≠ .closed)
    ∧ (let s := visited .collect visit (holding reservation)
       s.claimOn 0 ≠ none ∧ stands s reservation ∧ reservation.state = .reserved ∧ s.requestOn 0 = none
         ∧ (∀ x ∈ s.release.claims, x.state.releasing = true → x.holder ≠ some 9))
    ∧ (let s := visited .collect visit (holding (hire .released)); stands s (hire .released)
        ∧ (hire .released).state ≠ .reserved) := by
  decide +kernel

/-- A drop in CLOSING, a release at an EMPTY dock, another order, and a dock with another claim. -/
theorem meets_ReservationsComeAndGo_more :
    (let v := { visit with state := .closing, docks := [(0, .reserved)] }
     let s := visited .collect v (holding reservation)
     s.ready ∧ s.order.session = some v ∧ stands s reservation ∧ s.sessionOpen = false)
    ∧ (let r : Claim := { reservation with dock := 1 }
       let s := visited .collect visit (holding r)
       stands s r ∧ s.dock? 1 = some vacant ∧ vacant.link = .online ∧ vacant.occupancy ≠ .occupied ∧ s.requestOn 1 = none)
    ∧ (4 : OrderId) ≠ visit.order ∧ (hire .released).kind ≠ .van
    ∧ (let q : ClaimRequest := { dock := 0, kind := .member, holder := 5, origin := .host, owner := .reader 0, order := none }
       ({ visited .collect visit demo with release := { requests := [q] } } : State).requestOn 0 ≠ none) := by decide +kernel

/-- The body of CARD_PUT and of an ADMIT verdict for card 5. -/
def memberBody : List Byte := bytes4 5 ++ [0, 0, 0, 1, 0, 0, 0]

theorem meets_CardsArePutAndDropped : demo.ready ∧ Operands.cardPut memberBody = .ok member
    ∧ (∃ x ∈ (known member).card.table, x.card = 5) ∧ demo.card.table.length < demo.store.layout.journalBase := by decide +kernel

theorem meets_CardCheckAtTheDock : (∀ k ∈ [Role.member, .crew, .service],
      (known { member with role := k }).cardRecord 5 = some { member with role := k } ∧ (known { member with role := k }).ready)
    ∧ demo.dock? 0 = some full ∧ demo.dock? 1 = some vacant ∧ vacant.clearable = false
        ∧ vacant.occupancy ≠ .occupied := by decide +kernel

theorem meets_CardCheckAtTheDock_steps : checkRefusal (known member) full member = none
    ∧ checkRefusal (known { member with standing := .barred }) full { member with standing := .barred } = some .barred := by
  constructor <;> simp [checkRefusal, isExpired, known, member, demo, station, full, State.reset]

/-- At a terminal a MEMBER and a CREW card pass, and a SERVICE card does not. -/
theorem meets_CardCheckAtTheDock_terminal :
    terminalHandedOn demo .t1 4 member = .checkResultAtSession .t1 4 (.member 5 .host .standard)
    ∧ terminalHandedOn demo .t1 4 { member with role := .crew } = .crewTap 5 (.terminal .t1 4)
    ∧ terminalHandedOn demo .t1 4 { member with role := .service } = .checkResultAtSession .t1 4 (.deny .role) := by
  simp [terminalHandedOn, refusalAtTerminal, isExpired, member, demo, station, State.reset]

theorem meets_UnknownCardsAreAsked :
    (demo.cardRecord 5 = none ∧ demo.store.station = .serving ∧ demo.host.lost = false ∧ demo.card.queries = [])
    ∧ (let q : Query := ⟨1, 5, List.replicate 4 (.reader 1), 8⟩
       let s : State := { demo with card := { queries := [q] } }
       s.queriesKept ∧ q.card = 5 ∧ 4 ≤ q.waiters.length)
    ∧ (let s : State := { demo with host := { demo.host with lost := true, deadline := none } }
       s.ready ∧ s.host.lost = true ∧ s.card.queries = [] ∧ s.store.live.unknownCard = .deny ∧ s.releasingHolder 5 = false
         ∧ s.card.table.length < s.store.layout.journalBase ∧ (5 : CardId).msb = false ∧ (0x80000005 : CardId).msb = true
         ∧ (some full >>= (·.bike)).map (·.cls) ≠ some .electric) := by decide +kernel

/-- The tags 255 and 1 held with 255 the next, and a full list. -/
theorem meets_UnknownCardsAreAsked_more :
    (let s : State := { demo with card := { queries := [⟨255, 6, [], 8⟩, ⟨1, 7, [], 8⟩], nextTag := 255 } }
     s.ready ∧ s.card.queries.length < 8 ∧ (∀ q ∈ s.card.queries, q.card ≠ 5) ∧ (∀ q ∈ s.card.queries, q.tag ≠ 2))
    ∧ (let l : List Query := (List.range 8).map fun k => ⟨byteOf (k + 1), BitVec.ofNat 32 (k + 10), [], 8⟩
       8 ≤ l.length ∧ ∀ q ∈ l, q.card ≠ 5) := by decide +kernel

/-- A full card table of two records. -/
def crowded (a b : CardRecord) : State :=
  { demo with
    host := { demo.host with lost := true, deadline := none }
    card := { table := [a, b], installCounter := 9 }
    store := { demo.store with live := { demo.store.live with unknownCard := .provisional }
                               layout := { demo.store.layout with journalBase := 2 } } }

/-- A record whose expiry has come, installed this long ago. -/
def lapsed (card : CardId) (ago : BitVec 32) : CardRecord := { member with card := card, expiry := some 1000, stamp := 9 - ago }

/-- With the table full the older of two expired records gives up its slot; with none expired there is no slot. -/
theorem meets_UnknownCardsAreAsked_full :
    (let s := crowded (lapsed 6 3) (lapsed 7 4)
     s.ready ∧ s.cardRecord 5 = none ∧ s.store.station = .serving ∧ ¬ hasSlot s (admitted 5)
       ∧ expiredCards s = [lapsed 6 3] ++ lapsed 7 4 :: [] ∧ behind s (lapsed 6 3) < behind s (lapsed 7 4))
    ∧ expiredCards (crowded { member with card := 6 } { member with card := 7 }) = []
    ∧ (let s := crowded (lapsed 6 3) (lapsed 7 4)
       tapRefusal s full (admitted 5) = none
         ∧ tapRefusal s { full with bike := some ⟨11, .electric⟩ } (admitted 5) = some .noRight) := by
  refine ⟨⟨by decide +kernel, by decide +kernel, by decide +kernel, ?_, by decide +kernel, by decide +kernel⟩, by decide +kernel, ?_⟩
  · simp [hasSlot, crowded, lapsed, member, admitted, demo, station, State.reset]
  · simp [tapRefusal, checkRefusal, isExpired, crowded, lapsed, member, admitted, full, demo, station, State.reset]

/-- No room for the record of a verdict, and the loss of the link with one query. -/
theorem meets_QueriesEnd_more :
    (let s : State := { demo with card := { queries := [⟨1, 5, [.reader 1], 0⟩] }
                                  store := { demo.store with layout := { demo.store.layout with journalBase := 0 } } }
     s.ready ∧ s.queriesKept ∧ ¬ s.card.table.length < s.store.layout.journalBase ∧ s.cardRecord 5 = none)
    ∧ (let q : Query := ⟨1, 5, [.reader 1], 0⟩
       let s : State := { demo with now := 60, card := { queries := [q] } }
       s.ready ∧ s.host.lost = false ∧ s.host.deadline = some 60 ∧ s.card.queries = [q] ∧ s.dock? 1 = some vacant
         ∧ s.store.live.unknownCard = .deny) := by decide +kernel

theorem meets_QueriesEnd :
    let q : Query := ⟨1, 5, [.reader 1], 0⟩
    let s : State := { demo with card := { queries := [q] } }
    s.ready ∧ s.queriesKept ∧ Operands.cardVerdict (1 :: bytes4 5 ++ [0] ++ memberBody) = .ok ⟨1, 5, .grant (.ok member)⟩
      ∧ Operands.cardVerdict (2 :: bytes4 5 ++ [2]) = .ok ⟨2, 5, .nothing⟩
      ∧ Operands.cardVerdict (1 :: bytes4 6 ++ [1]) = .ok ⟨1, 6, .bar⟩ ∧ q.deadline ≤ s.now ∧ s.now < 1
      ∧ s.card.table.length < s.store.layout.journalBase := by decide +kernel

theorem meets_SalesChargesAndRefunds :
    (demo.ready ∧ (0x80000005 : CardId).msb = true ∧ demo.store.clock < 1001 ∧ demo.store.station = .serving
      ∧ demo.cardRecord 0x80000005 = none ∧ demo.releasingHolder 0x80000005 = false ∧ (5 : CardId).msb = false
      ∧ 2 ≤ (2 : Byte).toNat ∧ demo.store.clockUnset = false ∧ (1000 : ClockTime) ≤ demo.store.clock)
    ∧ (let q : ClaimRequest := ⟨0, .member, 5, .host, .reader 0, none⟩
       let s : State := { known member with release := { requests := [q] } }
       s.requestOn 0 = some q ∧ s.cardRecord 5 = some member
           ∧ ({ s with card := {} } : State).cardRecord 5 = none) := by decide +kernel

/-- A sale into a full table: with no record expired the PROVISIONAL one goes, and with none of either the session keeps the pass. -/
theorem meets_SalesChargesAndRefunds_full :
    (let s := crowded { member with card := 6 } { member with card := 7, origin := .provisional }
     s.ready ∧ s.store.clock < 1001 ∧ ¬ hasSlot s (soldPass 0x80000005 .standard 1001) ∧ expiredCards s = []
       ∧ saleEvicts s = [{ member with card := 7, origin := .provisional }])
    ∧ (let s := atT0 { state := .checking, attempt := 4 } (crowded { member with card := 6 } { member with card := 7 })
       s.ready ∧ ¬ hasSlot s (soldPass 0x80000005 .standard 1001) ∧ saleEvicts s = []
         ∧ (s.terminal .t0).session.state = .checking) := by
  refine ⟨⟨by decide +kernel, by decide +kernel, ?_, by decide +kernel, by decide +kernel⟩, by decide +kernel, ?_, by decide +kernel, rfl⟩ <;>
  simp [hasSlot, atT0, crowded, member, soldPass, demo, station, State.reset]

theorem meets_LevelsFollowTheirCaps : demo.ready ∧ demo.dock? 0 = some full ∧ demo.dock? 2 = none ∧ demo.level 0 ≠ .closed
    ∧ (after (.dockSetService 1 [0, byteOf (Code.level .closed)]) demo).level 0 = .closed := by decide +kernel

theorem meets_SlotsFollowTheirWant :
    demo.ready ∧ demo.dock? 0 = some full ∧ stands (holding (hire .releaseSent)) (hire .releaseSent)
    ∧ ((holding (hire .releaseSent)).level 0).permits .member = true ∧ Level.closed.permits .van = false
    ∧ (let s : State := { holding reservation with dock := { demo.dock with table := [{ full with hostSetting := .closed }, vacant] } }
       stands s reservation ∧ (s.level 0).permits .van = false ∧ reservation.state = .reserved)
    ∧ (let s : State := { holding (hire .releaseSent) with dock := { demo.dock with table := [{ full with hostSetting := .returnOnly }, vacant] } }
       stands s (hire .releaseSent) ∧ (s.level 0).permits .member = false) := by decide +kernel

/-- An entry with this number. -/
def entry (n : SeqNo) : Entry :=
  { seq := n, time := 0, unset := false, kind := .returned, dock := some 1, bike := none, card := none, reference := none, outcome := none
    done := none, quantity := none, flags := {} }

/-- Two entries held across the wrap, and 2 the next number. -/
def held : State :=
  { demo with
    journal := { demo.journal with entries := [entry 0xFFFFFFFF, entry 1] }
    store := { demo.store with nextSeq := 2 } }

theorem meets_PositionsLieBehindTheNextNumber : held.store.nextSeq ≠ 0 ∧ seqAfter^[2] 0xFFFFFFFF = held.store.nextSeq
    ∧ seqAfter^[0] 2 = held.store.nextSeq ∧ held.position 0xFFFFFFFF = .held ∧ held.journal.entries[0]? = some
        (entry 0xFFFFFFFF) := by
  decide +kernel

theorem meets_numbered : held.numbered := by
  refine ⟨by decide +kernel, by decide +kernel, ?_⟩
  simp [Consecutive, held, entry, seqAfter]

theorem meets_BookingsAndCounts :
    let q : ClaimRequest := ⟨0, .member, 5, .host, .reader 0, none⟩
    let s : State := { demo with release := { requests := [q] } }
    let tight : State := { s with store := { s.store with layout := { dockCount := 2, journalBase := 64, faultBase := 66 } } }
    s.ready ∧ s.requestOn 0 = some q ∧ 0 ∉ s.journal.inHand ∧ 2 ≤ s.slack ∧ s.journal.withheld = [] ∧ tight.slack = 1
      ∧ 0 ∈ ({ s with journal := { s.journal with inHand := [0] } } : State).journal.inHand := by decide +kernel

theorem meets_WithheldDocksAreAdmitted :
    let r : DockRecord := { vacant with commanded := .shut, acknowledged := .shut, withheld := true }
    let s := station [r]
    let out : State := { s with store := { s.store with layout := { dockCount := 1, journalBase := 64, faultBase := 64 } } }
    s.ready ∧ s.dock? 0 = some r ∧ s.journal.withheld = [] ∧ 1 ≤ s.slack ∧ r.withheld = true ∧ out.slack < 1 := by decide +kernel

/-- Two withheld docks, the lower one with its flag clear or standing, and slack for one or for both. -/
theorem meets_WithheldDocksAreAdmitted_more : ∀ flag : Bool, ∀ room ∈ [1, 2],
    let r : DockRecord := { vacant with commanded := .shut, acknowledged := .shut, withheld := true }
    let s0 := station [{ r with withheld := flag }, r]
    let s : State := { s0 with
      journal := { s0.journal with withheld := [1, 0] }
      store := { s0.store with layout := { dockCount := 2, journalBase := 64, faultBase := 64 + room } } }
    s.ready ∧ s.journal.withheld = [1, 0] ∧ s.slack = room ∧ s.dock? 1 = some r ∧ s.journal.account[0]? = s.journal.account[1]?
      ∧ s.journal.account[0]? = some { occupancy := .empty, slotOpen := false } := by decide +kernel

theorem meets_EntriesAreWritten :
    let g : GraceEntry := ⟨11, 5, 1, true, 100⟩
    let s : State := { demo with release := { grace := [g] } }
    s.ready ∧ (s.release.grace.find? fun x => x.bike == 11) = some g ∧ (s.release.grace.find? fun x => x.bike == 12) = none := by
  decide +kernel

theorem meets_JournalIsReadAndReleased : held.ready ∧ held.journal.entries.length ≤ 4096 ∧ held.position 1 = .held
    ∧ held.position 2 = .next ∧ held.position 3 = .ahead ∧ held.position 0xFFFFFFFE = .released ∧ held.journal.withheld = [] := by
  decide +kernel

theorem meets_OrdersAreQueuedAndCancelled :
    Operands.orderAdd ([0, 3, 0, 2, 2, 0]) = .ok (order3 .collect .queued) ∧ demo.orderOf 3 = none
    ∧ (let s : State := { demo with order := { queue := [order3 .collect .queued] } }
       s.orderOf 3 = some (order3 .collect .queued) ∧ s.ready)
    ∧ (let v := { visit with docks := [(0, .reserved)] }
       let s := visited .collect v demo
       s.orderOf 3 = some (order3 .collect .active) ∧ s.order.session = some v ∧ v.state = .opened ∧ v.docks ≠ [])
    ∧ ({ visit with state := .closing } : VanSession).state = .closing := by decide +kernel

theorem meets_CrewTapOpensTheSession :
    let s : State := { demo with order := { queue := [order3 .collect .queued] } }
    let tight : State := { s with store := { s.store with layout := { dockCount := 2, journalBase := 64, faultBase := 65 } } }
    s.ready ∧ s.dock? 0 = some full ∧ s.ordersKept ∧ s.order.session = none ∧ s.store.station = .serving
        ∧ s.supply.power ≠ .reserve
      ∧ (order3 .collect .queued).notBefore = none ∧ 1 ≤ s.slack ∧ tight.slack < 1
      ∧ s.order.queue.find? s.orderEligible = some (order3 .collect .queued) := by decide +kernel

theorem meets_CrewWorksInTheSession :
    (let v := { visit with docks := [(0, .reserved)] }
     let s := visited .collect v demo
     s.ready ∧ s.order.session = some v ∧ s.orderOf 3 = some (order3 .collect .active)
       ∧ v.docks.find? (fun p => p.1 == 0) = some (0, .reserved) ∧ s.supply.power ≠ .reserve)
    ∧ (let s := visited .deliver visit demo
       s.claimOn 1 = none ∧ s.dock? 1 = some vacant ∧ vacant.occupancy = .empty ∧ s.level 1 ≠ .closed
           ∧ vacant.commanded = .opened)
    ∧ (let s := visited .collect { visit with state := .closing } demo; s.ready ∧ s.dock? 0 = some full) := by decide +kernel

/-- A reservation to move to an unmarked dock, a refused move, a tap at a terminal, and a pass that takes dock 0. -/
theorem meets_CrewWorksInTheSession_more :
    (let v := { visit with docks := [(1, .reserved)], windows := [1] }
     let s := visited .collect v demo
     s.ready ∧ v.docks.find? (fun p => p.1 == 0) = none ∧ s.supply.power ≠ .reserve ∧ s.claimOn 0 = none ∧ full.lock = .locked
       ∧ s.level 0 ≠ .closed ∧ full.matchesClass .any = true ∧ (1, Mark.reserved) ∈ v.docks ∧ s.inFlight = [] ∧ v.docks ≠ [])
    ∧ (let s := visited .collect visit demo
       vacant.occupancy ≠ .occupied ∧ s.claimOn 1 = none ∧ visit.docks.find? (fun p => p.1 == 1) = none)
    ∧ (let s := visited .collect visit demo
       passTakes (2 - 0 - visit.awaiting) visit.docks
         ((List.range s.dockCount).filter fun e => s.reservable (order3 .collect .active) e && (s.requestOn e).isNone) = [0])
    ∧ (let s : State := { demo with supply := { demo.supply with power := .reserve } }; s.supply.power = .reserve)
    ∧ demo.order.session = none := by decide +kernel

/-- Order 3 worked at both docks, with its claim on dock `d`. -/
def working (d : DockNo) : State :=
  visited .collect { visit with docks := [(0, .reserved), (1, .reserved)] } (holding { reservation with dock := d })

/-- A reservation that stands, and one that does not, whose dock is taken as one that is not among the session docks. -/
theorem meets_CrewWorksInTheSession_stands :
    let v := { visit with docks := [(0, Mark.reserved), (1, .reserved)] }
    (working 0).ready ∧ standsIn (working 0) v 0 ∧ ¬ standsIn (working 1) v 0 ∧ canGiveUp (working 1) v 1 ∧ ¬ canGiveUp (working 1) v 0 :=
  have h0 : ¬ standsIn (working 1) { visit with docks := [(0, Mark.reserved), (1, .reserved)] } 0 := by
    rintro ⟨⟨_, h, _⟩, _⟩; cases h
  ⟨by decide, ⟨⟨reservation, rfl, rfl, rfl, by decide⟩, by decide⟩, h0,
    ⟨by decide, ⟨⟨{ reservation with dock := 1 }, rfl, rfl, rfl, by decide⟩, by decide⟩, ⟨_, rfl, rfl⟩, by decide, by
      intro o card h; cases h⟩, fun h => h0 h.2.1⟩

/-- The other conditions of such a move, and a session dock marked BOOKED. -/
theorem meets_CrewWorksInTheSession_moves :
    (working 1).order.session.any (fun v => v.docks.find? (fun p => p.1 == 0) == some (0, .reserved))
      ∧ (working 1).supply.power ≠ .reserve ∧ (working 1).claimOn 0 = none ∧ (working 1).dock? 0 = some full
      ∧ (working 1).level 0 ≠ .closed ∧ full.matchesClass .any = true
      ∧ ({ visit with docks := [(0, Mark.booked)] } : VanSession).docks.find? (fun p => p.1 == 0) = some (0, .booked) := by
  decide +kernel

/-- The last bike delivered, with a session dock outstanding and a crew window, and with none. -/
theorem meets_SessionCountsItsBikes_delivered : ∀ docks ∈ [[], [(0, Mark.reserved)]],
    let o : Order := { order3 .deliver .active with done := 1 }
    let v := { visit with docks := docks, awaiting := 1, windows := [1] }
    let s : State := { demo with order := { queue := [o], session := some v } }
    s.ready ∧ s.ordersKept ∧ s.orderOf 3 = some o ∧ v.state = .opened ∧ o.done + 1 = o.quantity := by decide +kernel

/-- The last bike, with another dock outstanding and without; a dock that carries a claim of the order again, and one that carries
none. -/
theorem meets_SessionCountsItsBikes_done :
    (let o : Order := { order3 .collect .active with done := 1 }
     o.done + 1 = o.quantity
       ∧ (let v := { visit with docks := [(0, .booked), (1, .reserved)] }
          v.marked 0 ≠ none ∧ ∃ p ∈ v.docks, p.1 ≠ 0)
       ∧ (let v := { visit with docks := [(0, .booked)] }
          let s : State := { demo with order := { queue := [o], session := some v } }
          s.ready ∧ s.ordersKept ∧ s.orderOf 3 = some o ∧ v.marked 0 ≠ none ∧ ∀ p ∈ v.docks, p.1 = 0))
    ∧ reservation.kind = .van ∧ reservation.order = some 3 ∧ reservation.state ≠ .orphan
    ∧ (holding reservation).claimOn 0 = some reservation ∧ demo.claimOn 0 = none := by decide +kernel

theorem meets_SessionCountsItsBikes_counts : countsAt (holding reservation) 0 3 ∧ ¬ countsAt demo 0 3 :=
  ⟨⟨reservation, rfl, rfl, rfl, by decide⟩, by rintro ⟨_, h, _⟩; cases h⟩

theorem meets_SessionCountsItsBikes :
    (let v := { visit with docks := [(0, .booked)] }
     let s := visited .collect v demo
     s.ready ∧ s.ordersKept ∧ s.orderOf v.order = some (order3 .collect .active) ∧ v.marked 0 ≠ none
         ∧ v.marked 1 = none ∧ 0 + 1 < 2
       ∧ v.docks.length ≤ 2 - 0 - v.awaiting ∧ s.inFlight = [] ∧ (v.docks.filter fun p => p.1 == 0).length = 1)
    ∧ (let s := visited .collect visit demo
       s.ordersKept ∧ visit.docks = [] ∧ visit.windows = [] ∧ visit.idleDeadline = some 0 ∧ 0 ≤ s.now
         ∧ ({ visit with idleDeadline := some 1 } : VanSession).idleDeadline = some 1 ∧ s.now < 1) := by decide +kernel

theorem meets_FaultsAreRaisedAndResolved :
    let x : FaultRecord := ⟨.dock 0, .sensor, 0, true, 0, true, 255, .active, .acked, none, .mains⟩
    let s : State := { demo with fault := { table := [x] } }
    let tight : State := { s with store := { s.store with layout := { s.store.layout with faultBase := 4095 } } }
    s.ready ∧ s.dock? 0 = some full ∧ (FaultSubject.dock 0).fits .sensor = true ∧ s.faultOf (.dock 0) .sensor = some x
      ∧ full.bike.map (·.id) = some 11 ∧ (FaultSubject.bike 11).fits .riderReport = true
      ∧ s.faultOf (.bike 11) .riderReport = none ∧ s.faultOf (.terminal .t0) .lineFailed = none
      ∧ s.faultOf (.dock 0) .chatter = none ∧ s.fault.table.length < s.faultRoom
          ∧ tight.faultRoom ≤ tight.fault.table.length := by
  decide +kernel

theorem meets_HoldsFollowTheBike :
    let r : DockRecord := { full with dockHolds := { lockJam := true } }
    let s : State := { holding (hire .jammedOpen) with dock := { demo.dock with table := [r, vacant] } }
    s.ready ∧ s.dock? 0 = some r ∧ stands s (hire .jammedOpen) ∧ r.dockHolds.lockJam = true ∧ r.bike.map (·.id) = some 11 := by
  decide +kernel

theorem meets_FaultRequestsAreAnswered :
    let x : FaultRecord := ⟨.dock 0, .sensor, 0, true, 0, true, 0, .active, .new, none, .mains⟩
    let r : DockRecord := { full with dockHolds := { sensor := true }, link := .lost }
    let s : State := { holding (hire .orphan) with dock := { demo.dock with table := [r, vacant] }, fault := { table := [x] } }
    s.ready ∧ Operands.faultList [1, 0, 0, 16] = .ok (true, 0, 16)
      ∧ Operands.faultName s (Coding.subject (.dock 0) ++ [byteOf (Code.faultKind .sensor)]) = .ok (.dock 0, .sensor)
      ∧ Operands.faultName s (Coding.subject (.dock 0) ++ [byteOf (Code.faultKind .linkLoss)]) = .ok (.dock 0, .linkLoss)
      ∧ s.faultOf (.dock 0) .sensor = some x ∧ s.faultOf (.dock 0) .linkLoss = none ∧ s.dock? 0 = some r
          ∧ r.dockHolds.has .sensor = true
      ∧ full.dockHolds.has .sensor = false ∧ full.link ≠ .lost ∧ stands s (hire .orphan) := by decide +kernel

/-- RIDER_REPORT held at the bike's dock, recorded only, and neither; a kind that is refused; LINK_LOSS without an ORPHAN claim. -/
theorem meets_FaultRequestsAreAnswered_more :
    let x : FaultRecord := ⟨.bike 11, .riderReport, 0, true, 0, true, 0, .active, .acked, none, .mains⟩
    let l : FaultRecord := ⟨.dock 0, .linkLoss, 0, true, 0, true, 0, .active, .new, none, .mains⟩
    let r : DockRecord := { full with bikeHolds := { riderReport := true }, link := .lost }
    let s : State := { demo with dock := { demo.dock with table := [r, vacant] }, fault := { table := [l] } }
    s.ready ∧ bikesKept s ∧ r.bike.map (·.id) = some 11 ∧ s.faultOf (.bike 11) .riderReport = none
      ∧ Operands.faultName s (Coding.subject (.bike 11) ++ [byteOf (Code.faultKind .riderReport)]) = .ok (.bike 11, .riderReport)
      ∧ ({ s with fault := { table := [x] } } : State).faultOf (.bike 11) .riderReport = some x
      ∧ Operands.faultName s (Coding.subject (.dock 0) ++ [byteOf (Code.faultKind .tagUnread)]) = .ok (.dock 0, .tagUnread)
      ∧ s.faultOf (.dock 0) .linkLoss = some l ∧ s.claimOn 0 = none ∧ demo.faultOf (.dock 0) .linkLoss = none := by
  unfold bikesKept; decide +kernel

theorem meets_LinesComeAndGo :
    (demo.ready ∧ (demo.terminal .t0).line = .down ∧ (demo.terminal .t0).session.allocating = false
        ∧ (demo.terminal .t0).badCount < 3)
    ∧ (((atT0 {} demo).terminal .t0).line = .up ∧ ((atT0 {} demo).terminal .t0).session.state = .idle)
    ∧ ((atT0 { state := .choosing } demo).terminal .t0).session.state ≠ .idle
    ∧ (let s : State := { demo with term := demo.term.set .t0 { badCount := 3 } }; 3 ≤ (s.terminal .t0).badCount)
    ∧ (let s : State := { demo with term := demo.term.set .t0 { line := .disabled } }
       s.ready ∧ (s.terminal .t0).line = .disabled ∧ (s.terminal .t0).session.allocating = false) := by decide +kernel

theorem meets_TerminalsFollowThePower : demo.ready ∧ (∀ x, (demo.terminal x).session.allocating = false) :=
  ⟨by decide +kernel, fun x => by cases x <;> rfl⟩

theorem meets_TerminalsFollowThePower_lines :
    let s := atT0 { state := .choosing } demo
    (s.terminal .t0).power = true ∧ (s.terminal .t0).line = .up ∧ (s.terminal .t1).power = false
      ∧ (s.terminal .t1).line ≠ .up := by decide +kernel

theorem meets_RidersUseTheTerminal_allocating :
    let s := atT0 { state := .checking, allocating := true } demo
    s.ready ∧ (s.terminal .t0).session.allocating = true := by decide +kernel

/-- A session that waits for the choice of a class. -/
def choosing : Session := { state := .choosing, card := some 5, origin := some .host, rights := some .standard, deadline := some 0 }

theorem meets_RidersUseTheTerminal :
    let s := atT0 choosing demo
    s.ready ∧ (s.terminal .t0).session = choosing ∧ (s.terminal .t0).line = .up ∧ choosing.allocating = false
      ∧ ¬ (BikeClass.standard = .electric ∧ choosing.rights = some .standard) ∧ 0 ≤ s.now
          ∧ ((atT0 {} demo).terminal .t0).session.state = .idle
      ∧ ((atT0 { state := .offered } demo).terminal .t0).session.state = .offered := by decide +kernel

theorem meets_SessionsAreTold :
    (let x : Session := { state := .checking, card := some 5 }
     let s := atT0 x demo
     s.ready ∧ (s.terminal .t0).session = x ∧ (s.terminal .t0).line = .up ∧ x.allocating = false ∧ x.attempt = 0
       ∧ s.classAvailable .standard = true ∧ s.classAvailable .electric = false)
    ∧ (let x : Session := { state := .offered, claimDock := some 0, cls := some .standard, card := some 5, origin := some .host, deadline := some 0 }
       let s := atT0 x demo
       (s.terminal .t0).session = x ∧ x.reallocated = false ∧ 0 ≤ s.now
           ∧ ({ x with reallocated := true } : Session).reallocated = true) := by
  decide +kernel

/-- The invariants are met by the machine after reset, whose first step polls dock 0. -/
theorem meets_invariants : State.reset.cardsKept ∧ State.reset.queriesKept ∧ State.reset.faultsKept ∧ State.reset.ordersKept
    ∧ State.reset.claimsKept ∧ State.reset.hostBounded ∧ ∃ t, step State.reset = .next t :=
  ⟨by unfold State.cardsKept; decide +kernel, by decide +kernel, by unfold State.faultsKept; decide +kernel, by decide +kernel,
    by decide +kernel, by unfold State.hostBounded; decide +kernel, _, rfl⟩

end Sys2Proof.Tests
end

section
/-! Proofs. The journal's numbering (R116) and the positions of a number (R127): a number's steps to the next number are counted
in `Nat`, where the numbering 1 to 4294967295 is a cycle of residues. -/

namespace Sys2Proof.Machine

/-! ### Steps along the numbering -/

theorem seqNo_toNat_bounds {x : SeqNo} (hx : x ≠ 0) : 1 ≤ x.toNat ∧ x.toNat ≤ 4294967295 := by
  have hpos : x.toNat ≠ 0 := fun h => hx (BitVec.eq_of_toNat_eq h)
  have hlt : x.toNat < 2 ^ 32 := x.isLt
  omega

theorem seqAfter_toNat {x : SeqNo} (hx : x ≠ 0) : (seqAfter x).toNat = x.toNat % 4294967295 + 1 := by
  obtain ⟨hpos, hle⟩ := seqNo_toNat_bounds hx
  unfold seqAfter
  split
  case isTrue hwrap => subst hwrap; rfl
  case isFalse hwrap =>
    have hne : x.toNat ≠ 4294967295 := fun h => hwrap (BitVec.eq_of_toNat_eq h)
    have hadd : (x + 1).toNat = (x.toNat + 1) % 2 ^ 32 := BitVec.toNat_add x 1
    omega

theorem seqAfter_ne_zero {x : SeqNo} (hx : x ≠ 0) : seqAfter x ≠ 0 := by
  intro h
  have hstep := seqAfter_toNat hx
  rw [h] at hstep
  exact absurd hstep (Nat.succ_ne_zero _).symm

/-- Along the numbering `k` steps add `k` to the place of a number on the cycle, 1 being at place 0. -/
theorem seqAfter_iterate_toNat (k : Nat) {x : SeqNo} (hx : x ≠ 0) :
    (seqAfter^[k] x).toNat = (x.toNat - 1 + k) % 4294967295 + 1 := by
  induction k generalizing x with
  | zero =>
    obtain ⟨hpos, hle⟩ := seqNo_toNat_bounds hx
    rw [Function.iterate_zero_apply]
    omega
  | succ k ih =>
    obtain ⟨hpos, hle⟩ := seqNo_toNat_bounds hx
    rw [Function.iterate_succ_apply, ih (seqAfter_ne_zero hx), seqAfter_toNat hx]
    omega

/-! ### The distance behind the next number -/

theorem distanceBehind_le {n x : SeqNo} (hn : n ≠ 0) (hx : x ≠ 0) : distanceBehind n x ≤ 4294967294 := by
  obtain ⟨hnpos, hnle⟩ := seqNo_toNat_bounds hn
  obtain ⟨hxpos, hxle⟩ := seqNo_toNat_bounds hx
  unfold distanceBehind
  split <;> omega

theorem seqAfter_iterate_distanceBehind {n x : SeqNo} (hn : n ≠ 0) (hx : x ≠ 0) :
    seqAfter^[distanceBehind n x] x = n := by
  obtain ⟨hnpos, hnle⟩ := seqNo_toNat_bounds hn
  obtain ⟨hxpos, hxle⟩ := seqNo_toNat_bounds hx
  apply BitVec.eq_of_toNat_eq
  rw [seqAfter_iterate_toNat _ hx]
  unfold distanceBehind
  split <;> omega

/-- Fewer steps than the whole cycle reach a number in one way only. -/
theorem steps_unique {x : SeqNo} {j k : Nat} (hx : x ≠ 0) (hj : j ≤ 4294967294) (hk : k ≤ 4294967294)
    (h : seqAfter^[j] x = seqAfter^[k] x) : j = k := by
  have hplace := congrArg BitVec.toNat h
  rw [seqAfter_iterate_toNat j hx, seqAfter_iterate_toNat k hx] at hplace
  have hmod : j ≡ k [MOD 4294967295] := Nat.ModEq.add_left_cancel' (x.toNat - 1) (Nat.succ.inj hplace)
  exact Nat.ModEq.eq_of_lt_of_lt hmod (by omega) (by omega)

theorem distanceBehind_of_iterate {n x : SeqNo} {k : Nat} (hn : n ≠ 0) (hx : x ≠ 0) (hk : k ≤ 4294967294)
    (h : seqAfter^[k] x = n) : distanceBehind n x = k :=
  steps_unique hx (distanceBehind_le hn hx) hk ((seqAfter_iterate_distanceBehind hn hx).trans h.symm)

/-! ### The entries held -/

theorem consecutive_tail {e : Entry} {rest : List Entry} {next : SeqNo} (h : Consecutive (e :: rest) next) :
    Consecutive rest next := by
  cases rest with
  | nil => trivial
  | cons f rest =>
    obtain ⟨-, hrest⟩ := h
    exact hrest

theorem seqAfter_iterate_oldest {e : Entry} {rest : List Entry} {next : SeqNo} (h : Consecutive (e :: rest) next) :
    seqAfter^[(e :: rest).length] e.seq = next := by
  induction rest generalizing e with
  | nil => exact h
  | cons f rest ih =>
    obtain ⟨hstep, hrest⟩ := h
    rw [List.length_cons, Function.iterate_succ_apply, hstep]
    exact ih hrest

/-- R127: the oldest entry lies as many steps behind the next number as entries are held, the newest one step. -/
theorem seqAfter_iterate_entry {entries : List Entry} {next : SeqNo} {i : Nat} {e : Entry} (h : Consecutive entries next)
    (hi : entries[i]? = some e) : seqAfter^[entries.length - i] e.seq = next := by
  induction entries generalizing i with
  | nil => simp at hi
  | cons f rest ih =>
    cases i with
    | zero =>
      obtain rfl : f = e := by simpa using hi
      exact seqAfter_iterate_oldest h
    | succ i =>
      rw [List.length_cons, Nat.add_sub_add_right]
      exact ih (consecutive_tail h) (by simpa using hi)

/-! ### The position of a number -/

/-- The table of R127, at the number of steps from `x` to the next number. -/
theorem position_of_iterate {s : State} {x : SeqNo} {k : Nat} (hn : s.store.nextSeq ≠ 0) (hx : x ≠ 0) (hk : k ≤ 4294967294)
    (h : seqAfter^[k] x = s.store.nextSeq) :
    s.position x =
      if k = 0 then .next
      else if k ≤ s.journal.entries.length then .held
      else if k ≤ 2147483647 then .released
      else .ahead := by
  simp only [State.position, distanceBehind_of_iterate hn hx hk h, Journal.used]

/-- Settles O39: the distance behind the next number is the one count of steps below a whole cycle that leads to it, and the
entries held are counted off along the journal. -/
theorem positionsLieBehindTheNextNumber : Obligations.PositionsLieBehindTheNextNumber := by
  intro s hn
  refine ⟨fun x hx => ?reached, fun x k hx hk h => position_of_iterate hn hx hk h, fun hnum i e hi => ?entries⟩
  case reached => exact ⟨distanceBehind s.store.nextSeq x, distanceBehind_le hn hx, seqAfter_iterate_distanceBehind hn hx⟩
  case entries =>
    obtain ⟨-, -, hcons⟩ := hnum
    exact seqAfter_iterate_entry hcons hi

end Sys2Proof.Machine
end

section
/-! Proofs. The host's requests about notices and STATUS (R195, R196): what the body of NOTICE_MASK gives, and the one state each
request leaves. -/

namespace Sys2Proof.Machine

/-- A request that is answered last, on a link whose sending has begun: the reply joins the outgoing order as it is. -/
theorem request_answered {α : Type} {i : Instr} {k : Nat} {tag : Byte} {s u : State} {x : Except ReplyCode α} {a : α}
    {f : α → State → State} {code : ReplyCode} {p : Payload} (h : s.ready) (hx : x = .ok a)
    (hf : f a (s.taking i) = u.reply k tag code p) (hu : u.host.begun = true) :
    request i k tag s x f = .next (u.reply k tag code p) := by
  obtain ⟨hrun, -⟩ := h
  rw [request_ok hrun hx, hf, reply_begun hu]

/-! ### NOTICE_MASK -/

theorem exec_noticeMask (tag : Byte) (body : List Byte) (s : State) :
    exec (.noticeMask tag body) s = execNoticeMask tag body s := by
  rfl

theorem operands_noticeMask_bytesHalf (m : Half) :
    Operands.noticeMask (bytesHalf m) = if m &&& 0xF000 = 0 then .ok m else .error .badField := by
  unfold Operands.noticeMask Operands.fixed Operands.demand
  rw [if_pos (bytesHalf_length m)]
  beta_reduce
  rw [halfAt_bytesHalf']
  by_cases hm : m &&& 0xF000 = 0
  · rw [if_pos hm, if_pos (beq_iff_eq.mpr hm)]
    rfl
  · rw [if_neg hm, if_neg (mt beq_iff_eq.mp hm)]
    rfl

theorem exec_noticeMask_of_clear {s : State} {tag : Byte} {m : Half} (h : s.ready) (hm : m &&& 0xF000 = 0) :
    exec (.noticeMask tag (bytesHalf m)) s = .next
      (((s.taking (.noticeMask tag (bytesHalf m))).onHost fun x => { x with noticeMask := m }).reply 0x02 tag .ok (.mask m)) := by
  have hbody : Operands.noticeMask (bytesHalf m) = .ok m := by rw [operands_noticeMask_bytesHalf, if_pos hm]
  rw [exec_noticeMask]
  exact request_answered h hbody rfl h.2

theorem exec_noticeMask_of_reserved {s : State} {tag : Byte} {m : Half} (h : s.ready) (hm : m &&& 0xF000 ≠ 0) :
    exec (.noticeMask tag (bytesHalf m)) s = .next
      ((s.taking (.noticeMask tag (bytesHalf m))).reply 0x02 tag .badField) := by
  have hbody : Operands.noticeMask (bytesHalf m) = .error .badField := by rw [operands_noticeMask_bytesHalf, if_neg hm]
  rw [exec_noticeMask]
  exact request_error h hbody

/-- Settles O9: the body is the mask's two bytes, so bits 12 to 15 alone decide between the answer and the refusal; a kind that
joins afterwards meets the new mask. -/
theorem noticeMaskSets : Obligations.NoticeMaskSets := by
  intro s tag m hready
  refine ⟨fun hclear => ⟨_, exec_noticeMask_of_clear hready hclear, ?state, fun k hk => ?due⟩, fun hreserved => ?refused⟩
  case state => rfl
  case due => exact join_notice hk
  case refused => exact exec_noticeMask_of_reserved hready hreserved

/-! ### STATUS -/

theorem exec_status (tag : Byte) (body : List Byte) (s : State) : exec (.status tag body) s = execStatus tag body s := by
  rfl

/-- No value STATUS lists is of the work in flight (R196). -/
@[simp] theorem taking_statusReply (s : State) (i : Instr) : (s.taking i).statusReply = s.statusReply := by
  rfl

theorem exec_status_nil {s : State} {tag : Byte} (h : s.ready) :
    exec (.status tag []) s = .next
      (((s.taking (.status tag [])).onHost fun x => { x with noticeSet := 0 }).reply 0x01 tag .ok
        (.status (s.taking (.status tag [])).statusReply)) := by
  have hbody : Operands.empty [] = .ok () := rfl
  rw [exec_status]
  exact request_answered h hbody rfl h.2

/-- Settles O10: the values reported are read from the state before the notice set is emptied, and taking the request from the
work in flight alters none of them. -/
theorem statusReportsAndEmpties : Obligations.StatusReportsAndEmpties := by
  intro s tag hready
  rw [exec_status_nil hready, taking_statusReply]
  rfl

end Sys2Proof.Machine
end

section
/-! Proofs. How a property of the state is shown to be kept by every step: what the queue, an act, a request and a reset ask of it. -/

namespace Sys2Proof.Machine

/-- The property reads no part outside `ps`. -/
def ReadsOnly (ps : List Part) (P : State → Prop) : Prop := ∀ s t, (∀ p ∈ ps, SamePart p s t) → P s → P t

theorem ReadsOnly.of_only {ps w : List Part} {P : State → Prop} {s t : State} (hP : ReadsOnly ps P) (h : Only w s t)
    (hw : ∀ p ∈ ps, p ∉ w) (hs : P s) : P t :=
  hP s t (fun p hp => h p (hw p hp)) hs

/-- What a command answers keeps the property. -/
def Keeps (P : State → Prop) (e : State → Host.Outcome State Fault Refusal) : Prop := ∀ s t, e s = .next t → P s → P t

/-- A command keeps a property of parts that it does not change. -/
theorem ReadsOnly.exec {ps : List Part} {P : State → Prop} {c : Instr} (hP : ReadsOnly ps P) (hc : ∀ p ∈ ps, p ∉ parts c) :
    Keeps P (exec c) :=
  fun s t h => hP.of_only (exec_only c s t h) hc

/-- What every act does beside its effect keeps the property: taking the arrival, and beginning to send. -/
structure ActKept (P : State → Prop) : Prop where
  taking : ∀ s i, P s → P (s.taking i)
  sending : ∀ s, P s → P (s.onHost HostLink.beginSending)

theorem ActKept.act {P : State → Prop} (k : ActKept P) {i : Instr} {f : State → State} (hf : ∀ u, P u → P (f u)) :
    Keeps P fun s => act i s f := by
  intro s t h hs
  simp only [Machine.act, Host.Outcome.next.injEq] at h
  subst h
  split
  case isTrue => exact k.sending _ (hf _ (k.taking _ _ hs))
  case isFalse => exact hs

theorem ActKept.request {P : State → Prop} (k : ActKept P) (hreply : ∀ u n tag code, P u → P (u.reply n tag code))
    {α : Type} {i : Instr} {n : Nat} {tag : Byte} {x : Except ReplyCode α} {f : α → State → State}
    (hf : ∀ a u, x = .ok a → P u → P (f a u)) : Keeps P fun s => request i n tag s x f := by
  refine k.act fun u hu => ?_
  cases hx : x with
  | error code => exact hreply u n tag code hu
  | ok a => exact hf a u hx hu

/-- A command that answers the state `f s`. -/
theorem keeps_next {P : State → Prop} {f : State → State} (hf : ∀ u, P u → P (f u)) : Keeps P fun s => .next (f s) :=
  fun s _ h hs => next_inj h ▸ hf s hs

/-- A property that does not read the queue is kept by every step when every command keeps it. -/
theorem keptByStep_of_exec {P : State → Prop} (hq : ∀ s l, P s → P { s with pending := l }) (he : ∀ c, Keeps P (exec c)) :
    keptByStep P := by
  intro s t hs h
  unfold step at h
  split at h
  case h_1 c rest _ => exact he c _ t h (hq s rest hs)
  case h_2 =>
    split at h
    case h_1 c _ => exact he c s t h hs
    case h_2 => exact next_inj h ▸ hs

end Sys2Proof.Machine
end

section
/-! Proofs. The journal's numbering (R116) is kept by every step: only an entry written, a release and a reset touch it. -/

namespace Sys2Proof.Machine

/-! ### What leaves the numbering alone -/

theorem numbered_congr {s t : State} (he : t.journal.entries = s.journal.entries) (hn : t.store.nextSeq = s.store.nextSeq) :
    t.numbered ↔ s.numbered := by
  unfold State.numbered
  rw [he, hn]

theorem numbered_readsOnly : ReadsOnly [.journal, .store] State.numbered := by
  intro s t h hs
  have hj : t.journal = s.journal := h .journal (by decide)
  have hst : t.store = s.store := h .store (by decide)
  exact (numbered_congr (by rw [hj]) (by rw [hst])).mpr hs

theorem numbered_of_only {w : List Part} {s t : State} (h : Only w s t) (hw : ∀ p ∈ [Part.journal, .store], p ∉ w)
    (hs : s.numbered) : t.numbered :=
  numbered_readsOnly.of_only h hw hs

theorem numbered_actKept : ActKept State.numbered := ⟨fun _ _ h => h, fun _ h => h⟩

theorem numbered_reply {s : State} (n : Nat) (tag : Byte) (code : ReplyCode) (p : Payload) (hs : s.numbered) :
    (s.reply n tag code p).numbered :=
  hs

theorem numbered_post {s : State} (i : Instr) (hs : s.numbered) : (s.post i).numbered := hs

theorem numbered_act {i : Instr} {f : State → State} (hf : ∀ u, u.numbered → (f u).numbered) :
    Keeps State.numbered fun s => act i s f :=
  numbered_actKept.act hf

theorem numbered_request {α : Type} {i : Instr} {n : Nat} {tag : Byte} {x : Except ReplyCode α} {f : α → State → State}
    (hf : ∀ a u, u.numbered → (f a u).numbered) : Keeps State.numbered fun s => request i n tag s x f :=
  numbered_actKept.request (fun _ _ _ _ => numbered_reply _ _ _ _) fun a u _ => hf a u

/-! ### Admissions and notices -/

theorem numbered_admitDock {s : State} (d : DockNo) (hs : s.numbered) : (s.admitDock d).numbered := by
  unfold State.admitDock
  dsimp only
  split
  case isTrue => unfold State.postPass State.postIf; split <;> exact hs
  case isFalse => exact hs

theorem numbered_admitUpTo (n : Nat) {s : State} (hs : s.numbered) : (s.admitUpTo n).numbered := by
  induction n generalizing s with
  | zero => exact hs
  | succ n ih =>
    unfold State.admitUpTo
    split
    case h_1 => exact hs
    case h_2 d _ =>
      split
      case isTrue => exact ih (numbered_admitDock d hs)
      case isFalse => exact hs

theorem numbered_admitWithheld {s : State} (hs : s.numbered) : s.admitWithheld.numbered := numbered_admitUpTo _ hs

theorem numbered_journalArrival {s : State} {f : State → State} (hs : (f s).numbered) : (s.journalArrival f).numbered := by
  unfold State.journalArrival
  dsimp only
  repeat' split
  all_goals exact numbered_admitWithheld hs

/-! ### Entries -/

theorem consecutive_append {l : List Entry} {e : Entry} (h : Consecutive l e.seq) : Consecutive (l ++ [e]) (seqAfter e.seq) := by
  induction l with
  | nil => rfl
  | cons f rest ih =>
    cases rest with
    | nil => exact ⟨h, rfl⟩
    | cons g rest =>
      obtain ⟨hstep, hrest⟩ := h
      exact ⟨hstep, ih hrest⟩

theorem consecutive_drop (k : Nat) {l : List Entry} {n : SeqNo} (h : Consecutive l n) : Consecutive (l.drop k) n := by
  induction k generalizing l with
  | zero => exact h
  | succ k ih =>
    cases l with
    | nil => trivial
    | cons e rest => exact ih (consecutive_tail h)

/-- R116: an entry takes the next number, and the next number moves one on. -/
theorem numbered_appendEntry {s : State} (e : Entry) (hs : s.numbered) : (s.appendEntry e).numbered := by
  obtain ⟨hnext, hentries, hcons⟩ := hs
  refine ⟨seqAfter_ne_zero hnext, fun x hx => ?_, consecutive_append hcons⟩
  rcases List.mem_append.mp hx with hold | hnew
  · exact hentries x hold
  · rw [List.mem_singleton.mp hnew]
    exact hnext

/-- R129: the oldest entries may leave. -/
theorem numbered_drop {s : State} (k : Nat) (hs : s.numbered) :
    (s.onJournal fun j => { j with entries := j.entries.drop k }).numbered := by
  obtain ⟨hnext, hentries, hcons⟩ := hs
  exact ⟨hnext, fun e he => hentries e (List.mem_of_mem_drop he), consecutive_drop k hcons⟩

theorem numbered_writeReturn {s : State} (d : DockNo) (b : Option BikeId) (late : Bool) (crew : Option OrderId) (hs : s.numbered) :
    (s.writeReturn d b late crew).numbered := by
  unfold State.writeReturn
  have hs0 : (s.onAccount d fun a => { a with owed := false }).numbered := hs
  dsimp only
  split
  case h_1 => unfold State.postIf; split <;> exact numbered_appendEntry _ hs0
  case h_2 => exact numbered_appendEntry _ hs0
  case h_3 => exact numbered_appendEntry _ hs0

theorem numbered_writeRequested {s : State} (q : EntryRequest) (hs : s.numbered) : (s.writeRequested q).numbered := by
  cases q with
  | pendingReturn d b late crew => exact numbered_writeReturn d b late crew hs
  | claimEnding => exact numbered_appendEntry (s := s.onAccount _ _) _ hs
  | orderClosed => exact numbered_appendEntry (s := s.onJournal _) _ hs

theorem numbered_writeEntry {s : State} (q : EntryRequest) (hs : s.numbered) : (s.writeEntry q).numbered :=
  numbered_journalArrival (numbered_writeRequested q hs)

/-! ### The van session, and the ending of a claim -/

theorem numbered_closeSession {s : State} (v : VanSession) (hs : s.numbered) : (s.closeSession v).numbered := by
  unfold State.closeSession
  split
  case h_1 => exact hs
  case h_2 => exact numbered_writeEntry _ hs

theorem numbered_testComplete {s : State} (hs : s.numbered) : s.testComplete.numbered := by
  unfold State.testComplete
  repeat' split
  case h_2.isTrue => exact numbered_closeSession _ hs
  all_goals exact hs

theorem numbered_withdrawWindows (l : List DockNo) {s : State} (hs : s.numbered) :
    (l.foldl (fun s d => s.onDock d fun r => { r with crewWindow := none }) s).numbered := by
  induction l generalizing s with
  | nil => exact hs
  | cons d l ih => exact ih hs

theorem numbered_enterClosing {s : State} (cause : CloseCause) (hs : s.numbered) : (s.enterClosing cause).numbered := by
  unfold State.enterClosing
  repeat' split
  case h_2.isTrue => exact numbered_testComplete (numbered_withdrawWindows _ hs)
  all_goals exact hs

theorem numbered_holdToTarget {s : State} (hs : s.numbered) : s.holdToTarget.numbered := by
  unfold State.holdToTarget
  repeat' split
  all_goals exact hs

theorem numbered_postPass {s : State} (hs : s.numbered) : s.postPass.numbered := by
  unfold State.postPass State.postIf
  split <;> exact hs

theorem numbered_leaveDock {s : State} (d : DockNo) (o : OrderId) (hs : s.numbered) : (s.leaveDock d o).numbered := by
  unfold State.leaveDock
  split <;> exact hs

theorem numbered_afterDone {s : State} (id : OrderId) (hs : s.numbered) : (s.afterDone id).numbered := by
  unfold State.afterDone
  split
  case isTrue => exact numbered_enterClosing _ hs
  case isFalse => exact numbered_holdToTarget hs

theorem numbered_cancelSession {s : State} (hs : s.numbered) : s.cancelSession.numbered := by
  unfold State.cancelSession
  split
  case isTrue => exact numbered_enterClosing _ hs
  case isFalse => exact hs

/-- What the other blocks do at a dock, a place, a claim or a terminal leaves the log alone. -/
theorem numbered_elsewhere {s t : State}
    (h : Only [.phase, .now, .pending, .inFlight, .straps, .resetLow, .host, .dock, .card, .release, .term, .order, .fault, .supply] s t)
    (hs : s.numbered) : t.numbered :=
  numbered_of_only h (by decide) hs

theorem numbered_openTap {s : State} (v : VanSession) (card : CardId) (place : Place) (hs : s.numbered) :
    (s.openTap v card place).numbered := by
  cases place with
  | terminal t attempt => exact numbered_enterClosing _ hs
  | reader d => exact numbered_elsewhere (by unfold State.openTap; dsimp only; (repeat' split) <;> simp) hs

theorem numbered_openSession {s : State} (card : CardId) (place : Place) (o : Order) (hs : s.numbered) :
    (s.openSession card place o).numbered :=
  have booked : (s.journalArrival (·.onJournal fun j => { j with vanBooked := true })).numbered := numbered_journalArrival hs
  numbered_elsewhere (by unfold State.openSession; simp) booked

theorem numbered_take {s : State} (c : Claim) (bike : Option BikeId) (late reset : Bool) (hs : s.numbered) :
    (s.take c bike late reset).numbered :=
  have written : (s.writeEntry (.claimEnding c.dock c.kind bike c.holder c.reference c.offline late reset)).numbered :=
    numbered_writeEntry _ hs
  numbered_elsewhere (by unfold State.take; dsimp only; (repeat' split) <;> simp) written

/-! ### Settings, samples and resets -/

theorem numbered_switchIfDue {s : State} (hs : s.numbered) : s.switchIfDue.numbered := by
  unfold State.switchIfDue
  repeat' split
  case h_1 p _ =>
    have live : (s.onStore fun st => { st with live := p.settings, pendingSet := none }).numbered := hs
    exact numbered_elsewhere (by unfold State.switchSettings; dsimp only; (repeat' split) <;> simp) live
  all_goals exact hs

theorem numbered_tick {s : State} (hs : s.numbered) : s.tick.numbered := hs

theorem numbered_takeSample {s : State} (mains : Bool) (level : Byte) (hs : s.numbered) : (s.takeSample mains level).numbered :=
  numbered_elsewhere (by unfold State.takeSample; dsimp only; split <;> simp) (numbered_tick hs)

/-- R130, R153: a warm start writes at most the closing entry of a van session. -/
theorem numbered_closeForRestart {s : State} (hs : s.numbered) : s.closeForRestart.numbered := by
  unfold State.closeForRestart
  split
  case h_1 => exact hs
  case h_2 =>
    split
    case h_1 => exact hs
    case h_2 => exact numbered_writeRequested _ hs

theorem numbered_warmStart {s : State} (cause : ResetCause) (hs : s.numbered) : (s.warmStart cause).numbered := by
  have closed : (s.warmBlocks cause).closeForRestart.numbered := numbered_closeForRestart hs
  have retaken : (s.warmBlocks cause).closeForRestart.resolveLines.retakeDocks.numbered :=
    numbered_elsewhere ((resolveLines_only _).mono (by simp) |>.trans ((retakeDocks_only _).mono (by simp))) closed
  exact numbered_admitWithheld (s := (s.warmBlocks cause).closeForRestart.resolveLines.retakeDocks.recountJournal) retaken

theorem numbered_coldStart (s : State) (cause : ResetCause) : (s.coldStart cause).numbered :=
  ⟨(by decide : (1 : SeqNo) ≠ 0), fun _ h => absurd h List.not_mem_nil, trivial⟩

theorem numbered_restart {s : State} (cause : ResetCause) (hs : s.numbered) : (s.restart cause).numbered := by
  unfold State.restart
  split
  case isTrue => exact numbered_warmStart cause hs
  case isFalse => exact numbered_coldStart s cause

theorem numbered_restartUnlessHeld {s : State} (cause : ResetCause) (hs : s.numbered) : (s.restartUnlessHeld cause).numbered := by
  unfold State.restartUnlessHeld
  dsimp only
  split <;> exact numbered_restart cause hs

/-- R184: a layout is put in force only over an empty journal. -/
theorem numbered_rebuilt {s : State} (l : Layout) (hs : s.numbered) : (s.rebuilt l).numbered := by
  obtain ⟨hnext, -, -⟩ := hs
  exact ⟨hnext, fun _ h => absurd h List.not_mem_nil, trivial⟩

theorem numbered_dropQueries {s : State} (hs : s.numbered) : s.dropQueries.numbered :=
  numbered_elsewhere (by simp) hs

/-! ### The commands -/

theorem execTimeSet_numbered (tag : Byte) (body : List Byte) : Keeps State.numbered (execTimeSet tag body) :=
  numbered_request fun _ u hu => numbered_switchIfDue (s := u.onStore _) hu

theorem execSettingsStage_numbered (tag : Byte) (body : List Byte) : Keeps State.numbered (execSettingsStage tag body) :=
  numbered_request fun _ u hu => numbered_switchIfDue (s := u.onStore _) hu

theorem execSettingsDrop_numbered (tag : Byte) (body : List Byte) : Keeps State.numbered (execSettingsDrop tag body) :=
  numbered_request fun _ u hu => by split <;> exact hu

theorem execServiceStart_numbered (tag : Byte) (body : List Byte) : Keeps State.numbered (execServiceStart tag body) :=
  numbered_request fun _ u hu => by split <;> exact hu

theorem execServiceStop_numbered (tag : Byte) (body : List Byte) : Keeps State.numbered (execServiceStop tag body) :=
  numbered_request fun _ u hu => by (repeat' split) <;> exact hu

theorem execLayoutSet_numbered (tag : Byte) (body : List Byte) : Keeps State.numbered (execLayoutSet tag body) := by
  refine numbered_request fun l u hu => ?_
  split
  case isTrue => exact hu
  case isFalse =>
    split
    case isTrue => exact hu
    case isFalse => exact numbered_rebuilt l (numbered_dropQueries hu)

theorem execJournalRelease_numbered (tag : Byte) (body : List Byte) : Keeps State.numbered (execJournalRelease tag body) := by
  refine numbered_request fun x u hu => ?_
  split
  case h_1 => exact hu
  case h_2 k _ => exact numbered_reply _ _ _ _ (numbered_journalArrival (numbered_drop k hu))

theorem execOrderCancel_numbered (tag : Byte) (body : List Byte) : Keeps State.numbered (execOrderCancel tag body) := by
  refine numbered_request fun id u hu => ?_
  split
  case h_1 => exact hu
  case h_2 o _ =>
    cases o.state with
    | queued => exact hu
    | active => exact numbered_cancelSession hu

theorem execClaimRemoval_numbered (d : DockNo) (bike : Option BikeId) : Keeps State.numbered (execClaimRemoval d bike) := by
  refine numbered_act fun u hu => ?_
  split
  case h_1 => exact hu
  case h_2 c _ =>
    cases c.state with
    | reserved => exact numbered_elsewhere (by simp) hu
    | releaseSent => exact numbered_elsewhere (by simp) hu
    | _ => exact numbered_take _ _ _ _ hu

theorem execBookingRequest_numbered (d : DockNo) : Keeps State.numbered (execBookingRequest d) := by
  refine numbered_act fun u hu => ?_
  split
  case h_1 => exact hu
  case h_2 =>
    split
    case isTrue => exact hu
    case isFalse => exact numbered_post _ (numbered_journalArrival (s := u) hu)

theorem execBookingGivenBack_numbered (d : DockNo) : Keeps State.numbered (execBookingGivenBack d) :=
  numbered_act fun u hu => numbered_journalArrival (s := u) hu

theorem execVanBooking_numbered (card : CardId) (place : Place) : Keeps State.numbered (execVanBooking card place) := by
  refine numbered_act fun u hu => ?_
  repeat' split
  case h_3.isTrue => exact numbered_openSession _ _ _ hu
  all_goals exact numbered_elsewhere (by simp) hu

theorem execJournalEntryWrite_numbered (q : EntryRequest) : Keeps State.numbered (execJournalEntryWrite q) :=
  numbered_act fun _ => numbered_writeEntry q

theorem execJournalWithheldNotice_numbered (d : DockNo) (joins : Bool) : Keeps State.numbered (execJournalWithheldNotice d joins) :=
  numbered_act fun u hu => numbered_journalArrival (s := u) hu

theorem execJournalCountNotice_numbered (d : DockNo) (c : CountChange) : Keeps State.numbered (execJournalCountNotice d c) :=
  numbered_act fun u hu => numbered_journalArrival (by unfold State.tellAccount; dsimp only; split <;> exact hu)

theorem execCrewTap_numbered (card : CardId) (place : Place) : Keeps State.numbered (execCrewTap card place) := by
  refine numbered_act fun u hu => ?_
  split
  case h_1 => split <;> exact numbered_elsewhere (by simp) hu
  case h_2 v _ =>
    split
    case isTrue => exact numbered_openTap v card place (s := u.restartIdle) hu
    case isFalse => exact numbered_elsewhere (by simp) hu

theorem execVanClaimNotice_numbered (d : DockNo) (o : OrderId) (news : VanNews) :
    Keeps State.numbered (execVanClaimNotice d o news) := by
  refine numbered_act fun u hu => ?_
  have left : (u.leaveDock d o).numbered := numbered_leaveDock d o hu
  split
  case h_1 => exact hu
  case h_2 =>
    split
    case isTrue => exact hu
    case isFalse =>
      refine numbered_testComplete ?_
      cases news with
      | taken => exact numbered_afterDone o (s := State.restartIdle _) left
      | lapsedOrFailed => exact numbered_postPass left
      | droppedByEvent => exact numbered_postPass left
      | droppedAtRequest => exact left
      | orphaned => exact left

theorem execCrewInsertionNotice_numbered (d : DockNo) (news : CrewInsertion) :
    Keeps State.numbered (execCrewInsertionNotice d news) := by
  refine numbered_act fun u hu => ?_
  have left : ∀ o, (u.leaveDock d o).numbered := fun o => numbered_leaveDock d o hu
  repeat' split
  case h_2.isTrue => exact numbered_testComplete (numbered_holdToTarget (s := u.onVan _) hu)
  case h_3 => exact numbered_testComplete (left _)
  case h_4.isFalse => exact numbered_testComplete (numbered_postPass (left _))
  all_goals exact hu

theorem execVanInNotice_numbered (o : OrderId) (d : DockNo) (n : SeqNo) (identified : Bool) :
    Keeps State.numbered (execVanInNotice o d n identified) := by
  refine numbered_act fun u hu => ?_
  split
  case h_1 => exact hu
  case h_2 => exact numbered_afterDone o (s := State.restartIdle _) hu

theorem execVanIdleDeadline_numbered : Keeps State.numbered execVanIdleDeadline := by
  refine numbered_act fun u hu => ?_
  split
  case isTrue => exact numbered_enterClosing _ hu
  case isFalse => exact hu

theorem numbered_sampleInReset {s : State} (mains : Bool) (level : Byte) (hs : s.numbered) :
    (s.sampleInReset mains level).numbered := by
  unfold State.sampleInReset
  dsimp only
  split
  case isTrue => exact numbered_restartUnlessHeld _ (s := s.tick.onSupply _) hs
  case isFalse => exact hs

theorem execSupplySample_numbered (mains : Bool) (level : Byte) : Keeps State.numbered (execSupplySample mains level) := by
  intro s t h hs
  unfold execSupplySample at h
  split at h
  case h_1 => exact numbered_act (fun _ => numbered_takeSample mains level) s t h hs
  case h_2 => exact next_inj h ▸ numbered_sampleInReset mains level hs
  all_goals exact next_inj h ▸ hs

theorem execRequestReset_numbered : Keeps State.numbered execRequestReset := by
  refine keeps_next fun u hu => ?_
  split
  case isTrue => exact numbered_restartUnlessHeld _ hu
  case isFalse => exact hu

theorem execResetLineRelease_numbered : Keeps State.numbered execResetLineRelease := by
  refine keeps_next fun u hu => ?_
  split
  case isTrue => exact numbered_restart _ (s := { u with resetLow := false }) hu
  case isFalse => exact hu

theorem execPowerUp_numbered : Keeps State.numbered execPowerUp := by
  refine keeps_next fun u hu => ?_
  split
  case isTrue => exact numbered_restartUnlessHeld _ hu
  case isFalse => exact hu

theorem execSupplyPinsFall_numbered (midAct : Bool) : Keeps State.numbered (execSupplyPinsFall midAct) :=
  keeps_next fun u hu => by unfold State.onStore; split <;> exact hu

theorem execBackupCellFailure_numbered : Keeps State.numbered execBackupCellFailure :=
  keeps_next fun u hu => by split <;> exact hu

theorem exec_numbered (c : Instr) : Keeps State.numbered (exec c) := by
  by_cases hc : ∀ p ∈ [Part.journal, .store], p ∉ parts c
  case pos => exact numbered_readsOnly.exec hc
  cases c
  case timeSet => exact execTimeSet_numbered _ _
  case settingsStage => exact execSettingsStage_numbered _ _
  case settingsDrop => exact execSettingsDrop_numbered _ _
  case settingsSwitch => exact numbered_act fun _ => numbered_switchIfDue
  case serviceStart => exact execServiceStart_numbered _ _
  case serviceStop => exact execServiceStop_numbered _ _
  case layoutSet => exact execLayoutSet_numbered _ _
  case journalRelease => exact execJournalRelease_numbered _ _
  case orderCancel => exact execOrderCancel_numbered _ _
  case claimRemoval => exact execClaimRemoval_numbered _ _
  case bookingRequest => exact execBookingRequest_numbered _
  case bookingGivenBack => exact execBookingGivenBack_numbered _
  case vanBooking => exact execVanBooking_numbered _ _
  case journalEntryWrite => exact execJournalEntryWrite_numbered _
  case journalWithheldNotice => exact execJournalWithheldNotice_numbered _ _
  case journalCountNotice => exact execJournalCountNotice_numbered _ _
  case crewTap => exact execCrewTap_numbered _ _
  case vanClaimNotice => exact execVanClaimNotice_numbered _ _ _
  case crewInsertionNotice => exact execCrewInsertionNotice_numbered _ _
  case vanInNotice => exact execVanInNotice_numbered _ _ _ _
  case vanIdleDeadline => exact execVanIdleDeadline_numbered
  case supplySample => exact execSupplySample_numbered _ _
  case requestReset => exact execRequestReset_numbered
  case resetLineRelease => exact execResetLineRelease_numbered
  case powerUp => exact execPowerUp_numbered
  case supplyPinsFall => exact execSupplyPinsFall_numbered _
  case backupCellFailure => exact execBackupCellFailure_numbered
  all_goals exact absurd (by simp [parts]) hc

/-- Settles O56: a command that changes neither the journal nor the store keeps the numbering; of the others only the writing of an
entry, a release of entries, a new layout and a reset touch it. -/
theorem numberingIsKept : Obligations.NumberingIsKept := keptByStep_of_exec (fun _ _ h => h) exec_numbered

end Sys2Proof.Machine
end

section
/-! Proofs. What most operations leave as it was, said once for each of them: the configuration, the numbers the host link counts,
and of every dock record its bike, what its level is read from, and its slot's command. -/

namespace Sys2Proof.Machine

/-- What of a dock record its bike and its level are read from. -/
@[simp] def DockRecord.fixed (r : DockRecord) : Option Bike × Level × DockHolds × BikeHolds :=
  (r.bike, r.hostSetting, r.dockHolds, r.bikeHolds)

/-- The slot's command: the commanded mode, or that the dock waits for its admission. -/
@[simp] def DockRecord.slotCommand (r : DockRecord) : SlotMode × Bool := (r.commanded, r.withheld)

/-- The configuration, the frames and counts of the host link, and what is fixed of every dock. -/
structure Fixtures where
  layout : Layout
  live : Settings
  pendingSet : Option PendingSettings
  docks : List (Option Bike × Level × DockHolds × BikeHolds)
  caps : DockCaps
  accounts : Nat
  waiting : List HostFrame
  badFrames : Nat
  overruns : Nat

structure View where
  fixtures : Fixtures
  slots : List (SlotMode × Bool)

def State.view (s : State) : View where
  fixtures :=
    { layout := s.store.layout, live := s.store.live, pendingSet := s.store.pendingSet
      docks := s.dock.table.map DockRecord.fixed, caps := s.dock.caps, accounts := s.journal.account.length
      waiting := s.host.waiting, badFrames := s.host.badFrames, overruns := s.host.overruns }
  slots := s.dock.table.map DockRecord.slotCommand

/-! ### One update -/

theorem map_modify_same {α β : Type} {l : List α} {d : Nat} {f : α → α} {v : α → β} (h : ∀ a, v (f a) = v a) :
    (l.modify d f).map v = l.map v := by
  apply List.ext_getElem?
  intro i
  by_cases hi : d = i
  case pos =>
    subst hi
    cases hl : l[d]? <;> simp [hl, h]
  case neg => simp [hi]

@[simp] theorem view_onHost (s : State) (f : HostLink → HostLink) (hw : (f s.host).waiting = s.host.waiting)
    (hb : (f s.host).badFrames = s.host.badFrames) (ho : (f s.host).overruns = s.host.overruns) : (s.onHost f).view = s.view := by
  simp [State.view, hw, hb, ho]

@[simp] theorem view_onDocks (s : State) (f : DockUnit → DockUnit) (ht : (f s.dock).table = s.dock.table)
    (hc : (f s.dock).caps = s.dock.caps) : (s.onDocks f).view = s.view := by
  simp [State.view, ht, hc]

/-- The update of a record leaves what is fixed of it. -/
def KeepsFixed (f : DockRecord → DockRecord) : Prop := ∀ r, (f r).fixed = r.fixed

/-- The update of a record leaves its slot's command. -/
def KeepsSlot (f : DockRecord → DockRecord) : Prop := ∀ r, (f r).slotCommand = r.slotCommand

@[simp] theorem keepsFixed_iff (f : DockRecord → DockRecord) : KeepsFixed f ↔
    (∀ r, (f r).bike = r.bike) ∧ (∀ r, (f r).hostSetting = r.hostSetting) ∧ (∀ r, (f r).dockHolds = r.dockHolds)
      ∧ ∀ r, (f r).bikeHolds = r.bikeHolds := by
  simp [KeepsFixed, forall_and]

@[simp] theorem keepsSlot_iff (f : DockRecord → DockRecord) : KeepsSlot f ↔
    (∀ r, (f r).commanded = r.commanded) ∧ ∀ r, (f r).withheld = r.withheld := by
  simp [KeepsSlot, forall_and]

@[simp] theorem fixtures_onDock (s : State) (d : DockNo) (f : DockRecord → DockRecord) (hf : KeepsFixed f) :
    (s.onDock d f).view.fixtures = s.view.fixtures := by
  simp only [State.view, onDock_dock, map_modify_same hf]
  rfl

@[simp] theorem view_onDock (s : State) (d : DockNo) (f : DockRecord → DockRecord) (hf : KeepsFixed f) (hs : KeepsSlot f) :
    (s.onDock d f).view = s.view := by
  simp only [State.view, onDock_dock, map_modify_same hf, map_modify_same hs]
  rfl

@[simp] theorem view_onJournal (s : State) (f : Journal → Journal) (h : (f s.journal).account.length = s.journal.account.length) :
    (s.onJournal f).view = s.view := by
  simp [State.view, h]

@[simp] theorem view_onStore (s : State) (f : Store → Store) (hl : (f s.store).layout = s.store.layout)
    (hv : (f s.store).live = s.store.live) (hp : (f s.store).pendingSet = s.store.pendingSet) : (s.onStore f).view = s.view := by
  simp [State.view, hl, hv, hp]

@[simp] theorem view_onCards (s : State) (f : CardUnit → CardUnit) : (s.onCards f).view = s.view := rfl
@[simp] theorem view_onRelease (s : State) (f : ReleaseUnit → ReleaseUnit) : (s.onRelease f).view = s.view := rfl
@[simp] theorem view_onTerminal (s : State) (x : TerminalId) (f : Terminal → Terminal) : (s.onTerminal x f).view = s.view := rfl
@[simp] theorem view_onSession (s : State) (x : TerminalId) (f : Session → Session) : (s.onSession x f).view = s.view := rfl
@[simp] theorem view_onOrders (s : State) (f : OrderUnit → OrderUnit) : (s.onOrders f).view = s.view := rfl
@[simp] theorem view_onVan (s : State) (f : VanSession → VanSession) : (s.onVan f).view = s.view := rfl
@[simp] theorem view_onFaults (s : State) (f : FaultUnit → FaultUnit) : (s.onFaults f).view = s.view := rfl
@[simp] theorem view_onSupply (s : State) (f : SupplyMonitor → SupplyMonitor) : (s.onSupply f).view = s.view := rfl
@[simp] theorem view_post (s : State) (i : Instr) : (s.post i).view = s.view := rfl
@[simp] theorem view_postAll (s : State) (l : List Instr) : (s.postAll l).view = s.view := rfl
@[simp] theorem view_taking (s : State) (i : Instr) : (s.taking i).view = s.view := rfl
@[simp] theorem view_beginSending (s : State) : (s.onHost HostLink.beginSending).view = s.view := by simp

theorem view_foldl {α : Type} {f : State → α → State} (h : ∀ s a, (f s a).view = s.view) (l : List α) (s : State) :
    (l.foldl f s).view = s.view := by
  induction l generalizing s with
  | nil => rfl
  | cons a l ih => rw [List.foldl_cons, ih, h]

theorem fixtures_foldl {α : Type} {f : State → α → State} (h : ∀ s a, (f s a).view.fixtures = s.view.fixtures) (l : List α)
    (s : State) : (l.foldl f s).view.fixtures = s.view.fixtures := by
  induction l generalizing s with
  | nil => rfl
  | cons a l ih => rw [List.foldl_cons, ih, h]

/-! ### Each operation -/

@[simp] theorem view_postIf (s : State) (b : Bool) (i : Instr) :
    (s.postIf b i).view = s.view := by
  unfold State.postIf
  split <;> simp
@[simp] theorem view_postPass (s : State) :
    (s.postPass).view = s.view := by simp [State.postPass]
@[simp] theorem view_join (s : State) (k : NoticeKind) :
    (s.join k).view = s.view := by simp [State.join]
@[simp] theorem view_reply (s : State) (k : Nat) (g : Byte) (c : ReplyCode) (y : Payload) :
    (s.reply k g c y).view = s.view := rfl
@[simp] theorem view_readerWaits (s : State) (d : DockNo) (r : ReaderResult) : (s.readerWaits d r).view = s.view := by
  unfold State.readerWaits
  rw [view_onDocks _ _ rfl rfl, view_onDock _ _ _ (by simp) (by simp)]
@[simp] theorem view_readerDecided (s : State) (d : DockNo) (r : ReaderResult) :
    (s.readerDecided d r).view = s.view := by simp [State.readerDecided]
@[simp] theorem view_sendTerminal (s : State) (x : TerminalId) (r : TermRecord) :
    (s.sendTerminal x r).view = s.view := rfl
@[simp] theorem view_tellPlace (s : State) (p : Place) (r : CheckResult) :
    (s.tellPlace p r).view = s.view := by
  unfold State.tellPlace
  split <;> simp
@[simp] theorem view_denyPlace (s : State) (p : Place) (y : DenyReason) :
    (s.denyPlace p y).view = s.view := by simp [State.denyPlace]
@[simp] theorem view_raise (s : State) (x : FaultSubject) (k : FaultKind) (d : Option DockNo) (c : Carried) :
    (s.raise x k d c).view = s.view := rfl
@[simp] theorem view_raiseLockJam (s : State) (c : Claim) :
    (s.raiseLockJam c).view = s.view := rfl
@[simp] theorem view_onClaim (s : State) (d : DockNo) (f : Claim → Claim) :
    (s.onClaim d f).view = s.view := rfl
@[simp] theorem view_addClaim (s : State) (c : Claim) :
    (s.addClaim c).view = s.view := rfl
@[simp] theorem view_removeClaim (s : State) (d : DockNo) :
    (s.removeClaim d).view = s.view := rfl
@[simp] theorem view_setCommand (s : State) (d : DockNo) (c : LockCommand) :
    (s.setCommand d c).view = s.view := by simp [State.setCommand]
@[simp] theorem view_onAccount (s : State) (d : DockNo) (f : DockAccount → DockAccount) :
    (s.onAccount d f).view = s.view := by simp [State.onAccount]
@[simp] theorem view_relamp (s : State) (d : DockNo) :
    (s.relamp d).view = s.view := by simp [State.relamp]
theorem view_changeSlot (s : State) (d : DockNo) (f : DockRecord → DockRecord) (hf : KeepsFixed f) (hs : KeepsSlot f) :
    (s.changeSlot d f).view = s.view := by
  unfold State.changeSlot
  split
  case h_1 => rfl
  case h_2 => dsimp only; split <;> simp only [view_postPass, view_post, view_onDock _ _ _ hf hs]

theorem fixtures_changeSlot (s : State) (d : DockNo) (f : DockRecord → DockRecord) (hf : KeepsFixed f) :
    (s.changeSlot d f).view.fixtures = s.view.fixtures := by
  unfold State.changeSlot
  split
  case h_1 => rfl
  case h_2 => dsimp only; split <;> simp only [view_postPass, view_post, fixtures_onDock _ _ _ hf]
@[simp] theorem fixtures_takeSlot (s : State) (d : DockNo) : (s.takeSlot d).view.fixtures = s.view.fixtures := by
  unfold State.takeSlot
  dsimp only
  (repeat' split) <;> simp [fixtures_changeSlot]
@[simp] theorem view_endClaim (s : State) (d : DockNo) :
    (s.endClaim d).view = s.view := by simp [State.endClaim]
@[simp] theorem view_dropClaim (s : State) (c : Claim) (n : VanNews) :
    (s.dropClaim c n).view = s.view := by simp [State.dropClaim]
@[simp] theorem view_displace (s : State) (d : DockNo) :
    (s.displace d).view = s.view := by
  unfold State.displace
  (repeat' split) <;> simp
@[simp] theorem fixtures_takeLevel (s : State) (d : DockNo) (l : Level) :
    (s.takeLevel d l).view.fixtures = s.view.fixtures := by
  unfold State.takeLevel
  dsimp only
  (repeat' split) <;> simp
@[simp] theorem fixtures_changeInput (s : State) (d : DockNo) (f : State → State) :
    (s.changeInput d f).view.fixtures = (f s).view.fixtures := by
  unfold State.changeInput
  simp
@[simp] theorem fixtures_admitDock (s : State) (d : DockNo) :
    (s.admitDock d).view.fixtures = s.view.fixtures := by
  unfold State.admitDock
  split <;> simp
@[simp] theorem view_appendEntry (s : State) (e : Entry) :
    (s.appendEntry e).view = s.view := rfl
@[simp] theorem view_dropGrace (s : State) (b : BikeId) :
    (s.dropGrace b).view = s.view := rfl
@[simp] theorem view_writeReturn (s : State) (d : DockNo) (b : Option BikeId) (l : Bool) (c : Option OrderId) :
    (s.writeReturn d b l c).view = s.view := by
  unfold State.writeReturn
  split <;> simp
@[simp] theorem view_writeRequested (s : State) (q : EntryRequest) :
    (s.writeRequested q).view = s.view := by
  unfold State.writeRequested
  split <;> simp
@[simp] theorem view_tellAccount (s : State) (d : DockNo) (c : CountChange) :
    (s.tellAccount d c).view = s.view := by
  unfold State.tellAccount
  split <;> simp
@[simp] theorem fixtures_admitUpTo (s : State) (n : Nat) : (s.admitUpTo n).view.fixtures = s.view.fixtures := by
  induction n generalizing s with
  | zero => rfl
  | succ n ih =>
    unfold State.admitUpTo
    (repeat' split) <;> simp [ih]
@[simp] theorem fixtures_admitWithheld (s : State) :
    (s.admitWithheld).view.fixtures = s.view.fixtures := by simp [State.admitWithheld]
theorem fixtures_journalArrival (s : State) (f : State → State) (h : (f s).view.fixtures = s.view.fixtures) :
    (s.journalArrival f).view.fixtures = s.view.fixtures := by
  unfold State.journalArrival
  dsimp only
  (repeat' split) <;> simp [h]
@[simp] theorem fixtures_writeEntry (s : State) (q : EntryRequest) : (s.writeEntry q).view.fixtures = s.view.fixtures :=
  fixtures_journalArrival s _ (by simp)
@[simp] theorem view_endSession (s : State) (x : TerminalId) :
    (s.endSession x).view = s.view := rfl
@[simp] theorem view_refuseSession (s : State) (x : TerminalId) (y : DenyReason) :
    (s.refuseSession x y).view = s.view := rfl
@[simp] theorem view_finishSession (s : State) (x : TerminalId) (y : DoneOutcome) :
    (s.finishSession x y).view = s.view := rfl
@[simp] theorem view_askAllocation (s : State) (x : TerminalId) (k : BikeClass) (e : Option DockNo) :
    (s.askAllocation x k e).view = s.view := rfl
@[simp] theorem view_leaveQueries (s : State) (x : TerminalId) :
    (s.leaveQueries x).view = s.view := rfl
@[simp] theorem view_disown (s : State) (x : TerminalId) :
    (s.disown x).view = s.view := rfl
@[simp] theorem view_abortSession (s : State) (x : TerminalId) :
    (s.abortSession x).view = s.view := by
  unfold State.abortSession
  split <;> simp
@[simp] theorem view_setLine (s : State) (x : TerminalId) (l : LineState) :
    (s.setLine x l).view = s.view := by simp [State.setLine]
@[simp] theorem view_lineLeavesUp (s : State) (x : TerminalId) (l : LineState) :
    (s.lineLeavesUp x l).view = s.view := by simp [State.lineLeavesUp]
@[simp] theorem view_lineComesUp (s : State) (x : TerminalId) :
    (s.lineComesUp x).view = s.view := by simp [State.lineComesUp]
@[simp] theorem view_startSession (s : State) (x : TerminalId) (c : CardId) (f : Nat → Instr) :
    (s.startSession x c f).view = s.view := rfl
@[simp] theorem view_tapOrPaid (s : State) (x : TerminalId) (c : CardId) (f : Nat → Instr) :
    (s.tapOrPaid x c f).view = s.view := by
  unfold State.tapOrPaid
  split <;> simp
theorem view_goodRecord (s : State) (x : TerminalId) (f : State → State) (h : ∀ u, (f u).view = u.view) :
    (s.goodRecord x f).view = s.view := by
  unfold State.goodRecord
  split <;> simp [h]
theorem view_goodRecordUp (s : State) (x : TerminalId) (f : State → State) (h : ∀ u, (f u).view = u.view) :
    (s.goodRecordUp x f).view = s.view :=
  view_goodRecord s x _ fun u => by split <;> simp [h]
@[simp] theorem view_abandonChoice (s : State) (x : TerminalId) :
    (s.abandonChoice x).view = s.view := rfl
@[simp] theorem view_badRecord (s : State) (x : TerminalId) :
    (s.badRecord x).view = s.view := by
  unfold State.badRecord
  dsimp only
  (repeat' split) <;> simp
@[simp] theorem view_takeHello (s : State) (x : TerminalId) : (s.takeHello x).view = s.view :=
  view_goodRecord s x _ fun u => by split <;> simp
@[simp] theorem view_takeTap (s : State) (x : TerminalId) (c : CardId) : (s.takeTap x c).view = s.view :=
  view_goodRecordUp s x _ fun u => by split <;> simp
@[simp] theorem view_takePaid (s : State) (x : TerminalId) (c : CardId) (r : Byte) (e : ClockTime) :
    (s.takePaid x c r e).view = s.view :=
  view_goodRecordUp s x _ fun u => by simp
@[simp] theorem view_takePick (s : State) (x : TerminalId) (k : BikeClass) : (s.takePick x k).view = s.view :=
  view_goodRecordUp s x _ fun u => by dsimp only; (repeat' split) <;> simp
@[simp] theorem view_takeCancel (s : State) (x : TerminalId) : (s.takeCancel x).view = s.view :=
  view_goodRecordUp s x _ fun u => by split <;> simp
@[simp] theorem view_lineFalls (s : State) (x : TerminalId) :
    (s.lineFalls x).view = s.view := by
  unfold State.lineFalls
  split <;> simp
@[simp] theorem view_takeLine (s : State) (x : TerminalId) (a : LineArrival) : (s.takeLine x a).view = s.view := by
  cases a with
  | discarded => exact view_goodRecord s x _ fun u => rfl
  | _ => simp [State.takeLine]
@[simp] theorem view_lineTakes (s : State) (x : TerminalId) (a : LineArrival) :
    (s.lineTakes x a).view = s.view := by
  unfold State.lineTakes
  split <;> simp
@[simp] theorem view_allocationAnswered (s : State) (x : TerminalId) : (s.allocationAnswered x).view = s.view := by
  unfold State.allocationAnswered
  rw [view_foldl (fun u a => by simp), view_onTerminal]
@[simp] theorem view_sessionOffered (s : State) (x : TerminalId) (d : DockNo) (n : Nat) :
    (s.sessionOffered x d n).view = s.view := by simp [State.sessionOffered]
@[simp] theorem view_sessionRefused (s : State) (x : TerminalId) (y : DenyReason) :
    (s.sessionRefused x y).view = s.view := by simp [State.sessionRefused]
@[simp] theorem view_tellDock (s : State) (d : DockNo) :
    (s.tellDock d).view = s.view := rfl
@[simp] theorem view_tellOwner (s : State) (c : Claim) (n : ClaimNews) :
    (s.tellOwner c n).view = s.view := by
  unfold State.tellOwner
  split <;> simp
@[simp] theorem view_refuseRequest (s : State) (o : Owner) (y : DenyReason) :
    (s.refuseRequest o y).view = s.view := by
  unfold State.refuseRequest
  (repeat' split) <;> simp
@[simp] theorem view_holdRequest (s : State) (q : ClaimRequest) :
    (s.holdRequest q).view = s.view := rfl
@[simp] theorem view_dropRequest (s : State) (d : DockNo) :
    (s.dropRequest d).view = s.view := rfl
@[simp] theorem view_requestClaim (s : State) (d : DockNo) (k : ClaimKind) (h : CardId) (o : CardOrigin) (y : Owner) :
    (s.requestClaim d k h o y).view = s.view := by
  unfold State.requestClaim
  split <;> simp
@[simp] theorem view_tellGrant (s : State) (d : DockNo) (o : Owner) (n : Nat) :
    (s.tellGrant d o n).view = s.view := by
  unfold State.tellGrant
  split <;> simp
@[simp] theorem view_grantClaim (s : State) (q : ClaimRequest) (b : Bool) :
    (s.grantClaim q b).view = s.view := by
  unfold State.grantClaim
  split <;> simp
@[simp] theorem view_leaveReserved (s : State) (d : DockNo) (o : Option OrderId) :
    (s.leaveReserved d o).view = s.view := by simp [State.leaveReserved]
@[simp] theorem view_refuseGrant (s : State) (q : ClaimRequest) (y : DenyReason) :
    (s.refuseGrant q y).view = s.view := by
  unfold State.refuseGrant
  split <;> simp
@[simp] theorem view_answerGrant (s : State) (q : ClaimRequest) (a : GrantAnswer) :
    (s.answerGrant q a).view = s.view := by
  unfold State.answerGrant
  (repeat' split) <;> simp
@[simp] theorem view_releaseReserved (s : State) (d : DockNo) (o : OrderId) (c : CardId) :
    (s.releaseReserved d o c).view = s.view := by
  unfold State.releaseReserved
  split <;> simp
@[simp] theorem view_refuseVan (s : State) (d : DockNo) (y : DenyReason) :
    (s.refuseVan d y).view = s.view := by simp [State.refuseVan]
@[simp] theorem view_endUntaken (s : State) (c : Claim) (n : ClaimNews) :
    (s.endUntaken c n).view = s.view := by
  unfold State.endUntaken
  (repeat' split) <;> simp
@[simp] theorem view_lapse (s : State) (c : Claim) (k : LockCommand) :
    (s.lapse c k).view = s.view := by simp [State.lapse]
@[simp] theorem view_fail (s : State) (c : Claim) (k : LockCommand) :
    (s.fail c k).view = s.view := by simp [State.fail]
@[simp] theorem view_graceHire (s : State) (c : Claim) (b : Option BikeId) (n : SeqNo) :
    (s.graceHire c b n).view = s.view := by
  unfold State.graceHire
  (repeat' split) <;> simp
@[simp] theorem view_released (s : State) (c : Claim) :
    (s.released c).view = s.view := by simp [State.released]
@[simp] theorem view_jam (s : State) (c : Claim) :
    (s.jam c).view = s.view := by simp [State.jam]
@[simp] theorem view_relock (s : State) (c : Claim) :
    (s.relock c).view = s.view := by simp [State.relock]
@[simp] theorem view_orphan (s : State) (c : Claim) :
    (s.orphan c).view = s.view := by
  unfold State.orphan
  split <;> simp
@[simp] theorem view_reconcile (s : State) (c : Claim) (l : LockState) :
    (s.reconcile c l).view = s.view := by
  unfold State.reconcile
  (repeat' split) <;> simp
@[simp] theorem view_setStation (s : State) (x : StationState) :
    (s.setStation x).view = s.view := rfl
@[simp] theorem view_dropQueries (s : State) : s.dropQueries.view = s.view := by
  unfold State.dropQueries
  rw [view_onCards, view_foldl (fun u a => by simp)]
@[simp] theorem view_hearHost (s : State) :
    (s.hearHost).view = s.view := by
  unfold State.hearHost
  split <;> simp
@[simp] theorem view_tick (s : State) :
    (s.tick).view = s.view := rfl
@[simp] theorem view_changePower (s : State) (p : PowerState) :
    (s.changePower p).view = s.view := by
  unfold State.changePower
  (repeat' split) <;> simp
@[simp] theorem view_install (s : State) (r : CardRecord) :
    (s.install r).view = s.view := rfl
@[simp] theorem view_passRider (s : State) (r : CardRecord) (p : Place) :
    (s.passRider r p).view = s.view := by
  unfold State.passRider
  split <;> simp
@[simp] theorem view_passService (s : State) (r : CardRecord) (p : Place) :
    (s.passService r p).view = s.view := by
  unfold State.passService
  (repeat' split) <;> simp
@[simp] theorem view_passTap (s : State) (r : CardRecord) (p : Place) :
    (s.passTap r p).view = s.view := by
  unfold State.passTap
  split <;> simp
@[simp] theorem view_finishCheck (s : State) (r : CardRecord) (p : Place) :
    (s.finishCheck r p).view = s.view := by
  unfold State.finishCheck
  split <;> simp
theorem view_placeRecord {s s' : State} {r : CardRecord} {b : Bool} (h : s.placeRecord r b = some s') : s'.view = s.view := by
  unfold State.placeRecord at h
  split at h
  case isTrue => cases h; simp
  case isFalse => obtain ⟨_, -, rfl⟩ := Option.map_eq_some_iff.mp h; simp

@[simp] theorem view_unknownCard (s : State) (c : CardId) (p : Place) : (s.unknownCard c p).view = s.view := by
  unfold State.unknownCard
  repeat' split
  case h_2 h => rw [view_finishCheck, view_placeRecord h]
  all_goals simp
@[simp] theorem view_newQuery (s : State) (c : CardId) (p : Place) :
    (s.newQuery c p).view = s.view := rfl
@[simp] theorem view_joinQuery (s : State) (q : Query) (p : Place) :
    (s.joinQuery q p).view = s.view := by
  unfold State.joinQuery
  split <;> simp
@[simp] theorem view_askHost (s : State) (c : CardId) (p : Place) : (s.askHost c p).view = s.view := by
  unfold State.askHost
  (repeat' split) <;> simp

theorem view_check (s : State) (p : Place) (r : Option CardRecord) (f : State → State) (h : (f s).view = s.view) :
    (s.check p r f).view = s.view := by
  unfold State.check
  split <;> simp [h]
@[simp] theorem view_resolveWaiter (s : State) (c : CardId) (own : Option CardRecord) (p : Place) :
    (s.resolveWaiter c own p).view = s.view :=
  view_check s p _ _ (by simp)
@[simp] theorem view_resolveQuery (s : State) (q : Query) (own : Option CardRecord) : (s.resolveQuery q own).view = s.view :=
  view_foldl (fun u p => by simp) _ _
@[simp] theorem view_removeQuery (s : State) (g : Byte) :
    (s.removeQuery g).view = s.view := rfl
@[simp] theorem view_endQueries (s : State) : s.endQueries.view = s.view := by
  unfold State.endQueries
  rw [view_foldl (fun u q => by simp), view_onCards]
@[simp] theorem view_keepPass (s : State) (x : TerminalId) (n : Nat) (r : CardRecord) :
    (s.keepPass x n r).view = s.view := rfl
@[simp] theorem view_setUsed (s : State) (c : CardId) (f : Nat → Nat) :
    (s.setUsed c f).view = s.view := rfl
@[simp] theorem view_installVerdict (s : State) (r : Option CardRecord) : (s.installVerdict r).1.view = s.view := by
  unfold State.installVerdict
  (repeat' split) <;> simp

@[simp] theorem view_verdictFor (s : State) (g : Byte) (q : Query) (r : Option CardRecord) :
    (s.verdictFor g q r).view = s.view := by
  simp [State.verdictFor]
@[simp] theorem view_lateVerdict (s : State) (g : Byte) (r : Option CardRecord) : (s.lateVerdict g r).view = s.view := by
  simp [State.lateVerdict]
@[simp] theorem view_loseLink (s : State) :
    (s.loseLink).view = s.view := by simp [State.loseLink]
@[simp] theorem view_newLimit (s : State) (n : Nat) :
    (s.newLimit n).view = s.view := by
  unfold State.newLimit
  (repeat' split) <;> simp
@[simp] theorem view_endPoll (s : State) (d : DockNo) (r : DockRecord) :
    (s.endPoll d r).view = s.view := by
  unfold State.endPoll
  dsimp only
  (repeat' split) <;> simp
@[simp] theorem view_stepLock (s : State) (d : DockNo) (l : LockState) :
    (s.stepLock d l).view = s.view := by
  unfold State.stepLock
  split <;> simp
@[simp] theorem view_stepSlot (s : State) (d : DockNo) (m : SlotMode) : (s.stepSlot d m).view = s.view :=
  view_changeSlot s d _ (by simp) (by simp)
@[simp] theorem view_settleEntry (s : State) (d : DockNo) (b : Option BikeId) :
    (s.settleEntry d b).view = s.view := by
  unfold State.settleEntry
  split <;> simp
@[simp] theorem view_missTag (s : State) (d : DockNo) (r : DockRecord) :
    (s.missTag d r).view = s.view := by
  unfold State.missTag
  split <;> simp
@[simp] theorem view_noteChatter (s : State) (d : DockNo) :
    (s.noteChatter d).view = s.view := by
  unfold State.noteChatter
  dsimp only
  (repeat' split) <;> simp
@[simp] theorem view_takeOrder (s : State) (d : DockNo) : (s.takeOrder d).view = s.view := by
  unfold State.takeOrder
  rw [view_onDocks _ _ rfl rfl, view_onDock _ _ _ (by simp) (by simp)]
@[simp] theorem view_openReportWindow (s : State) (d : DockNo) :
    (s.openReportWindow d).view = s.view := by
  unfold State.openReportWindow
  split <;> simp
@[simp] theorem view_countedInsertion (s : State) (d : DockNo) (r : DockRecord) (b : Bool) :
    (s.countedInsertion d r b).view = s.view := by simp [State.countedInsertion]
@[simp] theorem view_uncountedInsertion (s : State) (d : DockNo) :
    (s.uncountedInsertion d).view = s.view := by simp [State.uncountedInsertion]
@[simp] theorem view_tellRemoval (s : State) (d : DockNo) (b : Option BikeId) :
    (s.tellRemoval d b).view = s.view := by
  unfold State.tellRemoval
  (repeat' split) <;> simp
@[simp] theorem view_testSensor (s : State) (d : DockNo) :
    (s.testSensor d).view = s.view := by
  unfold State.testSensor
  split <;> simp
@[simp] theorem view_stepTap (s : State) (d : DockNo) (c : Option CardId) :
    (s.stepTap d c).view = s.view := by
  unfold State.stepTap
  (repeat' split) <;> simp
@[simp] theorem view_stepPress (s : State) (d : DockNo) (n : Nat) :
    (s.stepPress d n).view = s.view := by
  unfold State.stepPress
  (repeat' split) <;> simp
@[simp] theorem view_stepBattery (s : State) (d : DockNo) (n : Option Nat) :
    (s.stepBattery d n).view = s.view := by
  unfold State.stepBattery
  (repeat' split) <;> simp
@[simp] theorem view_stepJoin (s : State) (d : DockNo) (b : Bool) :
    (s.stepJoin d b).view = s.view := by
  unfold State.stepJoin
  split <;> simp
@[simp] theorem view_missPoll (s : State) (d : DockNo) (r : DockRecord) :
    (s.missPoll d r).view = s.view := by simp [State.missPoll]
@[simp] theorem view_onRecord (s : State) (x : FaultSubject) (k : FaultKind) (f : FaultRecord → FaultRecord) :
    (s.onRecord x k f).view = s.view := rfl
@[simp] theorem view_recordRaise (s : State) (x : FaultSubject) (k : FaultKind) (c : Option DockContext) :
    (s.recordRaise x k c).view = s.view := by
  unfold State.recordRaise
  (repeat' split) <;> simp
@[simp] theorem view_resolveRecord (s : State) (x : FaultSubject) (k : FaultKind) :
    (s.resolveRecord x k).view = s.view := rfl
@[simp] theorem view_tellJamCleared (s : State) (d : DockNo) :
    (s.tellJamCleared d).view = s.view := by simp [State.tellJamCleared]
@[simp] theorem view_acknowledge (s : State) (x : FaultSubject) (k : FaultKind) :
    (s.acknowledge x k).view = s.view := rfl
@[simp] theorem view_restartIdle (s : State) :
    (s.restartIdle).view = s.view := rfl
@[simp] theorem view_countDone (s : State) (o : OrderId) :
    (s.countDone o).view = s.view := rfl
@[simp] theorem view_holdToTarget (s : State) :
    (s.holdToTarget).view = s.view := by
  unfold State.holdToTarget
  (repeat' split) <;> simp
@[simp] theorem view_leaveDock (s : State) (d : DockNo) (o : OrderId) :
    (s.leaveDock d o).view = s.view := by
  unfold State.leaveDock
  split <;> simp
theorem view_reserve {s s' : State} {d : DockNo} {o : OrderId} (h : s.reserve d o = .ok s') : s'.view = s.view := by
  unfold State.reserve at h
  repeat' split at h
  case h_3.isFalse.isFalse => cases h; simp
  all_goals cases h

@[simp] theorem view_tryReserve (s : State) (d : DockNo) (o : OrderId) : (s.tryReserve d o).view = s.view := by
  unfold State.tryReserve
  split
  case h_1 h => exact view_reserve h
  case h_2 => rfl
@[simp] theorem view_passDock (s : State) (d : DockNo) :
    (s.passDock d).view = s.view := by
  unfold State.passDock
  (repeat' split) <;> simp
@[simp] theorem view_placementPass (s : State) : s.placementPass.view = s.view := by
  unfold State.placementPass
  split
  case isTrue => exact view_foldl (fun u d => by simp) _ _
  case isFalse => rfl
@[simp] theorem fixtures_closeSession (s : State) (v : VanSession) :
    (s.closeSession v).view.fixtures = s.view.fixtures := by
  unfold State.closeSession
  split <;> simp
@[simp] theorem fixtures_testComplete (s : State) :
    (s.testComplete).view.fixtures = s.view.fixtures := by
  unfold State.testComplete
  (repeat' split) <;> simp
@[simp] theorem fixtures_enterClosing (s : State) (c : CloseCause) : (s.enterClosing c).view.fixtures = s.view.fixtures := by
  unfold State.enterClosing
  (repeat' split) <;> simp [view_foldl]
@[simp] theorem fixtures_afterDone (s : State) (o : OrderId) :
    (s.afterDone o).view.fixtures = s.view.fixtures := by
  unfold State.afterDone
  split <;> simp
@[simp] theorem fixtures_openSession (s : State) (c : CardId) (p : Place) (o : Order) :
    (s.openSession c p o).view.fixtures = s.view.fixtures := by
  unfold State.openSession
  simp [fixtures_journalArrival]
@[simp] theorem view_moveTap (s : State) (v : VanSession) (c : CardId) (d : DockNo) :
    (s.moveTap v c d).view = s.view := by
  unfold State.moveTap
  split <;> simp
@[simp] theorem view_collectTap (s : State) (v : VanSession) (c : CardId) (d : DockNo) :
    (s.collectTap v c d).view = s.view := by
  unfold State.collectTap
  (repeat' split) <;> simp
@[simp] theorem view_deliverTap (s : State) (v : VanSession) (d : DockNo) :
    (s.deliverTap v d).view = s.view := by
  unfold State.deliverTap
  split <;> simp
@[simp] theorem fixtures_openTap (s : State) (v : VanSession) (c : CardId) (p : Place) :
    (s.openTap v c p).view.fixtures = s.view.fixtures := by
  unfold State.openTap
  (repeat' split) <;> simp
@[simp] theorem fixtures_cancelSession (s : State) :
    (s.cancelSession).view.fixtures = s.view.fixtures := by
  unfold State.cancelSession
  split <;> simp
@[simp] theorem fixtures_take (s : State) (c : Claim) (b : Option BikeId) (x y : Bool) :
    (s.take c b x y).view.fixtures = s.view.fixtures := by
  unfold State.take
  split <;> simp
@[simp] theorem view_powerTerminal (s : State) (p : PowerState) (x : TerminalId) :
    (s.powerTerminal p x).view = s.view := by
  unfold State.powerTerminal
  split <;> simp
@[simp] theorem view_chooseClass (s : State) (x : TerminalId) (r : Rights) :
    (s.chooseClass x r).view = s.view := by
  unfold State.chooseClass
  split <;> simp
@[simp] theorem view_takeResult (s : State) (x : TerminalId) (r : CheckResult) :
    (s.takeResult x r).view = s.view := by
  unfold State.takeResult
  split <;> simp
@[simp] theorem view_claimFailed (s : State) (x : TerminalId) (d : DockNo) :
    (s.claimFailed x d).view = s.view := by
  unfold State.claimFailed
  dsimp only
  (repeat' split) <;> simp
@[simp] theorem view_takeClaimNews (s : State) (x : TerminalId) (d : DockNo) (n : ClaimNews) :
    (s.takeClaimNews x d n).view = s.view := by
  unfold State.takeClaimNews
  split <;> simp

end Sys2Proof.Machine
end

section
/-! Proofs. The commands that leave the configuration, the counts of the host link and what is fixed of every dock. -/

namespace Sys2Proof.Machine

/-- The command leaves the value as it is in every state. -/
def Leaves {α : Type} (v : State → α) (e : State → Host.Outcome State Fault Refusal) : Prop := ∀ s t, e s = .next t → v t = v s

theorem Leaves.keeps {α : Type} {v : State → α} {e : State → Host.Outcome State Fault Refusal} {P : State → Prop}
    (h : Leaves v e) (hP : ∀ s t, v t = v s → P s → P t) : Keeps P e :=
  fun s t he => hP s t (h s t he)

theorem Leaves.fixtures {e : State → Host.Outcome State Fault Refusal} (h : Leaves State.view e) :
    Leaves (fun s => s.view.fixtures) e :=
  fun s t he => congrArg View.fixtures (h s t he)

theorem view_act {i : Instr} {f : State → State} (hf : ∀ u, (f u).view = u.view) : Leaves State.view fun s => act i s f := by
  intro s t h
  simp only [act, Host.Outcome.next.injEq] at h
  subst h
  split <;> simp [hf]

theorem view_request {α : Type} {i : Instr} {n : Nat} {tag : Byte} {x : Except ReplyCode α} {f : α → State → State}
    (hf : ∀ a u, (f a u).view = u.view) : Leaves State.view fun s => request i n tag s x f := by
  refine view_act fun u => ?_
  cases x with
  | error code => rfl
  | ok a => exact hf a u

theorem fixtures_act {i : Instr} {f : State → State} (hf : ∀ u, (f u).view.fixtures = u.view.fixtures) :
    Leaves (fun s => s.view.fixtures) fun s => act i s f := by
  intro s t h
  simp only [act, Host.Outcome.next.injEq] at h
  subst h
  split <;> simp [hf]

theorem fixtures_request {α : Type} {i : Instr} {n : Nat} {tag : Byte} {x : Except ReplyCode α} {f : α → State → State}
    (hf : ∀ a u, (f a u).view.fixtures = u.view.fixtures) : Leaves (fun s => s.view.fixtures) fun s => request i n tag s x f := by
  refine fixtures_act fun u => ?_
  cases x with
  | error code => rfl
  | ok a => exact hf a u

theorem execUnknownKindRequest_view (kind tag : Byte) : Leaves State.view (execUnknownKindRequest kind tag) :=
  view_act fun _ => rfl

theorem execStatus_view (tag : Byte) (body : List Byte) : Leaves State.view (execStatus tag body) :=
  view_request fun _ _ => by simp

theorem execNoticeMask_view (tag : Byte) (body : List Byte) : Leaves State.view (execNoticeMask tag body) :=
  view_request fun _ _ => by simp

theorem execLayoutGet_view (tag : Byte) (body : List Byte) : Leaves State.view (execLayoutGet tag body) :=
  view_request fun _ _ => by simp

theorem execServiceStart_view (tag : Byte) (body : List Byte) : Leaves State.view (execServiceStart tag body) :=
  view_request fun a u => by split <;> simp

theorem execServiceStop_view (tag : Byte) (body : List Byte) : Leaves State.view (execServiceStop tag body) :=
  view_request fun a u => by (repeat' split) <;> simp

theorem execSettingsGet_view (tag : Byte) (body : List Byte) : Leaves State.view (execSettingsGet tag body) :=
  view_request fun _ _ => by simp

theorem execDockGet_view (tag : Byte) (body : List Byte) : Leaves State.view (execDockGet tag body) :=
  view_request fun a u => by split <;> simp

theorem execCardPut_view (tag : Byte) (body : List Byte) : Leaves State.view (execCardPut tag body) :=
  view_request fun a u => by (repeat' split) <;> simp

theorem execCardGet_view (tag : Byte) (body : List Byte) : Leaves State.view (execCardGet tag body) :=
  view_request fun a u => by split <;> simp

theorem execCardDrop_view (tag : Byte) (body : List Byte) : Leaves State.view (execCardDrop tag body) :=
  view_request fun a u => by split <;> simp

theorem execCardVerdict_view (tag : Byte) (body : List Byte) : Leaves State.view (execCardVerdict tag body) :=
  view_request fun a u => by (repeat' split) <;> simp

theorem execJournalRead_view (tag : Byte) (body : List Byte) : Leaves State.view (execJournalRead tag body) :=
  view_request fun a u => by split <;> simp

theorem execJournalRelease_fixtures (tag : Byte) (body : List Byte) :
    Leaves (fun s => s.view.fixtures) (execJournalRelease tag body) := by
  refine fixtures_request fun a u => ?_
  split
  case h_1 => rfl
  case h_2 => simp [fixtures_journalArrival]

theorem execOrderAdd_view (tag : Byte) (body : List Byte) : Leaves State.view (execOrderAdd tag body) :=
  view_request fun a u => by (repeat' split) <;> simp

theorem execOrderCancel_fixtures (tag : Byte) (body : List Byte) : Leaves (fun s => s.view.fixtures) (execOrderCancel tag body) :=
  fixtures_request fun a u => by (repeat' split) <;> simp

theorem execOrderList_view (tag : Byte) (body : List Byte) : Leaves State.view (execOrderList tag body) :=
  view_request fun _ _ => by simp

theorem execFaultList_view (tag : Byte) (body : List Byte) : Leaves State.view (execFaultList tag body) :=
  view_request fun _ _ => by simp

theorem execFaultAck_view (tag : Byte) (body : List Byte) : Leaves State.view (execFaultAck tag body) := by
  intro s t
  exact view_request (fun a u => by split <;> simp) s t

theorem execTerminalGet_view (tag : Byte) (body : List Byte) : Leaves State.view (execTerminalGet tag body) :=
  view_request fun _ _ => by simp

theorem execSilenceDeadline_view : Leaves State.view execSilenceDeadline :=
  view_act fun u => by split <;> simp

@[simp] theorem choose_table (u : DockUnit) : u.choose.2.table = u.table := by
  unfold DockUnit.choose
  split <;> rfl

@[simp] theorem choose_caps (u : DockUnit) : u.choose.2.caps = u.caps := by
  unfold DockUnit.choose
  split <;> rfl

theorem execDockPoll_view : Leaves State.view execDockPoll :=
  view_act fun u => by split <;> simp

theorem execDockPollMissed_view : Leaves State.view execDockPollMissed :=
  view_act fun u => by split <;> simp

theorem execReportWindowDeadline_view (d : DockNo) : Leaves State.view (execReportWindowDeadline d) := by
  refine view_act fun u => view_onDock u d _ ?fixed ?slot
  case fixed => intro r; dsimp only; split <;> rfl
  case slot => intro r; dsimp only; split <;> rfl

theorem execCrewWindowDeadline_view (d : DockNo) : Leaves State.view (execCrewWindowDeadline d) :=
  view_act fun u => by split <;> simp

theorem execDockClaimNotice_fixtures (d : DockNo) : Leaves (fun s => s.view.fixtures) (execDockClaimNotice d) :=
  fixtures_act fun _ => by simp

theorem execCardCheck_view (card : CardId) (place : Place) : Leaves State.view (execCardCheck card place) :=
  view_act fun u => view_check u place _ _ (view_askHost u card place)

theorem execQueryDeadline_view (tag : Byte) : Leaves State.view (execQueryDeadline tag) :=
  view_act fun u => by split <;> simp

theorem execPassSale_view (x : TerminalId) (attempt : Nat) (code : CardId) (rights : Byte) (expiry : ClockTime) :
    Leaves State.view (execPassSale x attempt code rights expiry) := by
  refine view_act fun u => ?_
  split
  case h_1 => simp
  case h_2 =>
    split
    case h_1 h => rw [view_check _ _ _ _ rfl, view_placeRecord h]
    case h_2 => simp [view_check]

theorem execCharge_view (d : DockNo) (card : CardId) : Leaves State.view (execCharge d card) :=
  view_act fun u => by (repeat' split) <;> simp

theorem execRefund_view (card : CardId) : Leaves State.view (execRefund card) :=
  view_act fun _ => by simp

theorem execClaimRequest_view (d : DockNo) (kind : ClaimKind) (holder : CardId) (origin : CardOrigin) (owner : Owner) :
    Leaves State.view (execClaimRequest d kind holder origin owner) :=
  view_act fun u => by split <;> simp

theorem execClaimGrant_view (d : DockNo) (answer : GrantAnswer) : Leaves State.view (execClaimGrant d answer) :=
  view_act fun u => by split <;> simp

theorem execReservationRequest_view (d : DockNo) (o : OrderId) : Leaves State.view (execReservationRequest d o) :=
  view_act fun _ => by simp

theorem execReservationDrop_view (d : DockNo) : Leaves State.view (execReservationDrop d) :=
  view_act fun u => by (repeat' split) <;> simp

theorem execVanReleaseRequest_view (d : DockNo) (o : OrderId) (card : CardId) :
    Leaves State.view (execVanReleaseRequest d o card) := by
  refine view_act fun u => ?_
  repeat' split
  case h_2 h => rw [view_releaseReserved, view_reserve h]
  all_goals simp

theorem execClaimLockChange_view (d : DockNo) (lock : LockState) (completed : Bool) : Leaves State.view (execClaimLockChange d lock completed) :=
  view_act fun u => by (repeat' split) <;> simp

theorem execClaimRemoval_fixtures (d : DockNo) (bike : Option BikeId) : Leaves (fun s => s.view.fixtures) (execClaimRemoval d bike) :=
  fixtures_act fun u => by (repeat' split) <;> simp

theorem execClaimInsertion_view (d : DockNo) (crew : Option OrderId) : Leaves State.view (execClaimInsertion d crew) :=
  view_act fun u => by (repeat' split) <;> simp

theorem execReleaseDeadline_view (d : DockNo) : Leaves State.view (execReleaseDeadline d) :=
  view_act fun u => by split <;> simp

theorem execTakeWindowDeadline_view (d : DockNo) : Leaves State.view (execTakeWindowDeadline d) :=
  view_act fun u => by (repeat' split) <;> simp

theorem execRelockDeadline_view (d : DockNo) : Leaves State.view (execRelockDeadline d) :=
  view_act fun u => by (repeat' split) <;> simp

theorem execDisplacement_view (d : DockNo) : Leaves State.view (execDisplacement d) :=
  view_act fun _ => by simp

theorem execLockJamCleared_view (d : DockNo) : Leaves State.view (execLockJamCleared d) :=
  view_act fun u => by (repeat' split) <;> simp

theorem execOrphanReconcile_view (d : DockNo) (occupancy : Occupancy) (lock : LockState) : Leaves State.view (execOrphanReconcile d occupancy lock) :=
  view_act fun u => by (repeat' split) <;> simp

theorem execAllocation_view (t : TerminalId) (cls : BikeClass) (holder : CardId) (origin : CardOrigin) (exclude : Option DockNo) :
    Leaves State.view (execAllocation t cls holder origin exclude) :=
  view_act fun u => by split <;> simp

theorem execGraceExpiry_view (bike : BikeId) : Leaves State.view (execGraceExpiry bike) :=
  view_act fun _ => by simp

theorem execBikeTakenNotice_view (bike : BikeId) (entryWritten : Bool) : Leaves State.view (execBikeTakenNotice bike entryWritten) :=
  view_act fun u => by split <;> simp

theorem execBookingRequest_fixtures (d : DockNo) : Leaves (fun s => s.view.fixtures) (execBookingRequest d) :=
  fixtures_act fun u => by (repeat' split) <;> simp [fixtures_journalArrival]

theorem execBookingGivenBack_fixtures (d : DockNo) : Leaves (fun s => s.view.fixtures) (execBookingGivenBack d) :=
  fixtures_act fun u => fixtures_journalArrival u _ (by simp)

theorem execVanBooking_fixtures (card : CardId) (place : Place) : Leaves (fun s => s.view.fixtures) (execVanBooking card place) :=
  fixtures_act fun u => by (repeat' split) <;> simp

theorem execJournalEntryWrite_fixtures (q : EntryRequest) : Leaves (fun s => s.view.fixtures) (execJournalEntryWrite q) :=
  fixtures_act fun _ => by simp

theorem execJournalWithheldNotice_fixtures (d : DockNo) (joins : Bool) : Leaves (fun s => s.view.fixtures) (execJournalWithheldNotice d joins) :=
  fixtures_act fun u => fixtures_journalArrival u _ (by simp)

theorem execJournalCountNotice_fixtures (d : DockNo) (c : CountChange) : Leaves (fun s => s.view.fixtures) (execJournalCountNotice d c) :=
  fixtures_act fun u => fixtures_journalArrival u _ (by simp)

theorem execCrewTap_fixtures (card : CardId) (place : Place) : Leaves (fun s => s.view.fixtures) (execCrewTap card place) :=
  fixtures_act fun u => by (repeat' split) <;> simp

theorem execPlacementPass_view : Leaves State.view execPlacementPass :=
  view_act fun _ => by simp

theorem execVanClaimNotice_fixtures (d : DockNo) (o : OrderId) (news : VanNews) : Leaves (fun s => s.view.fixtures) (execVanClaimNotice d o news) :=
  fixtures_act fun u => by (repeat' split) <;> simp

theorem execCrewInsertionNotice_fixtures (d : DockNo) (news : CrewInsertion) : Leaves (fun s => s.view.fixtures) (execCrewInsertionNotice d news) :=
  fixtures_act fun u => by (repeat' split) <;> simp

theorem execVanInNotice_fixtures (o : OrderId) (d : DockNo) (seq : SeqNo) (identified : Bool) :
    Leaves (fun s => s.view.fixtures) (execVanInNotice o d seq identified) :=
  fixtures_act fun u => by split <;> simp

theorem execVanIdleDeadline_fixtures : Leaves (fun s => s.view.fixtures) execVanIdleDeadline :=
  fixtures_act fun u => by split <;> simp

theorem lineArrival_view (i : Instr) (x : TerminalId) (a : LineArrival) : Leaves State.view (lineArrival i x a) :=
  view_act fun u => view_lineTakes u x a

theorem execTerminalHello_view (x : TerminalId) : Leaves State.view (execTerminalHello x) :=
  lineArrival_view _ x _

theorem execTerminalTap_view (x : TerminalId) (card : CardId) : Leaves State.view (execTerminalTap x card) :=
  lineArrival_view _ x _

theorem execTerminalPaid_view (x : TerminalId) (code : CardId) (rights : Byte) (expiry : ClockTime) :
    Leaves State.view (execTerminalPaid x code rights expiry) :=
  lineArrival_view _ x _

theorem execTerminalPick_view (x : TerminalId) (cls : BikeClass) : Leaves State.view (execTerminalPick x cls) :=
  lineArrival_view _ x _

theorem execTerminalCancel_view (x : TerminalId) : Leaves State.view (execTerminalCancel x) :=
  lineArrival_view _ x _

theorem execTerminalBadRecord_view (x : TerminalId) : Leaves State.view (execTerminalBadRecord x) :=
  lineArrival_view _ x _

theorem execTerminalRecordDiscarded_view (x : TerminalId) : Leaves State.view (execTerminalRecordDiscarded x) :=
  lineArrival_view _ x _

theorem execLineBreak_view (x : TerminalId) : Leaves State.view (execLineBreak x) :=
  lineArrival_view _ x _

theorem execTerminalPowerSet_view (p : PowerState) (only : Option TerminalId) : Leaves State.view (execTerminalPowerSet p only) :=
  view_act fun _ => view_foldl (fun u x => view_powerTerminal u p x) _ _

theorem execCheckResultAtSession_view (t : TerminalId) (attempt : Nat) (r : CheckResult) : Leaves State.view (execCheckResultAtSession t attempt r) :=
  view_act fun u => by dsimp only; (repeat' split) <;> simp

theorem execClaimNoticeAtSession_view (t : TerminalId) (d : DockNo) (news : ClaimNews) : Leaves State.view (execClaimNoticeAtSession t d news) :=
  view_act fun u => by dsimp only; (repeat' split) <;> simp

theorem execChoosingDeadline_view (t : TerminalId) : Leaves State.view (execChoosingDeadline t) :=
  view_act fun u => by split <;> simp

theorem execOfferedDeadline_view (t : TerminalId) : Leaves State.view (execOfferedDeadline t) :=
  view_act fun u => by split <;> simp

/-! ### Which commands -/

/-- The commands that may change the configuration, the counts of the host link, or what is fixed of a dock. -/
def changesFixtures : Instr → Bool
  | .hostFrameGood _ => true
  | .hostFrameBad _ => true
  | .frameSent => true
  | .timeSet _ _ => true
  | .reset _ _ => true
  | .requestReset => true
  | .layoutSet _ _ => true
  | .settingsStage _ _ => true
  | .settingsDrop _ _ => true
  | .settingsSwitch => true
  | .dockSetService _ _ => true
  | .faultClear _ _ => true
  | .terminalEnable _ _ => true
  | .dockReport _ => true
  | .dockCapChange _ => true
  | .faultRaise _ _ _ _ => true
  | .faultResolution _ _ _ => true
  | .holdClear _ => true
  | .bikeArrivalNotice _ _ => true
  | .faultRemovalNotice _ _ => true
  | .supplySample _ _ => true
  | .supplyResetEntry => true
  | .resetLineLow => true
  | .resetLineRelease => true
  | .powerUp => true
  | .supplyPinsFall _ => true
  | .backupCellFailure => true
  | _ => false

/-- The commands that may change those, or the command of a slot. -/
def changesView : Instr → Bool
  | .journalRelease _ _ => true
  | .orderCancel _ _ => true
  | .dockClaimNotice _ => true
  | .claimRemoval _ _ => true
  | .bookingRequest _ => true
  | .bookingGivenBack _ => true
  | .vanBooking _ _ => true
  | .journalEntryWrite _ => true
  | .journalWithheldNotice _ _ => true
  | .journalCountNotice _ _ => true
  | .crewTap _ _ => true
  | .vanClaimNotice _ _ _ => true
  | .crewInsertionNotice _ _ => true
  | .vanInNotice _ _ _ _ => true
  | .vanIdleDeadline => true
  | c => changesFixtures c

theorem exec_view (c : Instr) (hc : changesView c = false) : Leaves State.view (exec c) := by
  cases c
  case unknownKindRequest => exact execUnknownKindRequest_view _ _
  case status => exact execStatus_view _ _
  case noticeMask => exact execNoticeMask_view _ _
  case layoutGet => exact execLayoutGet_view _ _
  case serviceStart => exact execServiceStart_view _ _
  case serviceStop => exact execServiceStop_view _ _
  case settingsGet => exact execSettingsGet_view _ _
  case dockGet => exact execDockGet_view _ _
  case cardPut => exact execCardPut_view _ _
  case cardGet => exact execCardGet_view _ _
  case cardDrop => exact execCardDrop_view _ _
  case cardVerdict => exact execCardVerdict_view _ _
  case journalRead => exact execJournalRead_view _ _
  case orderAdd => exact execOrderAdd_view _ _
  case orderList => exact execOrderList_view _ _
  case faultList => exact execFaultList_view _ _
  case faultAck => exact execFaultAck_view _ _
  case terminalGet => exact execTerminalGet_view _ _
  case silenceDeadline => exact execSilenceDeadline_view
  case dockPoll => exact execDockPoll_view
  case dockPollMissed => exact execDockPollMissed_view
  case reportWindowDeadline => exact execReportWindowDeadline_view _
  case crewWindowDeadline => exact execCrewWindowDeadline_view _
  case cardCheck => exact execCardCheck_view _ _
  case queryDeadline => exact execQueryDeadline_view _
  case passSale => exact execPassSale_view _ _ _ _ _
  case charge => exact execCharge_view _ _
  case refund => exact execRefund_view _
  case claimRequest => exact execClaimRequest_view _ _ _ _ _
  case claimGrant => exact execClaimGrant_view _ _
  case reservationRequest => exact execReservationRequest_view _ _
  case reservationDrop => exact execReservationDrop_view _
  case vanReleaseRequest => exact execVanReleaseRequest_view _ _ _
  case claimLockChange => exact execClaimLockChange_view _ _ _
  case claimInsertion => exact execClaimInsertion_view _ _
  case releaseDeadline => exact execReleaseDeadline_view _
  case takeWindowDeadline => exact execTakeWindowDeadline_view _
  case relockDeadline => exact execRelockDeadline_view _
  case displacement => exact execDisplacement_view _
  case lockJamCleared => exact execLockJamCleared_view _
  case orphanReconcile => exact execOrphanReconcile_view _ _ _
  case allocation => exact execAllocation_view _ _ _ _ _
  case graceExpiry => exact execGraceExpiry_view _
  case bikeTakenNotice => exact execBikeTakenNotice_view _ _
  case placementPass => exact execPlacementPass_view
  case terminalHello => exact execTerminalHello_view _
  case terminalTap => exact execTerminalTap_view _ _
  case terminalPaid => exact execTerminalPaid_view _ _ _ _
  case terminalPick => exact execTerminalPick_view _ _
  case terminalCancel => exact execTerminalCancel_view _
  case terminalBadRecord => exact execTerminalBadRecord_view _
  case terminalRecordDiscarded => exact execTerminalRecordDiscarded_view _
  case lineBreak => exact execLineBreak_view _
  case terminalPowerSet => exact execTerminalPowerSet_view _ _
  case checkResultAtSession => exact execCheckResultAtSession_view _ _ _
  case claimNoticeAtSession => exact execClaimNoticeAtSession_view _ _ _
  case choosingDeadline => exact execChoosingDeadline_view _
  case offeredDeadline => exact execOfferedDeadline_view _
  all_goals cases hc

theorem exec_fixtures (c : Instr) (hc : changesFixtures c = false) : Leaves (fun s => s.view.fixtures) (exec c) := by
  by_cases hv : changesView c = false
  case pos => exact (exec_view c hv).fixtures
  cases c
  case journalRelease => exact execJournalRelease_fixtures _ _
  case orderCancel => exact execOrderCancel_fixtures _ _
  case dockClaimNotice => exact execDockClaimNotice_fixtures _
  case claimRemoval => exact execClaimRemoval_fixtures _ _
  case bookingRequest => exact execBookingRequest_fixtures _
  case bookingGivenBack => exact execBookingGivenBack_fixtures _
  case vanBooking => exact execVanBooking_fixtures _ _
  case journalEntryWrite => exact execJournalEntryWrite_fixtures _
  case journalWithheldNotice => exact execJournalWithheldNotice_fixtures _ _
  case journalCountNotice => exact execJournalCountNotice_fixtures _ _
  case crewTap => exact execCrewTap_fixtures _ _
  case vanClaimNotice => exact execVanClaimNotice_fixtures _ _ _
  case crewInsertionNotice => exact execCrewInsertionNotice_fixtures _ _
  case vanInNotice => exact execVanInNotice_fixtures _ _ _ _
  case vanIdleDeadline => exact execVanIdleDeadline_fixtures
  all_goals exact absurd hc hv

end Sys2Proof.Machine
end

section
/-! Proofs. The configuration and the ranges of the host link are kept by every step (R1, R184, R185, R190, R191, R193). -/

namespace Sys2Proof.Machine

/-! ### One act -/

theorem request_eq_act {α : Type} (i : Instr) (n : Nat) (tag : Byte) (s : State) (x : Except ReplyCode α) (f : α → State → State) :
    ∃ g, request i n tag s x f = act i s g :=
  ⟨_, rfl⟩

theorem lineArrival_eq_act (i : Instr) (x : TerminalId) (a : LineArrival) (s : State) : ∃ g, lineArrival i x a s = act i s g :=
  ⟨_, rfl⟩

/-- A command that a stopped part does not take is one act. -/
theorem exec_eq_act (c : Instr) (h : takenStopped c = false) (s : State) : ∃ f, exec c s = act c s f := by
  cases c <;> simp only [exec]
  case frameSent | requestReset | supplySample | supplyResetEntry | resetLineLow | resetLineRelease | powerUp | supplyPinsFall
    | backupCellFailure => cases h
  case status | noticeMask | timeSet | reset | layoutGet | layoutSet | serviceStart | serviceStop | settingsGet | settingsStage
    | settingsDrop | dockGet | dockSetService | cardPut | cardGet | cardDrop | cardVerdict | journalRead | journalRelease | orderAdd
    | orderCancel | orderList | faultList | faultAck | faultClear | terminalGet | terminalEnable =>
    exact request_eq_act _ _ _ _ _ _
  case terminalHello | terminalTap | terminalPaid | terminalPick | terminalCancel | terminalBadRecord | terminalRecordDiscarded
    | lineBreak => exact lineArrival_eq_act _ _ _ _
  all_goals exact ⟨_, rfl⟩

/-! ### What is being sent -/

theorem begun_of_act {i : Instr} {s t : State} {f : State → State} (h : act i s f = .next t) (hs : s.host.begun = true) :
    t.host.begun = true := by
  simp only [act, Host.Outcome.next.injEq] at h
  subst h
  split
  case isTrue => exact begun_beginSending _
  case isFalse => exact hs

theorem begun_restart (s : State) (cause : ResetCause) : (s.restart cause).host.begun = true := by
  unfold State.restart
  split <;> exact begun_beginSending _

theorem begun_restartUnlessHeld (s : State) (cause : ResetCause) : (s.restartUnlessHeld cause).host.begun = true := by
  unfold State.restartUnlessHeld
  dsimp only
  split
  case isTrue => rfl
  case isFalse => exact begun_restart s cause

theorem execFrameSent_begun : Keeps (fun s => s.host.begun = true) execFrameSent := by
  intro s t h hs
  unfold execFrameSent at h
  split at h
  case h_1 => exact next_inj h ▸ hs
  case h_2 f _ _ =>
    cases hp : s.phase <;> simp only [hp] at h
    case running => exact begun_of_act h hs
    case resetAsked => exact next_inj h ▸ begun_beginSending _
    case shutdown => exact next_inj h ▸ begun_beginSending _
    all_goals exact next_inj h ▸ hs

theorem execSupplySample_begun (mains : Bool) (level : Byte) : Keeps (fun s => s.host.begun = true) (execSupplySample mains level) := by
  intro s t h hs
  unfold execSupplySample at h
  cases hp : s.phase <;> simp only [hp] at h
  case running => exact begun_of_act h hs
  case supplyReset =>
    refine next_inj h ▸ ?_
    unfold State.sampleInReset
    dsimp only
    split
    case isTrue => exact begun_restartUnlessHeld _ _
    case isFalse => exact hs
  all_goals exact next_inj h ▸ hs

theorem exec_begun (c : Instr) : Keeps (fun s => s.host.begun = true) (exec c) := by
  by_cases hc : takenStopped c = false
  case pos =>
    intro s t h hs
    obtain ⟨f, hf⟩ := exec_eq_act c hc s
    exact begun_of_act (hf ▸ h) hs
  cases c
  case frameSent => exact execFrameSent_begun
  case supplySample mains level => exact execSupplySample_begun mains level
  case requestReset =>
    refine keeps_next fun u hu => ?_
    split
    case isTrue => exact begun_restartUnlessHeld _ _
    case isFalse => exact hu
  case supplyResetEntry =>
    refine keeps_next fun u hu => ?_
    split
    case isTrue => rfl
    case isFalse => exact hu
  case resetLineLow => exact keeps_next fun u hu => by cases u.phase <;> first | exact hu | rfl
  case resetLineRelease =>
    refine keeps_next fun u hu => ?_
    split
    case isTrue => exact begun_restart _ _
    case isFalse => exact hu
  case powerUp =>
    refine keeps_next fun u hu => ?_
    split
    case isTrue => exact begun_restartUnlessHeld _ _
    case isFalse => exact hu
  case supplyPinsFall =>
    refine keeps_next fun u hu => ?_
    show (if u.phase = .pinsDown then u else u.darkened .pinsDown).host.begun = true
    split
    case isTrue => exact hu
    case isFalse => rfl
  case backupCellFailure =>
    refine keeps_next fun u hu => ?_
    split <;> exact hu
  all_goals exact absurd rfl hc

/-! ### The outline: what the configuration and the counts of the link are read from -/

structure Outline where
  layout : Layout
  live : Settings
  pendingSet : Option PendingSettings
  docks : Nat
  accounts : Nat
  waiting : List HostFrame
  badFrames : Nat
  overruns : Nat

def State.outline (s : State) : Outline where
  layout := s.store.layout
  live := s.store.live
  pendingSet := s.store.pendingSet
  docks := s.dock.table.length
  accounts := s.journal.account.length
  waiting := s.host.waiting
  badFrames := s.host.badFrames
  overruns := s.host.overruns

/-- The configuration is as R1, R184 and R185 have it, and the host link in its ranges (R190, R191). -/
def Outline.good (o : Outline) : Prop :=
  (o.layout.valid = true ∧ o.live.valid = true ∧ (∀ p ∈ o.pendingSet, p.settings.valid = true) ∧ o.docks = o.layout.dockCount
    ∧ o.accounts = o.layout.dockCount) ∧ o.waiting.length ≤ 2 ∧ o.badFrames ≤ 65535 ∧ o.overruns ≤ 65535

/-- The configuration and the link, beside what is being sent. -/
def State.sound (s : State) : Prop := s.outline.good

theorem sound_iff (s : State) :
    s.sound ↔ s.configured ∧ s.host.waiting.length ≤ 2 ∧ s.host.badFrames ≤ 65535 ∧ s.host.overruns ≤ 65535 :=
  Iff.rfl

theorem outline_of_fixtures {s t : State} (h : t.view.fixtures = s.view.fixtures) : t.outline = s.outline := by
  have hd := congrArg (List.length ∘ Fixtures.docks) h
  simp only [State.view, Function.comp, List.length_map] at hd
  have ho : ∀ u : State, u.outline = ⟨u.view.fixtures.layout, u.view.fixtures.live, u.view.fixtures.pendingSet, u.dock.table.length,
      u.view.fixtures.accounts, u.view.fixtures.waiting, u.view.fixtures.badFrames, u.view.fixtures.overruns⟩ := fun _ => rfl
  rw [ho, ho, h, hd]

theorem outline_of_view {s t : State} (h : t.view = s.view) : t.outline = s.outline := outline_of_fixtures (congrArg View.fixtures h)

theorem sound_of_outline {s t : State} (h : t.outline = s.outline) (hs : s.sound) : t.sound := by
  unfold State.sound
  rwa [h]

theorem sound_actKept : ActKept State.sound :=
  ⟨fun _ _ h => h, fun _ h => sound_of_outline (outline_of_view (by simp)) h⟩

theorem sound_reply {s : State} (n : Nat) (tag : Byte) (code : ReplyCode) (p : Payload) (hs : s.sound) :
    (s.reply n tag code p).sound :=
  hs

theorem sound_act {i : Instr} {f : State → State} (hf : ∀ u, u.sound → (f u).sound) : Keeps State.sound fun s => act i s f :=
  sound_actKept.act hf

theorem sound_request {α : Type} {i : Instr} {n : Nat} {tag : Byte} {x : Except ReplyCode α} {f : α → State → State}
    (hf : ∀ a u, x = .ok a → u.sound → (f a u).sound) : Keeps State.sound fun s => request i n tag s x f :=
  sound_actKept.request (fun _ n tag code h => sound_reply n tag code .nothing h) hf

theorem outline_onDock (s : State) (d : DockNo) (f : DockRecord → DockRecord) : (s.onDock d f).outline = s.outline := by
  simp [State.outline]

theorem outline_changeInput (s : State) (d : DockNo) (f : State → State) : (s.changeInput d f).outline = (f s).outline :=
  outline_of_fixtures (by simp)

theorem outline_changeCaps (s : State) (f : DockCaps → DockCaps) : (s.changeCaps f).outline = s.outline := by
  unfold State.changeCaps
  exact outline_of_fixtures (s := s.onDocks fun u => { u with caps := f u.caps }) (fixtures_foldl (fun _ _ => by simp) _ _)

theorem outline_changeHolds (s : State) (d : DockNo) (f : DockRecord → DockRecord) : (s.changeHolds d f).outline = s.outline := by
  have h : (s.changeInput d (·.onDock d f)).outline = s.outline := (outline_changeInput s d _).trans (outline_onDock s d f)
  unfold State.changeHolds
  dsimp only
  split
  case isTrue => exact (outline_of_view (by simp)).trans h
  case isFalse => exact h

theorem outline_setHold (s : State) (x : FaultSubject) (k : FaultKind) (dock : Option DockNo) (on : Bool) :
    (s.setHold x k dock on).outline = s.outline := by
  unfold State.setHold
  split
  case h_1 => exact outline_changeHolds s _ _
  case h_2 =>
    split
    case isTrue => exact outline_changeHolds s _ _
    case isFalse => rfl
  case h_3 => rfl
  case h_4 => rfl

theorem outline_resolveFault (s : State) (x : FaultSubject) (k : FaultKind) (dock : Option DockNo) :
    (s.resolveFault x k dock).outline = s.outline :=
  (outline_of_view (s := s.setHold x k dock false) (by simp [State.resolveFault])).trans (outline_setHold s x k dock false)

theorem outline_clearHolds (s : State) (d : DockNo) (r : DockRecord) : (s.clearHolds d r).outline = s.outline := by
  have hfold : (clearableKinds.foldl (fun s k => s.resolveRecord (.dock d) k) (s.changeHolds d DockRecord.cleared)).outline = s.outline :=
    (outline_of_view (view_foldl (fun _ _ => by simp) _ _)).trans (outline_changeHolds s d _)
  unfold State.clearHolds
  dsimp only
  generalize clearableKinds.foldl (fun s k => s.resolveRecord (.dock d) k) (s.changeHolds d DockRecord.cleared) = u at hfold
  rw [← hfold]
  (repeat' split) <;> exact outline_of_view (by simp)

theorem outline_clearDockKind (s : State) (d : DockNo) (k : FaultKind) : (s.clearDockKind d k).2.outline = s.outline := by
  have h := outline_resolveFault s (.dock d) k none
  unfold State.clearDockKind
  split
  case isTrue =>
    dsimp only
    split
    case isTrue => exact (outline_of_view (by simp)).trans h
    case isFalse => exact h
  case isFalse => rfl

theorem outline_clearLinkLoss (s : State) (d : DockNo) : (s.clearLinkLoss d).2.outline = s.outline := by
  have h := outline_resolveFault s (.dock d) .linkLoss none
  unfold State.clearLinkLoss
  split
  case isTrue =>
    split
    case h_1 => exact (outline_of_view (by simp)).trans h
    case h_2 => split <;> [exact h; rfl]
  case isFalse => rfl

theorem outline_clearRiderReport (s : State) (b : BikeId) : (s.clearRiderReport b).2.outline = s.outline := by
  unfold State.clearRiderReport
  dsimp only
  split
  case isTrue => exact outline_resolveFault s _ _ _
  case isFalse => rfl

theorem outline_clearFault (s : State) (x : FaultSubject) (k : FaultKind) : (s.clearFault x k).2.outline = s.outline := by
  unfold State.clearFault
  split
  case h_1 => exact outline_clearLinkLoss s _
  case h_6 => exact outline_clearRiderReport s _
  case h_7 => rfl
  all_goals exact outline_clearDockKind s _ _

theorem outline_enableLine (s : State) (x : TerminalId) : (s.enableLine x).outline = s.outline := by
  unfold State.enableLine
  split
  case isTrue => exact (outline_resolveFault _ _ _ _).trans (outline_of_view (by simp))
  case isFalse => rfl

/-- A change of the Dock Controller and the work in flight that keeps the number of docks. -/
theorem outline_of_only {s t : State} (h : Only [.dock, .inFlight] s t) (hl : t.dock.table.length = s.dock.table.length) :
    t.outline = s.outline := by
  unfold State.outline
  rw [h .store (by decide), h .journal (by decide), h .host (by decide), hl]

theorem outline_takeReport (s : State) (p : Poll) (r : DockRecord) (q : DockReport) (hr : s.dock? p.dock = some r) :
    (s.takeReport p r q).outline = s.outline := by
  obtain ⟨_, _, _, _, _, _, acts, _⟩ := acts_report s p r q hr
  exact outline_of_only (by simp) acts.oth.1

theorem outline_takeAnswer (s : State) (p : Poll) (r : DockRecord) (q : Option DockReport) (hr : s.dock? p.dock = some r) :
    (s.takeAnswer p r q).outline = s.outline := by
  unfold State.takeAnswer
  split
  case h_1 => exact outline_of_view (by simp)
  case h_2 =>
    split
    case isTrue => exact outline_takeReport s p r _ hr
    case isFalse => exact outline_of_view (by simp)

theorem polled_record {s : State} {x : Poll × DockRecord} (h : s.polled = some x) : s.dock? x.1.dock = some x.2 := by
  unfold State.polled at h
  split at h
  case h_1 => exact absurd h (by simp)
  case h_2 p _ =>
    obtain ⟨r, hr, rfl⟩ := Option.map_eq_some_iff.mp h
    exact hr

/-! ### The host link -/

theorem sound_onHost {s : State} {f : HostLink → HostLink} (hw : (f s.host).waiting.length ≤ 2) (hb : (f s.host).badFrames ≤ 65535)
    (ho : (f s.host).overruns ≤ 65535) (hs : s.sound) : (s.onHost f).sound :=
  ⟨hs.1, hw, hb, ho⟩

theorem sound_takeWaiting {s : State} (hs : s.sound) : s.takeWaiting.sound := by
  obtain ⟨hc, hw, hb, ho⟩ := (sound_iff s).mp hs
  unfold State.takeWaiting
  split
  case isTrue => exact hs
  case isFalse =>
    split
    case h_1 => exact hs
    case h_2 f rest hrest =>
      rw [hrest, List.length_cons] at hw
      exact sound_onHost (f := fun h => { h with waiting := rest, requestOpen := true }) (by dsimp only; omega) hb ho (s := s) hs

theorem sound_accept {s : State} (f : HostFrame) (hs : s.sound) : (s.onHost (·.accept f)).sound := by
  obtain ⟨_, hw, hb, ho⟩ := (sound_iff s).mp hs
  unfold HostLink.accept
  refine sound_onHost ?_ ?_ ?_ hs <;> split <;> simp_all [Config.frameRoom, Config.countLimit]

theorem sound_frameFound {s : State} (x : Found) (hs : s.sound) : (s.frameFound x).sound := by
  cases x with
  | good f => exact sound_takeWaiting (sound_accept f (sound_of_outline (outline_of_view (by simp)) hs))
  | bad =>
    obtain ⟨_, hw, _, ho⟩ := (sound_iff s).mp hs
    exact sound_onHost hw (Nat.min_le_left _ _) ho hs

theorem sound_receive {s : State} (bytes : List Byte) (hs : s.sound) : (s.receive bytes).sound := by
  have foldl : ∀ (l : List Found) (u : State), u.sound → (l.foldl State.frameFound u).sound := fun l => by
    induction l with
    | nil => exact fun _ h => h
    | cons x l ih => exact fun u h => ih _ (sound_frameFound x h)
  exact foldl _ _ hs

theorem sound_replySent {s : State} (f : OutFrame) (hs : s.sound) : (s.replySent f).sound := by
  unfold State.replySent
  split
  case isTrue => exact sound_takeWaiting hs
  case isFalse => exact hs

theorem sound_stopped {s : State} (p : Phase) (hs : s.sound) : (s.stopped p).sound := by
  obtain ⟨hc, _, hb, ho⟩ := (sound_iff s).mp hs
  exact ⟨hc, by simp [State.outline, State.stopped], hb, ho⟩

theorem sound_shutDown {s : State} (hs : s.sound) : s.shutDown.sound := sound_stopped (s := s) .shutdown hs

theorem sound_darkened {s : State} (p : Phase) (hs : s.sound) : (s.darkened p).sound := sound_stopped (s := s) p hs

theorem execFrameSent_sound : Keeps State.sound execFrameSent := by
  intro s t h hs
  unfold execFrameSent at h
  split at h
  case h_1 => exact next_inj h ▸ hs
  case h_2 f _ _ =>
    cases hp : s.phase <;> simp only [hp] at h
    case running =>
      have taken : ∀ u : State, u.sound → ((u.onHost HostLink.sent).replySent f).sound := fun u hu =>
        sound_replySent f (sound_of_outline (outline_of_view (by simp [HostLink.sent])) hu)
      exact sound_act taken s t h hs
    case resetAsked => exact next_inj h ▸ sound_of_outline (outline_of_view (by simp [HostLink.sent])) hs
    case shutdown => exact next_inj h ▸ sound_of_outline (outline_of_view (by simp [HostLink.sent])) hs
    all_goals exact next_inj h ▸ hs

/-! ### Settings -/

theorem sound_onStore {s : State} {f : Store → Store} (hl : (f s.store).layout = s.store.layout) (hv : (f s.store).live.valid = true)
    (hp : ∀ p ∈ (f s.store).pendingSet, p.settings.valid = true) (hs : s.sound) : (s.onStore f).sound := by
  obtain ⟨⟨h1, _, _, h4, h5⟩, hb⟩ := hs
  refine ⟨⟨?_, hv, hp, ?_, ?_⟩, hb⟩ <;> simpa [State.outline, hl]

theorem sound_switchSettings {s : State} {p : PendingSettings} (hp : s.store.pendingSet = some p) (hs : s.sound) :
    (s.switchSettings p).sound := by
  have hv : p.settings.valid = true := hs.1.2.2.1 p hp
  have switched : (s.onStore fun st => { st with live := p.settings, pendingSet := none }).sound :=
    sound_onStore (f := fun st => { st with live := p.settings, pendingSet := none }) rfl hv (by simp) hs
  unfold State.switchSettings
  dsimp only
  split <;> exact sound_of_outline (outline_of_view (by simp)) switched

theorem sound_switchIfDue {s : State} (hs : s.sound) : s.switchIfDue.sound := by
  unfold State.switchIfDue
  split
  case isTrue =>
    split
    case h_1 p hp => exact sound_switchSettings hp hs
    case h_2 => exact hs
  case isFalse => exact hs

/-! ### Operands -/

/-! ### Operands -/

theorem demand_ok {b : Bool} {u : Unit} (h : Operands.demand b = .ok u) : b = true := by
  unfold Operands.demand at h
  split at h
  case isTrue hb => exact hb
  case isFalse => cases h

theorem bind_ok {α β : Type} {x : Except ReplyCode α} {f : α → Except ReplyCode β} {b : β} (h : (x >>= f) = .ok b) :
    ∃ a, x = .ok a ∧ f a = .ok b := by
  cases x with
  | error code => cases h
  | ok a => exact ⟨a, rfl, h⟩

theorem fixed_ok {α : Type} {n : Nat} {body : List Byte} {f : List Byte → Except ReplyCode α} {a : α}
    (h : Operands.fixed n body f = .ok a) : body.length = n ∧ f body = .ok a := by
  unfold Operands.fixed at h
  split at h
  case isTrue hn => exact ⟨hn, h⟩
  case isFalse => cases h

theorem optional_ok {α : Type} {offset without extra : Nat} {body : List Byte} {f : Bool → List Byte → Except ReplyCode α} {a : α}
    (h : Operands.optional offset without extra body f = .ok a) : ∃ present, f present body = .ok a := by
  unfold Operands.optional at h
  split at h
  case isTrue => cases h
  case isFalse =>
    split at h
    case h_1 => split at h <;> [exact ⟨false, h⟩; cases h]
    case h_2 => split at h <;> [exact ⟨true, h⟩; cases h]
    case h_3 => cases h

theorem layoutSet_valid {body : List Byte} {l : Layout} (h : Operands.layoutSet body = .ok l) : l.valid = true := by
  obtain ⟨_, h⟩ := fixed_ok h
  obtain ⟨_, hv, h⟩ := bind_ok h
  cases h
  exact demand_ok hv

theorem settingsAt_valid {body : List Byte} {n : Nat} {x : Settings} (h : Operands.settingsAt body n = .ok x) : x.valid = true := by
  obtain ⟨_, _, h⟩ := bind_ok h
  obtain ⟨_, _, h⟩ := bind_ok h
  obtain ⟨_, hv, h⟩ := bind_ok h
  cases h
  exact demand_ok hv

theorem settingsStage_valid {body : List Byte} {p : PendingSettings} (h : Operands.settingsStage body = .ok p) :
    p.settings.valid = true := by
  obtain ⟨_, h⟩ := optional_ok h
  obtain ⟨_, hx, h⟩ := bind_ok h
  cases h
  exact settingsAt_valid hx

/-! ### Resets and samples -/

theorem sound_changePower {s : State} (p : PowerState) (hs : s.sound) : (s.changePower p).sound :=
  sound_of_outline (outline_of_view (by simp)) hs

theorem sound_testLevel {s : State} (level : Nat) (hs : s.sound) : (s.testLevel level).sound := by
  unfold State.testLevel
  dsimp only
  (repeat' split) <;> first | exact hs | exact sound_shutDown hs | exact sound_changePower _ hs

theorem sound_decidePower {s : State} (level : Nat) (hs : s.sound) : (s.decidePower level).sound := by
  unfold State.decidePower
  split
  case h_1 => exact hs
  case h_2 mains _ =>
    dsimp only
    have changed := sound_changePower (s := s.onSupply fun m => { m with decided := true }) (s.settings.powerFor mains level) hs
    split
    case isTrue => exact sound_shutDown changed
    case isFalse => exact changed

theorem sound_followPower {s : State} (before : Option Bool) (level : Nat) (hs : s.sound) : (s.followPower before level).sound := by
  unfold State.followPower
  refine sound_testLevel level ?_
  split
  case h_1 => exact hs
  case h_2 => split <;> [exact hs; exact sound_changePower _ hs]

theorem sound_takeSample {s : State} (mains : Bool) (level : Byte) (hs : s.sound) : (s.takeSample mains level).sound := by
  unfold State.takeSample
  dsimp only
  split
  case isTrue => exact sound_followPower (s := s.tick.onSupply _) _ _ hs
  case isFalse => exact sound_decidePower (s := s.tick.onSupply _) _ hs

theorem sound_reset : State.reset.sound := by
  refine ⟨⟨?_, ?_, ?_, ?_, ?_⟩, ?_, ?_, ?_⟩ <;> decide

theorem sound_coldStart (s : State) (cause : ResetCause) : (s.coldStart cause).sound :=
  sound_of_outline (s := State.reset) (by rw [coldStart_eq]; rfl) sound_reset

theorem sound_warmBlocks {s : State} (cause : ResetCause) (hs : s.sound) : (s.warmBlocks cause).sound := by
  obtain ⟨⟨h1, h2, h3, h4, h5⟩, _⟩ := (sound_iff s).mp hs
  refine ⟨⟨h1, h2, h3, ?_, h5⟩, ?_, ?_, ?_⟩
  · simpa [State.outline, State.warmBlocks, DockUnit.warm] using h4
  all_goals simp [State.outline, State.warmBlocks, HostLink.fresh]

theorem outline_closeForRestart (s : State) : s.closeForRestart.outline = s.outline := by
  unfold State.closeForRestart
  split
  case h_1 => rfl
  case h_2 => split <;> exact outline_of_view (by simp)

theorem outline_resolveLines (s : State) : s.resolveLines.outline = s.outline :=
  outline_of_view (view_foldl (fun _ _ => by simp) _ _)

theorem outline_retakeDocks (s : State) : s.retakeDocks.outline = s.outline :=
  outline_of_fixtures (fixtures_foldl (fun _ _ => by simp) _ _)

theorem sound_recountJournal {s : State} (hs : s.sound) : s.recountJournal.sound := by
  obtain ⟨⟨h1, h2, h3, h4, _⟩, hb⟩ := hs
  refine ⟨⟨h1, h2, h3, h4, ?_⟩, hb⟩
  simpa [State.outline, State.recountJournal] using h4

theorem sound_warmStart {s : State} (cause : ResetCause) (hs : s.sound) : (s.warmStart cause).sound := by
  have blocks := sound_warmBlocks cause hs
  have retaken : (s.warmBlocks cause).closeForRestart.resolveLines.retakeDocks.sound :=
    sound_of_outline ((outline_retakeDocks _).trans ((outline_resolveLines _).trans (outline_closeForRestart _))) blocks
  have admitted : (s.warmBlocks cause).closeForRestart.resolveLines.retakeDocks.recountJournal.admitWithheld.sound :=
    sound_of_outline (outline_of_fixtures (by simp)) (sound_recountJournal retaken)
  obtain ⟨hc, _⟩ := (sound_iff _).mp admitted
  refine (sound_iff _).mpr ⟨hc, ?_⟩
  simp [State.warmStart, HostLink.afterReset, HostLink.fresh]

theorem sound_restart {s : State} (cause : ResetCause) (hs : s.sound) : (s.restart cause).sound := by
  unfold State.restart
  split
  case isTrue => exact sound_warmStart cause hs
  case isFalse => exact sound_coldStart s cause

theorem sound_restartUnlessHeld {s : State} (cause : ResetCause) (hs : s.sound) : (s.restartUnlessHeld cause).sound := by
  unfold State.restartUnlessHeld
  dsimp only
  split
  case isTrue => exact sound_darkened _ (sound_restart cause hs)
  case isFalse => exact sound_restart cause hs

theorem sound_rebuilt {s : State} {l : Layout} (hl : l.valid = true) (hs : s.sound) : (s.rebuilt l).sound := by
  obtain ⟨⟨_, h2, h3, _⟩, hb⟩ := hs
  exact ⟨⟨hl, h2, h3, by simp [State.outline, State.rebuilt], by simp [State.outline, State.rebuilt]⟩, hb⟩

/-! ### Each command -/

theorem execSupplySample_sound (mains : Bool) (level : Byte) : Keeps State.sound (execSupplySample mains level) := by
  intro s t h hs
  unfold execSupplySample at h
  cases hp : s.phase <;> simp only [hp] at h
  case running => exact sound_act (fun u hu => sound_takeSample mains level hu) s t h hs
  case supplyReset =>
    refine next_inj h ▸ ?_
    unfold State.sampleInReset
    dsimp only
    split
    case isTrue => exact sound_restartUnlessHeld (s := s.tick.onSupply _) _ hs
    case isFalse => exact hs
  all_goals exact next_inj h ▸ hs

theorem execTimeSet_sound (tag : Byte) (body : List Byte) : Keeps State.sound (execTimeSet tag body) :=
  sound_request fun a u _ hu =>
    sound_reply 0x03 tag .ok .nothing (sound_switchIfDue (s := u.onStore fun st => { st with clock := a, clockUnset := false }) hu)

theorem execSettingsStage_sound (tag : Byte) (body : List Byte) : Keeps State.sound (execSettingsStage tag body) := by
  refine sound_request fun a u ha hu => sound_reply _ _ _ .nothing (sound_switchIfDue ?_)
  refine sound_onStore (f := fun st => { st with pendingSet := some a }) rfl hu.1.2.1 (fun p hp => ?_) hu
  cases hp
  exact settingsStage_valid ha

theorem execSettingsDrop_sound (tag : Byte) (body : List Byte) : Keeps State.sound (execSettingsDrop tag body) := by
  refine sound_request fun a u _ hu => ?_
  split
  case isTrue =>
    exact sound_reply _ _ _ .nothing (sound_onStore (f := fun st => { st with pendingSet := none }) rfl hu.1.2.1 (by simp) hu)
  case isFalse => exact hu

theorem execLayoutSet_sound (tag : Byte) (body : List Byte) : Keeps State.sound (execLayoutSet tag body) := by
  refine sound_request fun l u hl hu => ?_
  split
  case isTrue => exact hu
  case isFalse =>
    split
    case isTrue => exact hu
    case isFalse =>
      have dropped : u.dropQueries.sound := sound_of_outline (outline_of_view (by simp)) hu
      exact sound_reply _ _ _ .nothing (sound_rebuilt (layoutSet_valid hl) dropped)

theorem execDockSetService_sound (tag : Byte) (body : List Byte) : Keeps State.sound (execDockSetService tag body) := by
  refine sound_request fun q u _ hu => ?_
  split
  case isTrue => exact sound_reply _ _ _ _ (sound_of_outline ((outline_changeInput _ _ _).trans (outline_onDock _ _ _)) hu)
  case isFalse => exact hu

theorem execDockReport_sound (bytes : List Byte) : Keeps State.sound (execDockReport bytes) := by
  refine sound_act fun u hu => ?_
  split
  case h_1 => exact hu
  case h_2 x hx => exact sound_of_outline (outline_takeAnswer u x.1 x.2 _ (polled_record hx)) hu

theorem execFaultRaise_sound (x : FaultSubject) (k : FaultKind) (dock : Option DockNo) (carried : Carried) :
    Keeps State.sound (execFaultRaise x k dock carried) := by
  refine sound_act fun u hu => ?_
  split
  case isTrue => exact sound_of_outline ((outline_of_view (by simp)).trans (outline_setHold u x k dock true)) hu
  case isFalse => exact hu

theorem execHoldClear_sound (d : DockNo) : Keeps State.sound (execHoldClear d) := by
  refine sound_act fun u hu => ?_
  split
  case h_1 => exact hu
  case h_2 r _ => exact sound_of_outline ((outline_of_view (by simp)).trans (outline_clearHolds u d r)) hu

theorem execBikeArrivalNotice_sound (d : DockNo) (bike : BikeId) : Keeps State.sound (execBikeArrivalNotice d bike) := by
  refine sound_act fun u hu => ?_
  split
  case isTrue => exact sound_of_outline (outline_setHold u _ _ _ _) hu
  case isFalse => exact hu

theorem execFaultRemovalNotice_sound (d : DockNo) (bike : Option BikeId) : Keeps State.sound (execFaultRemovalNotice d bike) := by
  refine sound_act fun u hu => ?_
  have changed := sound_of_outline (outline_changeHolds u d (·.bikeGone bike)) hu
  cases bike <;> exact sound_of_outline (outline_of_view (by simp)) changed

theorem execFaultClear_sound (tag : Byte) (body : List Byte) : Keeps State.sound (execFaultClear tag body) := by
  intro s t h hs
  refine sound_request (fun q u _ hu => ?_) s t h hs
  exact sound_reply _ _ _ .nothing (sound_of_outline (outline_clearFault u q.1 q.2) hu)

theorem exec_sound (c : Instr) : Keeps State.sound (exec c) := by
  by_cases hc : changesFixtures c = false
  case pos => exact (exec_fixtures c hc).keeps fun _ _ hf hs => sound_of_outline (outline_of_fixtures hf) hs
  cases c
  case hostFrameGood bytes => exact sound_act fun _ hu => sound_receive bytes hu
  case hostFrameBad bytes => exact sound_act fun _ hu => sound_receive bytes hu
  case frameSent => exact execFrameSent_sound
  case timeSet => exact execTimeSet_sound _ _
  case settingsStage => exact execSettingsStage_sound _ _
  case settingsDrop => exact execSettingsDrop_sound _ _
  case settingsSwitch => exact sound_act fun _ hu => sound_switchIfDue hu
  case layoutSet => exact execLayoutSet_sound _ _
  case reset tag body => exact sound_request fun _ u _ hu => sound_stopped (s := u.reply 0x04 tag .ok) .resetAsked hu
  case dockSetService => exact execDockSetService_sound _ _
  case dockReport => exact execDockReport_sound _
  case dockCapChange c => exact sound_act fun u hu => sound_of_outline (outline_changeCaps u c.apply) hu
  case faultRaise => exact execFaultRaise_sound _ _ _ _
  case faultResolution x k dock => exact sound_act fun u hu => sound_of_outline (outline_resolveFault u x k dock) hu
  case holdClear => exact execHoldClear_sound _
  case bikeArrivalNotice => exact execBikeArrivalNotice_sound _ _
  case faultRemovalNotice => exact execFaultRemovalNotice_sound _ _
  case faultClear => exact execFaultClear_sound _ _
  case terminalEnable tag body =>
    exact sound_request fun x u _ hu => sound_reply 0x1B tag .ok .nothing (sound_of_outline (outline_enableLine u x) hu)
  case supplySample => exact execSupplySample_sound _ _
  case requestReset =>
    refine keeps_next fun u hu => ?_
    split
    case isTrue => exact sound_restartUnlessHeld _ hu
    case isFalse => exact hu
  case supplyResetEntry =>
    refine keeps_next fun u hu => ?_
    split
    case isTrue => exact sound_darkened (s := u) .supplyReset hu
    case isFalse => exact hu
  case resetLineLow =>
    have dark : ∀ u : State, u.sound → ({ u with resetLow := true }.darkened .lineLow).sound := fun u hu =>
      sound_darkened (s := { u with resetLow := true }) .lineLow hu
    exact keeps_next fun u hu => by cases u.phase <;> first | exact hu | exact dark u hu
  case resetLineRelease =>
    refine keeps_next fun u hu => ?_
    split
    case isTrue => exact sound_restart (s := { u with resetLow := false }) _ hu
    case isFalse => exact hu
  case powerUp =>
    refine keeps_next fun u hu => ?_
    split
    case isTrue => exact sound_restartUnlessHeld _ hu
    case isFalse => exact hu
  case supplyPinsFall =>
    refine keeps_next fun u hu => ?_
    split
    case isTrue => exact hu
    case isFalse => exact sound_darkened (s := u) .pinsDown hu
  case backupCellFailure =>
    refine keeps_next fun u hu => ?_
    split <;> exact hu
  all_goals exact absurd rfl hc

theorem configurationAndLink_iff (s : State) : (s.configured ∧ s.hostBounded) ↔ s.sound ∧ s.host.begun = true := by
  rw [sound_iff]
  unfold State.hostBounded
  tauto

/-- Settles O57: most commands leave the outline, which the configuration and the counts of the link are read from; a layout and a set
are tested before they are taken, and every act ends with the front frame being sent. -/
theorem configurationAndLinkAreKept : Obligations.ConfigurationAndLinkAreKept := by
  refine keptByStep_of_exec (fun _ _ h => h) fun c s t h hs => ?_
  rw [configurationAndLink_iff] at hs ⊢
  exact ⟨exec_sound c s t h hs.1, exec_begun c s t h hs.2⟩

end Sys2Proof.Machine
end

section
/-! Proofs. The tables with a capacity (the cards and queries, the grace list, the orders, the faults, the terminals), and what of the
operations leaves all of them as they were. -/

namespace Sys2Proof.Machine

/-- What the capacities, the keys and the conditions of the tables are read from. -/
structure Tables where
  card : CardUnit
  grace : List GraceEntry
  queue : List Order
  fault : FaultUnit
  term : Four Terminal
  layout : Layout

def State.tables (s : State) : Tables where
  card := s.card
  grace := s.release.grace
  queue := s.order.queue
  fault := s.fault
  term := s.term
  layout := s.store.layout

theorem tables_of_only {w : List Part} {s t : State} (h : Only w s t)
    (hw : ∀ p ∈ [Part.card, .release, .order, .fault, .term, .store], p ∉ w) : t.tables = s.tables := by
  have card : t.card = s.card := h .card (hw _ (by decide))
  have release : t.release = s.release := h .release (hw _ (by decide))
  have order : t.order = s.order := h .order (hw _ (by decide))
  have fault : t.fault = s.fault := h .fault (hw _ (by decide))
  have term : t.term = s.term := h .term (hw _ (by decide))
  have store : t.store = s.store := h .store (hw _ (by decide))
  simp only [State.tables, card, release, order, fault, term, store]

/-! ### One update -/

@[simp] theorem tables_onHost (s : State) (f : HostLink → HostLink) : (s.onHost f).tables = s.tables := rfl
@[simp] theorem tables_onDocks (s : State) (f : DockUnit → DockUnit) : (s.onDocks f).tables = s.tables := rfl
@[simp] theorem tables_onDock (s : State) (d : DockNo) (f : DockRecord → DockRecord) : (s.onDock d f).tables = s.tables := rfl
@[simp] theorem tables_onJournal (s : State) (f : Journal → Journal) : (s.onJournal f).tables = s.tables := rfl
@[simp] theorem tables_onSupply (s : State) (f : SupplyMonitor → SupplyMonitor) : (s.onSupply f).tables = s.tables := rfl
@[simp] theorem tables_onVan (s : State) (f : VanSession → VanSession) : (s.onVan f).tables = s.tables := rfl
@[simp] theorem tables_post (s : State) (i : Instr) : (s.post i).tables = s.tables := rfl
@[simp] theorem tables_postAll (s : State) (l : List Instr) : (s.postAll l).tables = s.tables := rfl
@[simp] theorem tables_taking (s : State) (i : Instr) : (s.taking i).tables = s.tables := rfl

@[simp] theorem tables_onStore (s : State) (f : Store → Store) (h : (f s.store).layout = s.store.layout) :
    (s.onStore f).tables = s.tables := by
  simp [State.tables, h]

@[simp] theorem tables_onRelease (s : State) (f : ReleaseUnit → ReleaseUnit) (h : (f s.release).grace = s.release.grace) :
    (s.onRelease f).tables = s.tables := by
  simp [State.tables, h]

@[simp] theorem tables_onOrders (s : State) (f : OrderUnit → OrderUnit) (h : (f s.order).queue = s.order.queue) :
    (s.onOrders f).tables = s.tables := by
  simp [State.tables, h]

theorem tables_foldl {α : Type} {f : State → α → State} (h : ∀ s a, (f s a).tables = s.tables) (l : List α) (s : State) :
    (l.foldl f s).tables = s.tables := by
  induction l generalizing s with
  | nil => rfl
  | cons a l ih => rw [List.foldl_cons, ih, h]

/-! ### Each operation -/

@[simp] theorem tables_postIf (s : State) (b : Bool) (i : Instr) : (s.postIf b i).tables = s.tables :=
  tables_of_only (w := [.host, .inFlight, .dock, .journal, .supply, .now, .phase]) (by simp) (by decide)
@[simp] theorem tables_postPass (s : State) : (s.postPass).tables = s.tables :=
  tables_of_only (w := [.host, .inFlight, .dock, .journal, .supply, .now, .phase]) (by simp) (by decide)
@[simp] theorem tables_join (s : State) (k : NoticeKind) : (s.join k).tables = s.tables := rfl
@[simp] theorem tables_reply (s : State) (k : Nat) (g : Byte) (c : ReplyCode) (y : Payload) :
    (s.reply k g c y).tables = s.tables := rfl
@[simp] theorem tables_readerWaits (s : State) (d : DockNo) (r : ReaderResult) : (s.readerWaits d r).tables = s.tables := rfl
@[simp] theorem tables_readerDecided (s : State) (d : DockNo) (r : ReaderResult) : (s.readerDecided d r).tables = s.tables := rfl
@[simp] theorem tables_tellPlace (s : State) (p : Place) (r : CheckResult) : (s.tellPlace p r).tables = s.tables :=
  tables_of_only (w := [.host, .inFlight, .dock, .journal, .supply, .now, .phase]) (by simp) (by decide)
@[simp] theorem tables_denyPlace (s : State) (p : Place) (y : DenyReason) : (s.denyPlace p y).tables = s.tables :=
  tables_of_only (w := [.host, .inFlight, .dock, .journal, .supply, .now, .phase]) (by simp) (by decide)
@[simp] theorem tables_raise (s : State) (x : FaultSubject) (k : FaultKind) (d : Option DockNo) (c : Carried) :
    (s.raise x k d c).tables = s.tables := rfl
@[simp] theorem tables_raiseLockJam (s : State) (c : Claim) : (s.raiseLockJam c).tables = s.tables := rfl
@[simp] theorem tables_onClaim (s : State) (d : DockNo) (f : Claim → Claim) : (s.onClaim d f).tables = s.tables := rfl
@[simp] theorem tables_addClaim (s : State) (c : Claim) : (s.addClaim c).tables = s.tables := rfl
@[simp] theorem tables_removeClaim (s : State) (d : DockNo) : (s.removeClaim d).tables = s.tables := rfl
@[simp] theorem tables_setCommand (s : State) (d : DockNo) (c : LockCommand) : (s.setCommand d c).tables = s.tables := rfl
@[simp] theorem tables_onAccount (s : State) (d : DockNo) (f : DockAccount → DockAccount) :
    (s.onAccount d f).tables = s.tables := rfl
@[simp] theorem tables_relamp (s : State) (d : DockNo) : (s.relamp d).tables = s.tables := rfl
@[simp] theorem tables_changeSlot (s : State) (d : DockNo) (f : DockRecord → DockRecord) : (s.changeSlot d f).tables = s.tables :=
  tables_of_only (w := [.host, .inFlight, .dock, .journal, .supply, .now, .phase]) (by simp) (by decide)
@[simp] theorem tables_takeSlot (s : State) (d : DockNo) : (s.takeSlot d).tables = s.tables :=
  tables_of_only (w := [.host, .inFlight, .dock, .journal, .supply, .now, .phase]) (by simp) (by decide)
@[simp] theorem tables_endClaim (s : State) (d : DockNo) : (s.endClaim d).tables = s.tables := by simp [State.endClaim]
@[simp] theorem tables_dropClaim (s : State) (c : Claim) (n : VanNews) :
    (s.dropClaim c n).tables = s.tables := by simp [State.dropClaim]
@[simp] theorem tables_displace (s : State) (d : DockNo) : (s.displace d).tables = s.tables := by
  unfold State.displace
  (repeat' split) <;> simp
@[simp] theorem tables_takeLevel (s : State) (d : DockNo) (l : Level) : (s.takeLevel d l).tables = s.tables := by
  unfold State.takeLevel
  dsimp only
  (repeat' split) <;> simp
@[simp] theorem tables_admitDock (s : State) (d : DockNo) : (s.admitDock d).tables = s.tables :=
  tables_of_only (w := [.host, .inFlight, .dock, .journal, .supply, .now, .phase]) (by simp) (by decide)
@[simp] theorem tables_appendEntry (s : State) (e : Entry) : (s.appendEntry e).tables = s.tables := rfl
@[simp] theorem tables_tellAccount (s : State) (d : DockNo) (c : CountChange) : (s.tellAccount d c).tables = s.tables :=
  tables_of_only (w := [.host, .inFlight, .dock, .journal, .supply, .now, .phase]) (by simp) (by decide)
@[simp] theorem tables_admitUpTo (s : State) (n : Nat) : (s.admitUpTo n).tables = s.tables :=
  tables_of_only (w := [.host, .inFlight, .dock, .journal, .supply, .now, .phase]) (by simp) (by decide)
@[simp] theorem tables_admitWithheld (s : State) : (s.admitWithheld).tables = s.tables :=
  tables_of_only (w := [.host, .inFlight, .dock, .journal, .supply, .now, .phase]) (by simp) (by decide)
@[simp] theorem tables_disown (s : State) (x : TerminalId) : (s.disown x).tables = s.tables := rfl
@[simp] theorem tables_tellDock (s : State) (d : DockNo) : (s.tellDock d).tables = s.tables := rfl
@[simp] theorem tables_tellOwner (s : State) (c : Claim) (n : ClaimNews) : (s.tellOwner c n).tables = s.tables :=
  tables_of_only (w := [.host, .inFlight, .dock, .journal, .supply, .now, .phase]) (by simp) (by decide)
@[simp] theorem tables_holdRequest (s : State) (q : ClaimRequest) : (s.holdRequest q).tables = s.tables := rfl
@[simp] theorem tables_dropRequest (s : State) (d : DockNo) : (s.dropRequest d).tables = s.tables := rfl
@[simp] theorem tables_leaveReserved (s : State) (d : DockNo) (o : Option OrderId) : (s.leaveReserved d o).tables = s.tables :=
  tables_of_only (w := [.host, .inFlight, .dock, .journal, .supply, .now, .phase]) (by simp) (by decide)
@[simp] theorem tables_releaseReserved (s : State) (d : DockNo) (o : OrderId) (c : CardId) :
    (s.releaseReserved d o c).tables = s.tables := by
  unfold State.releaseReserved
  split <;> simp
@[simp] theorem tables_refuseVan (s : State) (d : DockNo) (y : DenyReason) : (s.refuseVan d y).tables = s.tables :=
  tables_of_only (w := [.host, .inFlight, .dock, .journal, .supply, .now, .phase]) (by simp) (by decide)
@[simp] theorem tables_endUntaken (s : State) (c : Claim) (n : ClaimNews) : (s.endUntaken c n).tables = s.tables := by
  unfold State.endUntaken
  (repeat' split) <;> simp
@[simp] theorem tables_lapse (s : State) (c : Claim) (k : LockCommand) : (s.lapse c k).tables = s.tables := by simp [State.lapse]
@[simp] theorem tables_fail (s : State) (c : Claim) (k : LockCommand) : (s.fail c k).tables = s.tables := by simp [State.fail]
@[simp] theorem tables_released (s : State) (c : Claim) : (s.released c).tables = s.tables := by simp [State.released]
@[simp] theorem tables_jam (s : State) (c : Claim) : (s.jam c).tables = s.tables := rfl
@[simp] theorem tables_relock (s : State) (c : Claim) : (s.relock c).tables = s.tables := rfl
@[simp] theorem tables_orphan (s : State) (c : Claim) : (s.orphan c).tables = s.tables := by
  unfold State.orphan
  split <;> simp
@[simp] theorem tables_reconcile (s : State) (c : Claim) (l : LockState) : (s.reconcile c l).tables = s.tables := by
  unfold State.reconcile
  (repeat' split) <;> simp
@[simp] theorem tables_setStation (s : State) (x : StationState) : (s.setStation x).tables = s.tables := rfl
@[simp] theorem tables_hearHost (s : State) : (s.hearHost).tables = s.tables :=
  tables_of_only (w := [.host, .inFlight, .dock, .journal, .supply, .now, .phase]) (by simp) (by decide)
@[simp] theorem tables_changePower (s : State) (p : PowerState) : (s.changePower p).tables = s.tables :=
  tables_of_only (w := [.host, .inFlight, .dock, .journal, .supply, .now, .phase]) (by simp) (by decide)
@[simp] theorem tables_passRider (s : State) (r : CardRecord) (p : Place) : (s.passRider r p).tables = s.tables :=
  tables_of_only (w := [.host, .inFlight, .dock, .journal, .supply, .now, .phase]) (by simp) (by decide)
@[simp] theorem tables_passService (s : State) (r : CardRecord) (p : Place) : (s.passService r p).tables = s.tables :=
  tables_of_only (w := [.host, .inFlight, .dock, .journal, .supply, .now, .phase]) (by simp) (by decide)
@[simp] theorem tables_passTap (s : State) (r : CardRecord) (p : Place) : (s.passTap r p).tables = s.tables :=
  tables_of_only (w := [.host, .inFlight, .dock, .journal, .supply, .now, .phase]) (by simp) (by decide)
@[simp] theorem tables_finishCheck (s : State) (r : CardRecord) (p : Place) : (s.finishCheck r p).tables = s.tables :=
  tables_of_only (w := [.host, .inFlight, .dock, .journal, .supply, .now, .phase]) (by simp) (by decide)
@[simp] theorem tables_endPoll (s : State) (d : DockNo) (r : DockRecord) : (s.endPoll d r).tables = s.tables :=
  tables_of_only (w := [.host, .inFlight, .dock, .journal, .supply, .now, .phase]) (by simp) (by decide)
@[simp] theorem tables_stepLock (s : State) (d : DockNo) (l : LockState) : (s.stepLock d l).tables = s.tables :=
  tables_of_only (w := [.host, .inFlight, .dock, .journal, .supply, .now, .phase]) (by simp) (by decide)
@[simp] theorem tables_stepSlot (s : State) (d : DockNo) (m : SlotMode) : (s.stepSlot d m).tables = s.tables :=
  tables_of_only (w := [.host, .inFlight, .dock, .journal, .supply, .now, .phase]) (by simp) (by decide)
@[simp] theorem tables_settleEntry (s : State) (d : DockNo) (b : Option BikeId) : (s.settleEntry d b).tables = s.tables :=
  tables_of_only (w := [.host, .inFlight, .dock, .journal, .supply, .now, .phase]) (by simp) (by decide)
@[simp] theorem tables_takeTag (s : State) (d : DockNo) (b : Bike) (o : Bool) : (s.takeTag d b o).tables = s.tables :=
  tables_of_only (w := [.host, .inFlight, .dock, .journal, .supply, .now, .phase]) (by simp) (by decide)
@[simp] theorem tables_missTag (s : State) (d : DockNo) (r : DockRecord) : (s.missTag d r).tables = s.tables :=
  tables_of_only (w := [.host, .inFlight, .dock, .journal, .supply, .now, .phase]) (by simp) (by decide)
@[simp] theorem tables_stepTag (s : State) (d : DockNo) (b : Option Bike) : (s.stepTag d b).tables = s.tables :=
  tables_of_only (w := [.host, .inFlight, .dock, .journal, .supply, .now, .phase]) (by simp) (by decide)
@[simp] theorem tables_noteChatter (s : State) (d : DockNo) : (s.noteChatter d).tables = s.tables :=
  tables_of_only (w := [.host, .inFlight, .dock, .journal, .supply, .now, .phase]) (by simp) (by decide)
@[simp] theorem tables_takeOrder (s : State) (d : DockNo) : (s.takeOrder d).tables = s.tables := rfl
@[simp] theorem tables_openReportWindow (s : State) (d : DockNo) : (s.openReportWindow d).tables = s.tables :=
  tables_of_only (w := [.host, .inFlight, .dock, .journal, .supply, .now, .phase]) (by simp) (by decide)
@[simp] theorem tables_countedInsertion (s : State) (d : DockNo) (r : DockRecord) (b : Bool) :
    (s.countedInsertion d r b).tables = s.tables :=
  tables_of_only (w := [.host, .inFlight, .dock, .journal, .supply, .now, .phase]) (by simp) (by decide)
@[simp] theorem tables_uncountedInsertion (s : State) (d : DockNo) : (s.uncountedInsertion d).tables = s.tables :=
  tables_of_only (w := [.host, .inFlight, .dock, .journal, .supply, .now, .phase]) (by simp) (by decide)
@[simp] theorem tables_tellRemoval (s : State) (d : DockNo) (b : Option BikeId) : (s.tellRemoval d b).tables = s.tables :=
  tables_of_only (w := [.host, .inFlight, .dock, .journal, .supply, .now, .phase]) (by simp) (by decide)
@[simp] theorem tables_removal (s : State) (d : DockNo) (r : DockRecord) : (s.removal d r).tables = s.tables :=
  tables_of_only (w := [.host, .inFlight, .dock, .journal, .supply, .now, .phase]) (by simp) (by decide)
@[simp] theorem tables_applyDecision (s : State) (d : DockNo) (b : Bool) (q : Decision) :
    (s.applyDecision d b q).tables = s.tables :=
  tables_of_only (w := [.host, .inFlight, .dock, .journal, .supply, .now, .phase]) (by simp) (by decide)
@[simp] theorem tables_testSensor (s : State) (d : DockNo) : (s.testSensor d).tables = s.tables :=
  tables_of_only (w := [.host, .inFlight, .dock, .journal, .supply, .now, .phase]) (by simp) (by decide)
@[simp] theorem tables_stepPresence (s : State) (d : DockNo) (n : Nat) (b : Bool) : (s.stepPresence d n b).tables = s.tables :=
  tables_of_only (w := [.host, .inFlight, .dock, .journal, .supply, .now, .phase]) (by simp) (by decide)
@[simp] theorem tables_stepTap (s : State) (d : DockNo) (c : Option CardId) : (s.stepTap d c).tables = s.tables :=
  tables_of_only (w := [.host, .inFlight, .dock, .journal, .supply, .now, .phase]) (by simp) (by decide)
@[simp] theorem tables_stepPress (s : State) (d : DockNo) (n : Nat) : (s.stepPress d n).tables = s.tables :=
  tables_of_only (w := [.host, .inFlight, .dock, .journal, .supply, .now, .phase]) (by simp) (by decide)
@[simp] theorem tables_stepBattery (s : State) (d : DockNo) (n : Option Nat) : (s.stepBattery d n).tables = s.tables :=
  tables_of_only (w := [.host, .inFlight, .dock, .journal, .supply, .now, .phase]) (by simp) (by decide)
@[simp] theorem tables_stepJoin (s : State) (d : DockNo) (b : Bool) : (s.stepJoin d b).tables = s.tables :=
  tables_of_only (w := [.host, .inFlight, .dock, .journal, .supply, .now, .phase]) (by simp) (by decide)
@[simp] theorem tables_takeReport (s : State) (p : Poll) (r : DockRecord) (q : DockReport) :
    (s.takeReport p r q).tables = s.tables :=
  tables_of_only (w := [.host, .inFlight, .dock, .journal, .supply, .now, .phase]) (by simp) (by decide)
@[simp] theorem tables_missPoll (s : State) (d : DockNo) (r : DockRecord) : (s.missPoll d r).tables = s.tables :=
  tables_of_only (w := [.host, .inFlight, .dock, .journal, .supply, .now, .phase]) (by simp) (by decide)
@[simp] theorem tables_takeAnswer (s : State) (p : Poll) (r : DockRecord) (q : Option DockReport) :
    (s.takeAnswer p r q).tables = s.tables :=
  tables_of_only (w := [.host, .inFlight, .dock, .journal, .supply, .now, .phase]) (by simp) (by decide)
@[simp] theorem tables_changeInput (s : State) (d : DockNo) (f : State → State) : (s.changeInput d f).tables = (f s).tables := by
  simp [State.changeInput]
@[simp] theorem tables_changeHolds (s : State) (d : DockNo) (f : DockRecord → DockRecord) : (s.changeHolds d f).tables = s.tables := by
  unfold State.changeHolds
  dsimp only
  split <;> simp
@[simp] theorem tables_changeCaps (s : State) (f : DockCaps → DockCaps) : (s.changeCaps f).tables = s.tables := by
  unfold State.changeCaps
  exact tables_foldl (fun _ _ => by simp) _ _
@[simp] theorem tables_setHold (s : State) (x : FaultSubject) (k : FaultKind) (dock : Option DockNo) (on : Bool) :
    (s.setHold x k dock on).tables = s.tables := by
  unfold State.setHold
  (repeat' split) <;> simp
@[simp] theorem tables_tellJamCleared (s : State) (d : DockNo) : (s.tellJamCleared d).tables = s.tables :=
  tables_of_only (w := [.host, .inFlight, .dock, .journal, .supply, .now, .phase]) (by simp) (by decide)
@[simp] theorem tables_restartIdle (s : State) : (s.restartIdle).tables = s.tables := rfl
@[simp] theorem tables_holdToTarget (s : State) : (s.holdToTarget).tables = s.tables :=
  tables_of_only (w := [.host, .inFlight, .dock, .journal, .supply, .now, .phase]) (by simp) (by decide)
@[simp] theorem tables_leaveDock (s : State) (d : DockNo) (o : OrderId) : (s.leaveDock d o).tables = s.tables := by
  unfold State.leaveDock
  split <;> simp
theorem tables_reserve {s s' : State} {d : DockNo} {o : OrderId} (h : s.reserve d o = .ok s') : s'.tables = s.tables := by
  unfold State.reserve at h
  (repeat' split at h) <;> cases h
  simp
@[simp] theorem tables_tryReserve (s : State) (d : DockNo) (o : OrderId) : (s.tryReserve d o).tables = s.tables := by
  unfold State.tryReserve
  split
  case h_1 hr => exact tables_reserve hr
  case h_2 => rfl
@[simp] theorem tables_passDock (s : State) (d : DockNo) : (s.passDock d).tables = s.tables := by
  unfold State.passDock
  (repeat' split) <;> simp
@[simp] theorem tables_placementPass (s : State) : s.placementPass.tables = s.tables := by
  unfold State.placementPass
  split
  case isTrue => exact tables_foldl (fun _ _ => by simp) _ _
  case isFalse => rfl
@[simp] theorem tables_moveTap (s : State) (v : VanSession) (c : CardId) (d : DockNo) : (s.moveTap v c d).tables = s.tables :=
  tables_of_only (w := [.host, .inFlight, .dock, .journal, .supply, .now, .phase]) (by simp) (by decide)
@[simp] theorem tables_collectTap (s : State) (v : VanSession) (c : CardId) (d : DockNo) :
    (s.collectTap v c d).tables = s.tables :=
  tables_of_only (w := [.host, .inFlight, .dock, .journal, .supply, .now, .phase]) (by simp) (by decide)
@[simp] theorem tables_deliverTap (s : State) (v : VanSession) (d : DockNo) : (s.deliverTap v d).tables = s.tables := by
  unfold State.deliverTap
  split <;> simp

end Sys2Proof.Machine
end

section
/-! Proofs. The conditions on each table with a capacity (R45, R61, R91, R98, R102, R132, R154), and which changes of the tables keep
them. -/

namespace Sys2Proof.Machine

/-! ### One condition for each table -/

def CardsFit (room : Nat) (l : List CardRecord) : Prop := l.length ≤ room ∧ (l.map (·.card)).Nodup ∧ ∀ r ∈ l, r.used ≤ r.credit

def QueriesFit (l : List Query) : Prop :=
  l.length ≤ 8 ∧ (l.map (·.card)).Nodup ∧ (l.map (·.tag)).Nodup ∧ ∀ q ∈ l, q.waiters.length ≤ 4 ∧ q.tag ≠ 0

def FaultsFit (room : Nat) (u : FaultUnit) : Prop :=
  u.table.length ≤ room ∧ (u.table.map fun r => (r.subject, r.kind)).Nodup
    ∧ (∀ r ∈ u.table, r.repeats ≤ 255 ∧ ¬ (r.condition = .resolved ∧ r.report = .acked)) ∧ u.lost ≤ 65535

def GraceFits (l : List GraceEntry) : Prop := l.length ≤ 64 ∧ (l.map (·.bike)).Nodup

def OrdersFit (l : List Order) : Prop := l.length ≤ 8 ∧ (l.map (·.id)).Nodup ∧ ∀ o ∈ l, o.done ≤ o.quantity

def Terminal.fits (x : Terminal) : Prop := x.badCount < 4 ∧ x.restful

structure Tables.good (x : Tables) : Prop where
  cards : CardsFit x.layout.journalBase x.card.table
  queries : QueriesFit x.card.queries
  tag : x.card.nextTag ≠ 0
  faults : FaultsFit (Config.storeSlots - x.layout.faultBase) x.fault
  grace : GraceFits x.grace
  orders : OrdersFit x.queue
  terms : ∀ i, (x.term.get i).fits

def State.tabled (s : State) : Prop := s.tables.good

theorem tabled_iff (s : State) : s.tabled
    ↔ s.cardsKept ∧ s.queriesKept ∧ s.faultsKept ∧ s.graceKept ∧ s.ordersKept ∧ s.terminalsKept :=
  ⟨fun ⟨cards, ⟨q1, q2, q3, q4⟩, tag, faults, grace, orders, terms⟩ => ⟨cards, ⟨q1, q2, q3, q4, tag⟩, faults, grace, orders, terms⟩,
    fun ⟨cards, ⟨q1, q2, q3, q4, tag⟩, faults, grace, orders, terms⟩ => ⟨cards, ⟨q1, q2, q3, q4⟩, tag, faults, grace, orders, terms⟩⟩

theorem tabled_of_tables {s t : State} (h : t.tables = s.tables) (hs : s.tabled) : t.tabled := by
  unfold State.tabled
  rwa [h]

/-! ### Lists with a key -/

theorem nodup_map_filter {α β : Type} {l : List α} {k : α → β} (p : α → Bool) (h : (l.map k).Nodup) : ((l.filter p).map k).Nodup :=
  h.sublist (List.filter_sublist.map k)

theorem nodup_map_update {α β : Type} {l : List α} {k : α → β} {f : α → α} (hf : ∀ a, k (f a) = k a) (h : (l.map k).Nodup) :
    ((l.map f).map k).Nodup := by
  rwa [List.map_map, show k ∘ f = k from funext hf]

theorem nodup_map_append {α β : Type} {l : List α} {k : α → β} {a : α} (h : (l.map k).Nodup) (ha : ∀ x ∈ l, k x ≠ k a) :
    ((l ++ [a]).map k).Nodup := by
  rw [List.map_append, List.nodup_append]
  refine ⟨h, by simp, fun x hx y hy => ?_⟩
  obtain ⟨b, hb, rfl⟩ := List.mem_map.mp hx
  rw [List.map_singleton, List.mem_singleton] at hy
  exact hy ▸ ha b hb

theorem eq_of_key {α β : Type} {l : List α} {k : α → β} (h : (l.map k).Nodup) {a b : α} (ha : a ∈ l) (hb : b ∈ l) (hk : k a = k b) :
    a = b :=
  List.inj_on_of_nodup_map h ha hb hk

theorem length_filter_lt_of_mem {α : Type} {l : List α} {p : α → Bool} {a : α} (ha : a ∈ l) (hp : p a = false) :
    (l.filter p).length < l.length :=
  List.length_filter_lt_length_iff_exists.mpr ⟨a, ha, by simp [hp]⟩

/-! ### Cards -/

theorem cardsFit_filter {room : Nat} {l : List CardRecord} (p : CardRecord → Bool) (h : CardsFit room l) : CardsFit room (l.filter p) :=
  ⟨(List.length_filter_le p l).trans h.1, nodup_map_filter p h.2.1, fun r hr => h.2.2 r (List.mem_of_mem_filter hr)⟩

theorem cardsFit_install {room : Nat} {u : CardUnit} {r : CardRecord} (h : CardsFit room u.table) (hu : r.used ≤ r.credit)
    (hroom : (∃ x ∈ u.table, x.card = r.card) ∨ u.table.length < room) : CardsFit room (u.install r).table := by
  obtain ⟨hl, hk, hused⟩ := h
  unfold CardUnit.install
  dsimp only
  split
  case isTrue =>
    refine ⟨by simpa, nodup_map_update (fun x => ?_) hk, fun x hx => ?_⟩
    · split <;> simp [*]
    · obtain ⟨y, hy, rfl⟩ := List.mem_map.mp hx
      split
      case isTrue => exact hu
      case isFalse => exact hused y hy
  case isFalse hnone =>
    have fresh : ∀ x ∈ u.table, x.card ≠ r.card := by simpa using hnone
    have free : u.table.length < room := hroom.resolve_left fun ⟨x, hx, he⟩ => fresh x hx he
    refine ⟨by simpa using free, nodup_map_append hk fresh, fun x hx => ?_⟩
    rcases List.mem_append.mp hx with hx | hx
    · exact hused x hx
    · exact List.mem_singleton.mp hx ▸ hu

theorem cardsFit_setUsed {room : Nat} {l : List CardRecord} {card : CardId} {f : Nat → Nat} (h : CardsFit room l)
    (hf : ∀ r ∈ l, r.card = card → f r.used ≤ r.credit) :
    CardsFit room (l.map fun r => if r.card = card then { r with used := f r.used } else r) := by
  refine ⟨by simpa using h.1, nodup_map_update (fun r => by split <;> rfl) h.2.1, fun x hx => ?_⟩
  obtain ⟨r, hr, rfl⟩ := List.mem_map.mp hx
  split
  case isTrue hc => exact hf r hr hc
  case isFalse => exact h.2.2 r hr

/-! ### Queries -/

theorem queriesFit_filter {l : List Query} (p : Query → Bool) (h : QueriesFit l) : QueriesFit (l.filter p) :=
  ⟨(List.length_filter_le p l).trans h.1, nodup_map_filter p h.2.1, nodup_map_filter p h.2.2.1,
    fun q hq => h.2.2.2 q (List.mem_of_mem_filter hq)⟩

/-- A change of the waiters of queries. -/
theorem queriesFit_waiters {l : List Query} (f : Query → List Place) (h : QueriesFit l) (hf : ∀ q ∈ l, (f q).length ≤ 4) :
    QueriesFit (l.map fun q => { q with waiters := f q }) := by
  refine ⟨by simpa using h.1, nodup_map_update (fun _ => rfl) h.2.1, nodup_map_update (fun _ => rfl) h.2.2.1, fun x hx => ?_⟩
  obtain ⟨q, hq, rfl⟩ := List.mem_map.mp hx
  exact ⟨hf q hq, (h.2.2.2 q hq).2⟩

theorem queriesFit_append {l : List Query} {q : Query} (h : QueriesFit l) (hl : l.length < 8) (hcard : ∀ x ∈ l, x.card ≠ q.card)
    (htag : ∀ x ∈ l, x.tag ≠ q.tag) (hw : q.waiters.length ≤ 4) (h0 : q.tag ≠ 0) : QueriesFit (l ++ [q]) := by
  refine ⟨by simpa using hl, nodup_map_append h.2.1 hcard, nodup_map_append h.2.2.1 htag, fun x hx => ?_⟩
  rcases List.mem_append.mp hx with hx | hx
  · exact h.2.2.2 x hx
  · exact List.mem_singleton.mp hx ▸ ⟨hw, h0⟩

theorem queriesFit_nil : QueriesFit [] := ⟨by simp, by simp, by simp, by simp⟩

theorem tagAfter_ne_zero (t : Byte) : tagAfter t ≠ 0 := by
  unfold tagAfter
  split <;> bv_omega

theorem toNat_tagAfter (t : Byte) : (tagAfter t).toNat = t.toNat % 255 + 1 := by
  unfold tagAfter
  split <;> bv_omega

/-- The tag `k` steps on. -/
def tagOn (t : Byte) (k : Nat) : Byte := tagAfter^[k] t

theorem tagOn_facts {t : Byte} (h : t ≠ 0) (k : Nat) : tagOn t k ≠ 0 ∧ (tagOn t k).toNat = (t.toNat - 1 + k) % 255 + 1 := by
  induction k with
  | zero =>
    have : t.toNat ≠ 0 := fun h0 => h (BitVec.eq_of_toNat_eq h0)
    exact ⟨h, by simp only [tagOn, Function.iterate_zero, id]; have := t.isLt; omega⟩
  | succ k ih =>
    have step : tagOn t (k + 1) = tagAfter (tagOn t k) := Function.iterate_succ_apply' ..
    rw [step]
    refine ⟨tagAfter_ne_zero _, ?_⟩
    rw [toNat_tagAfter, ih.2]
    omega

/-- The search ends at a tag on its way, which is free unless every tag before the end is held. -/
theorem freeTag_on (queries : List Query) (n : Nat) (t : Byte) :
    (∃ k, freeTag queries n t = tagOn t k) ∧
      ((∀ q ∈ queries, q.tag ≠ freeTag queries n t) ∨ ∀ k < n, ∃ q ∈ queries, q.tag = tagOn t k) := by
  induction n generalizing t with
  | zero => exact ⟨⟨0, rfl⟩, Or.inr fun k hk => absurd hk (by omega)⟩
  | succ n ih =>
    unfold freeTag
    split
    case isTrue hheld =>
      obtain ⟨⟨k, hk⟩, hfree⟩ := ih (tagAfter t)
      refine ⟨⟨k + 1, hk⟩, hfree.imp_right fun hall j hj => ?_⟩
      cases j with
      | zero => simpa [tagOn] using hheld
      | succ j => exact hall j (by omega)
    case isFalse hfree => exact ⟨⟨0, rfl⟩, Or.inl (by simpa using hfree)⟩

/-- With fewer than 255 queries the search finds a tag that none of them holds. -/
theorem freeTag_free {queries : List Query} {t : Byte} (h : queries.length < 255) (ht : t ≠ 0) :
    freeTag queries 255 t ≠ 0 ∧ ∀ q ∈ queries, q.tag ≠ freeTag queries 255 t := by
  obtain ⟨⟨k, hk⟩, hfree⟩ := freeTag_on queries 255 t
  refine ⟨hk ▸ (tagOn_facts ht k).1, hfree.resolve_right fun hall => ?_⟩
  have sub : (List.range 255).map (tagOn t) ⊆ queries.map (·.tag) := by
    intro x hx
    obtain ⟨j, hj, rfl⟩ := List.mem_map.mp hx
    obtain ⟨q, hq, he⟩ := hall j (List.mem_range.mp hj)
    exact List.mem_map.mpr ⟨q, hq, he⟩
  have distinct : ((List.range 255).map (tagOn t)).Nodup := by
    refine List.Nodup.map_on (fun i hi j hj he => ?_) List.nodup_range
    have hn := congrArg BitVec.toNat he
    rw [(tagOn_facts ht i).2, (tagOn_facts ht j).2] at hn
    rw [List.mem_range] at hi hj
    omega
  have := (distinct.subperm sub).length_le
  simp only [List.length_map, List.length_range] at this
  omega

/-! ### Faults -/

theorem faultsFit_filter_map {room : Nat} {u : FaultUnit} {p : FaultRecord → Bool} {f : FaultRecord → FaultRecord}
    (h : FaultsFit room u) (hkey : ∀ r, ((f r).subject, (f r).kind) = (r.subject, r.kind))
    (hf : ∀ r ∈ u.table, p r = true → (f r).repeats ≤ 255 ∧ ¬ ((f r).condition = .resolved ∧ (f r).report = .acked)) :
    FaultsFit room { u with table := (u.table.filter p).map f } := by
  obtain ⟨hl, hk, hr, hlost⟩ := h
  refine ⟨?_, nodup_map_update hkey (nodup_map_filter p hk), fun x hx => ?_, hlost⟩
  · simpa using (List.length_filter_le p u.table).trans hl
  · obtain ⟨r, hr', rfl⟩ := List.mem_map.mp hx
    obtain ⟨hm, hp⟩ := List.mem_filter.mp hr'
    exact hf r hm hp

theorem faultsFit_repeat {room : Nat} {u : FaultUnit} (x : FaultSubject) (k : FaultKind) (time : ClockTime) (unset : Bool)
    (h : FaultsFit room u) :
    FaultsFit room { u with table := u.table.map fun r => if r.subject = x ∧ r.kind = k then r.repeated time unset else r } := by
  have := faultsFit_filter_map (p := fun _ => true) (f := fun r => if r.subject = x ∧ r.kind = k then r.repeated time unset else r) h
    (fun r => by split <;> rfl) fun r hr _ => by
      split
      case isTrue => exact ⟨Nat.min_le_left _ _, by simp [FaultRecord.repeated]⟩
      case isFalse => exact h.2.2.1 r hr
  simpa using this

theorem faultsFit_append {room : Nat} {u : FaultUnit} {r : FaultRecord} (h : FaultsFit room u) (hl : u.table.length < room)
    (hk : ∀ x ∈ u.table, (x.subject, x.kind) ≠ (r.subject, r.kind)) (hr : r.repeats ≤ 255) (hc : r.condition = .active) :
    FaultsFit room { u with table := u.table ++ [r] } := by
  obtain ⟨_, hn, hall, hlost⟩ := h
  refine ⟨by simpa using hl, nodup_map_append hn hk, fun x hx => ?_, hlost⟩
  rcases List.mem_append.mp hx with hx | hx
  · exact hall x hx
  · exact List.mem_singleton.mp hx ▸ ⟨hr, by simp [hc]⟩

theorem faultsFit_resolve {room : Nat} {u : FaultUnit} (x : FaultSubject) (k : FaultKind) (h : FaultsFit room u) :
    FaultsFit room { u with
      table := (u.table.filter fun r => !(r.subject == x && r.kind == k && r.report == .acked)).map fun r =>
        if r.subject = x ∧ r.kind = k then { r with condition := .resolved } else r } := by
  refine faultsFit_filter_map h (fun r => by split <;> rfl) fun r hr hp => ?_
  split
  case isTrue hx =>
    refine ⟨(h.2.2.1 r hr).1, fun hacked => ?_⟩
    obtain ⟨hs, hk⟩ := hx
    have acked : r.report = .acked := hacked.2
    simp [hs, hk, acked] at hp
  case isFalse => exact h.2.2.1 r hr

theorem faultsFit_acknowledge {room : Nat} {u : FaultUnit} (x : FaultSubject) (k : FaultKind) (h : FaultsFit room u) :
    FaultsFit room { u with
      table := (u.table.filter fun r => !(r.subject == x && r.kind == k && r.condition == .resolved)).map fun r =>
        if r.subject = x ∧ r.kind = k then { r with report := .acked } else r } := by
  refine faultsFit_filter_map h (fun r => by split <;> rfl) fun r hr hp => ?_
  split
  case isTrue hx =>
    refine ⟨(h.2.2.1 r hr).1, fun hacked => ?_⟩
    obtain ⟨hs, hk⟩ := hx
    have resolved : r.condition = .resolved := hacked.1
    simp [hs, hk, resolved] at hp
  case isFalse => exact h.2.2.1 r hr

/-! ### The grace list and the orders -/

theorem graceFits_filter {l : List GraceEntry} (p : GraceEntry → Bool) (h : GraceFits l) : GraceFits (l.filter p) :=
  ⟨(List.length_filter_le p l).trans h.1, nodup_map_filter p h.2⟩

theorem graceFits_addGrace {u : ReleaseUnit} (g : GraceEntry) (h : GraceFits u.grace) : GraceFits (u.addGrace g).grace := by
  obtain ⟨hl, hn⟩ := h
  unfold ReleaseUnit.addGrace
  dsimp only
  set kept := if Config.graceRoom ≤ u.grace.length then u.grace.drop 1 else u.grace with hkept
  have length : kept.length ≤ 63 := by
    rw [hkept]
    split
    case isTrue => rw [List.length_drop]; omega
    case isFalse h => rw [Config.graceRoom] at h; omega
  have nodup : (kept.map (·.bike)).Nodup := by
    rw [hkept]
    split
    case isTrue => exact hn.sublist ((List.drop_sublist 1 u.grace).map _)
    case isFalse => exact hn
  refine ⟨?_, nodup_map_append (nodup_map_filter _ nodup) fun x hx => by simpa using List.of_mem_filter hx⟩
  have := List.length_filter_le (fun x : GraceEntry => x.bike != g.bike) kept
  simp only [List.length_append, List.length_singleton]
  omega

theorem ordersFit_filter {l : List Order} (p : Order → Bool) (h : OrdersFit l) : OrdersFit (l.filter p) :=
  ⟨(List.length_filter_le p l).trans h.1, nodup_map_filter p h.2.1, fun r hr => h.2.2 r (List.mem_of_mem_filter hr)⟩

theorem ordersFit_map {l : List Order} {f : Order → Order} (h : OrdersFit l) (hid : ∀ o, (f o).id = o.id)
    (hf : ∀ o ∈ l, (f o).done ≤ (f o).quantity) : OrdersFit (l.map f) := by
  refine ⟨by simpa using h.1, nodup_map_update hid h.2.1, fun x hx => ?_⟩
  obtain ⟨o, ho, rfl⟩ := List.mem_map.mp hx
  exact hf o ho

theorem ordersFit_append {l : List Order} {o : Order} (h : OrdersFit l) (hl : l.length < 8) (hid : ∀ x ∈ l, x.id ≠ o.id)
    (hd : o.done ≤ o.quantity) : OrdersFit (l ++ [o]) := by
  refine ⟨by simpa using hl, nodup_map_append h.2.1 hid, fun x hx => ?_⟩
  rcases List.mem_append.mp hx with hx | hx
  · exact h.2.2 x hx
  · exact List.mem_singleton.mp hx ▸ hd

/-! ### Terminals -/

theorem fits_of_working {x : Terminal} (hb : x.badCount < 4) (hs : x.session.state ≠ .idle) : x.fits := ⟨hb, fun h => absurd h hs⟩

theorem fits_of_rest {x : Terminal} (hb : x.badCount < 4) (hs : x.session = { attempt := x.session.attempt }) : x.fits :=
  ⟨hb, fun _ => hs⟩

/-- A change of the terminal that leaves its session. -/
theorem fits_sameSession {x y : Terminal} (h : x.fits) (hb : y.badCount < 4) (hs : y.session = x.session) : y.fits := by
  refine ⟨hb, fun hi => ?_⟩
  rw [hs] at hi ⊢
  exact h.2 hi

end Sys2Proof.Machine
end

section
/-! Proofs. Every operation keeps the conditions on the tables (R45, R61, R91, R98, R102, R132, R154). -/

namespace Sys2Proof.Machine

/-! ### One update -/

theorem tabled_onCards {s : State} {f : CardUnit → CardUnit} (hs : s.tabled) (hc : CardsFit s.cardRoom (f s.card).table)
    (hq : QueriesFit (f s.card).queries) (ht : (f s.card).nextTag ≠ 0) : (s.onCards f).tabled :=
  ⟨hc, hq, ht, hs.faults, hs.grace, hs.orders, hs.terms⟩

theorem tabled_onFaults {s : State} {f : FaultUnit → FaultUnit} (hs : s.tabled) (hf : FaultsFit s.faultRoom (f s.fault)) :
    (s.onFaults f).tabled :=
  ⟨hs.cards, hs.queries, hs.tag, hf, hs.grace, hs.orders, hs.terms⟩

theorem tabled_onRelease {s : State} {f : ReleaseUnit → ReleaseUnit} (hs : s.tabled) (hg : GraceFits (f s.release).grace) :
    (s.onRelease f).tabled :=
  ⟨hs.cards, hs.queries, hs.tag, hs.faults, hg, hs.orders, hs.terms⟩

theorem tabled_onOrders {s : State} {f : OrderUnit → OrderUnit} (hs : s.tabled) (ho : OrdersFit (f s.order).queue) :
    (s.onOrders f).tabled :=
  ⟨hs.cards, hs.queries, hs.tag, hs.faults, hs.grace, ho, hs.terms⟩

theorem tabled_terminal {s : State} (hs : s.tabled) (x : TerminalId) : (s.terminal x).fits := hs.terms x

theorem tabled_onTerminal {s : State} {x : TerminalId} {f : Terminal → Terminal} (hs : s.tabled) (hf : (f (s.terminal x)).fits) :
    (s.onTerminal x f).tabled := by
  refine ⟨hs.cards, hs.queries, hs.tag, hs.faults, hs.grace, hs.orders, fun i => ?_⟩
  show ((s.onTerminal x f).terminal i).fits
  by_cases hi : i = x
  case pos =>
    subst hi
    rwa [terminal_onTerminal_self]
  case neg =>
    rw [terminal_onTerminal_other _ _ _ _ hi]
    exact hs.terms i

/-- A change of a terminal that leaves its session, its bad-record count within its range. -/
theorem tabled_onLine {s : State} {x : TerminalId} {f : Terminal → Terminal} (hs : s.tabled)
    (hb : (f (s.terminal x)).badCount < 4) (hf : (f (s.terminal x)).session = (s.terminal x).session) : (s.onTerminal x f).tabled :=
  tabled_onTerminal hs (fits_sameSession (tabled_terminal hs x) hb hf)

/-- A session that is not idle. -/
theorem tabled_working {s : State} {x : TerminalId} {f : Session → Session} (hs : s.tabled)
    (hf : (f (s.terminal x).session).state ≠ .idle) : (s.onSession x f).tabled :=
  tabled_onTerminal hs (fits_of_working (tabled_terminal hs x).1 hf)

theorem tabled_foldl {α : Type} {f : State → α → State} (h : ∀ s a, s.tabled → (f s a).tabled) (l : List α) {s : State}
    (hs : s.tabled) : (l.foldl f s).tabled := by
  induction l generalizing s with
  | nil => exact hs
  | cons a l ih => exact ih (h s a hs)

theorem tabled_actKept : ActKept State.tabled := ⟨fun _ _ h => h, fun _ h => h⟩

theorem tabled_reply {s : State} (n : Nat) (tag : Byte) (code : ReplyCode) (p : Payload) (hs : s.tabled) :
    (s.reply n tag code p).tabled :=
  hs

theorem tabled_act {i : Instr} {f : State → State} (hf : ∀ u, u.tabled → (f u).tabled) : Keeps State.tabled fun s => act i s f :=
  tabled_actKept.act hf

theorem tabled_request {α : Type} {i : Instr} {n : Nat} {tag : Byte} {x : Except ReplyCode α} {f : α → State → State}
    (hf : ∀ a u, x = .ok a → u.tabled → (f a u).tabled) : Keeps State.tabled fun s => request i n tag s x f :=
  tabled_actKept.request (fun _ n tag code h => tabled_reply n tag code .nothing h) hf

/-! ### Terminals -/

theorem tabled_sendTerminal {s : State} (x : TerminalId) (r : TermRecord) (hs : s.tabled) : (s.sendTerminal x r).tabled := by
  refine tabled_onLine hs ?_ ?_
  · have := (tabled_terminal hs x).1
    split <;> exact this
  · split <;> rfl

theorem tabled_endSession {s : State} (x : TerminalId) (hs : s.tabled) : (s.endSession x).tabled :=
  tabled_onTerminal hs (fits_of_rest (tabled_terminal hs x).1 rfl)

theorem tabled_refuseSession {s : State} (x : TerminalId) (why : DenyReason) (hs : s.tabled) : (s.refuseSession x why).tabled :=
  tabled_endSession x (tabled_sendTerminal x _ hs)

theorem tabled_finishSession {s : State} (x : TerminalId) (o : DoneOutcome) (hs : s.tabled) : (s.finishSession x o).tabled :=
  tabled_endSession x (tabled_sendTerminal x _ hs)

theorem tabled_abandonChoice {s : State} (x : TerminalId) (hs : s.tabled) : (s.abandonChoice x).tabled :=
  tabled_endSession x (tabled_sendTerminal x _ hs)

theorem tabled_askAllocation {s : State} (x : TerminalId) (cls : BikeClass) (exclude : Option DockNo) (hs : s.tabled) :
    (s.askAllocation x cls exclude).tabled :=
  tabled_working (f := fun x => { x with state := .checking, cls := some cls, claimDock := none, deadline := none, allocating := true })
    hs (by simp)

theorem tabled_leaveQueries {s : State} (x : TerminalId) (hs : s.tabled) : (s.leaveQueries x).tabled :=
  tabled_onCards hs hs.cards
    (queriesFit_waiters _ hs.queries fun q hq => (List.length_filter_le _ _).trans (hs.queries.2.2.2 q hq).1) hs.tag

theorem tabled_abortSession {s : State} (x : TerminalId) (hs : s.tabled) : (s.abortSession x).tabled := by
  unfold State.abortSession
  split
  case isTrue => exact hs
  case isFalse => exact tabled_endSession x (s := (s.leaveQueries x).disown x) (tabled_leaveQueries x hs)

theorem tabled_setLine {s : State} (x : TerminalId) (l : LineState) (hs : s.tabled) : (s.setLine x l).tabled :=
  tabled_onLine (f := fun x => { x with line := l }) hs (tabled_terminal hs x).1 rfl

theorem tabled_lineLeavesUp {s : State} (x : TerminalId) (l : LineState) (hs : s.tabled) : (s.lineLeavesUp x l).tabled :=
  tabled_abortSession x (tabled_setLine x l hs)

theorem tabled_lineComesUp {s : State} (x : TerminalId) (hs : s.tabled) : (s.lineComesUp x).tabled :=
  tabled_sendTerminal x _ (tabled_setLine x _ hs)

theorem tabled_resetCount {s : State} (x : TerminalId) (hs : s.tabled) : (s.onTerminal x fun x => { x with badCount := 0 }).tabled :=
  tabled_onLine hs (by simp) rfl

theorem tabled_goodRecord {s : State} (x : TerminalId) {f : State → State} (hf : ∀ u, u.tabled → (f u).tabled) (hs : s.tabled) :
    (s.goodRecord x f).tabled := by
  unfold State.goodRecord
  split
  case isTrue => exact hs
  case isFalse => exact hf _ (tabled_resetCount x hs)

theorem tabled_goodRecordUp {s : State} (x : TerminalId) {f : State → State} (hf : ∀ u, u.tabled → (f u).tabled) (hs : s.tabled) :
    (s.goodRecordUp x f).tabled := by
  refine tabled_goodRecord x (fun u hu => ?_) hs
  split
  case isTrue => exact hf u hu
  case isFalse => exact hu

theorem tabled_takeHello {s : State} (x : TerminalId) (hs : s.tabled) : (s.takeHello x).tabled := by
  refine tabled_goodRecord x (fun u hu => ?_) hs
  split
  case isTrue => exact tabled_sendTerminal x _ (tabled_abortSession x hu)
  case isFalse => exact tabled_lineComesUp x hu

theorem tabled_startSession {s : State} (x : TerminalId) (card : CardId) (hand : Nat → Instr) (hs : s.tabled) :
    (s.startSession x card hand).tabled :=
  tabled_sendTerminal (s := s.onSession x (·.started card)) x _ (tabled_working hs (by simp [Session.started]))

theorem tabled_tapOrPaid {s : State} (x : TerminalId) (card : CardId) (hand : Nat → Instr) (hs : s.tabled) :
    (s.tapOrPaid x card hand).tabled := by
  unfold State.tapOrPaid
  split
  case h_1 | h_2 => exact tabled_startSession x card hand hs
  case h_3 | h_4 => exact tabled_sendTerminal x _ hs

theorem tabled_takePick {s : State} (x : TerminalId) (cls : BikeClass) (hs : s.tabled) : (s.takePick x cls).tabled := by
  refine tabled_goodRecordUp x (fun u hu => ?_) hs
  dsimp only
  split
  case isTrue => exact hu
  case isFalse =>
    split
    case isTrue => exact tabled_refuseSession x _ hu
    case isFalse => exact tabled_askAllocation x cls none hu

theorem tabled_takeCancel {s : State} (x : TerminalId) (hs : s.tabled) : (s.takeCancel x).tabled := by
  unfold State.takeCancel
  refine tabled_goodRecordUp x (fun u hu => ?_) hs
  split
  case isTrue => exact tabled_abandonChoice x hu
  case isFalse => exact hu

theorem tabled_badRecord {s : State} (x : TerminalId) (hs : s.tabled) : (s.badRecord x).tabled := by
  unfold State.badRecord
  dsimp only
  split
  case isTrue => exact hs
  case isFalse =>
    split
    case isTrue h => exact tabled_onLine hs h rfl
    case isFalse =>
      have reset := tabled_resetCount x hs
      split
      case isTrue => exact tabled_lineLeavesUp x .disabled reset
      case isFalse => exact tabled_setLine x .disabled reset

theorem tabled_lineFalls {s : State} (x : TerminalId) (hs : s.tabled) : (s.lineFalls x).tabled := by
  unfold State.lineFalls
  split
  case isTrue => exact tabled_lineLeavesUp x _ hs
  case isFalse => exact hs

theorem tabled_takeLine {s : State} (x : TerminalId) (a : LineArrival) (hs : s.tabled) : (s.takeLine x a).tabled := by
  cases a with
  | hello => exact tabled_takeHello x hs
  | tap card =>
    refine tabled_goodRecordUp x (fun u hu => ?_) hs
    split
    case isTrue => exact hu
    case isFalse => exact tabled_tapOrPaid x _ _ hu
  | paid code rights expiry => exact tabled_goodRecordUp x (fun u hu => tabled_tapOrPaid x _ _ hu) hs
  | pick cls => exact tabled_takePick x cls hs
  | cancel => exact tabled_takeCancel x hs
  | bad => exact tabled_badRecord x hs
  | discarded => exact tabled_goodRecord x (fun _ hu => hu) hs
  | broken => exact tabled_lineFalls x hs
  | off => exact tabled_lineFalls x hs

theorem tabled_lineTakes {s : State} (x : TerminalId) (a : LineArrival) (hs : s.tabled) : (s.lineTakes x a).tabled := by
  unfold State.lineTakes
  split
  case isTrue => exact tabled_onLine hs (tabled_terminal hs x).1 rfl
  case isFalse => exact tabled_takeLine x a hs

/-- The wait on the allocator ends: an idle session has none. -/
theorem tabled_waitEnds {s : State} (x : TerminalId) (hs : s.tabled) :
    (s.onTerminal x fun x => { x with deferred := [], session := { x.session with allocating := false } }).tabled := by
  obtain ⟨hb, hr⟩ := tabled_terminal hs x
  refine tabled_onTerminal hs ⟨hb, fun hi => ?_⟩
  have hrest := hr hi
  dsimp only
  rw [hrest]

theorem tabled_allocationAnswered {s : State} (x : TerminalId) (hs : s.tabled) : (s.allocationAnswered x).tabled :=
  tabled_foldl (fun u a hu => tabled_lineTakes (s := u.onHost HostLink.beginSending) x a hu) _ (tabled_waitEnds x hs)

theorem tabled_sessionOffered {s : State} (x : TerminalId) (d : DockNo) (window : Nat) (hs : s.tabled) :
    (s.sessionOffered x d window).tabled := by
  refine tabled_allocationAnswered x (tabled_sendTerminal x _ (tabled_working hs ?_))
  simp

theorem tabled_sessionRefused {s : State} (x : TerminalId) (why : DenyReason) (hs : s.tabled) : (s.sessionRefused x why).tabled :=
  tabled_allocationAnswered x (tabled_refuseSession x _ hs)

theorem tabled_chooseClass {s : State} (x : TerminalId) (rights : Rights) (hs : s.tabled) : (s.chooseClass x rights).tabled := by
  unfold State.chooseClass
  split
  case h_1 =>
    refine tabled_sendTerminal x _ (tabled_working hs ?_)
    simp
  case h_2 | h_3 => exact tabled_askAllocation x _ _ hs
  case h_4 => exact tabled_refuseSession x _ hs

theorem tabled_takeResult {s : State} (x : TerminalId) (r : CheckResult) (hc : (s.terminal x).session.state = .checking)
    (hs : s.tabled) : (s.takeResult x r).tabled := by
  cases r with
  | deny why => exact tabled_refuseSession x why hs
  | vanOpened => exact tabled_finishSession x _ hs
  | vanClosed => exact tabled_finishSession x _ hs
  | member card origin rights =>
    exact tabled_chooseClass x rights
      (tabled_working (f := fun x => { x with origin := some origin, rights := some rights }) hs (by simp [hc]))

theorem tabled_claimFailed {s : State} (x : TerminalId) (d : DockNo) (ho : (s.terminal x).session.state = .offered) (hs : s.tabled) :
    (s.claimFailed x d).tabled := by
  unfold State.claimFailed
  dsimp only
  split
  case isTrue => exact tabled_refuseSession x _ hs
  case isFalse =>
    split
    case h_1 k _ =>
      exact tabled_askAllocation x k _ (tabled_working (f := fun x => { x with reallocated := true }) hs (by simp [ho]))
    case h_2 => exact tabled_refuseSession x _ hs

theorem tabled_takeClaimNews {s : State} (x : TerminalId) (d : DockNo) (news : ClaimNews)
    (ho : (s.terminal x).session.state = .offered) (hs : s.tabled) : (s.takeClaimNews x d news).tabled := by
  cases news with
  | released window =>
    refine tabled_working (tabled_sendTerminal x _ hs) ?_
    simp only [State.sendTerminal, terminal_onTerminal_self]
    split <;> simp [ho]
  | taken => exact tabled_finishSession x _ hs
  | lapsed => exact tabled_refuseSession x _ hs
  | failed => exact tabled_claimFailed x d ho hs

theorem tabled_powerTerminal {s : State} (p : PowerState) (x : TerminalId) (hs : s.tabled) : (s.powerTerminal p x).tabled := by
  have set : (s.onTerminal x fun x => { x with power := p = .mains }).tabled := tabled_onLine hs (tabled_terminal hs x).1 rfl
  unfold State.powerTerminal
  dsimp only
  split
  case isTrue => exact tabled_lineTakes x .off set
  case isFalse => exact set

theorem tabled_keepPass {s : State} (x : TerminalId) (attempt : Nat) (r : CardRecord) (hs : s.tabled) :
    (s.keepPass x attempt r).tabled := by
  obtain ⟨hb, hr⟩ := tabled_terminal hs x
  refine tabled_onTerminal hs ⟨hb, ?_⟩
  dsimp only
  split
  case isTrue h => exact fun hi => by simp [h.1] at hi
  case isFalse => exact hr

/-! ### Requests for a claim -/

theorem tabled_refuseRequest {s : State} (o : Owner) (why : DenyReason) (hs : s.tabled) : (s.refuseRequest o why).tabled := by
  unfold State.refuseRequest
  split
  case h_1 => exact hs
  case h_2 =>
    split
    case isTrue => exact tabled_sessionRefused _ why hs
    case isFalse => exact hs
  case h_3 | h_4 => exact hs

theorem tabled_requestClaim {s : State} (d : DockNo) (kind : ClaimKind) (holder : CardId) (origin : CardOrigin) (owner : Owner)
    (hs : s.tabled) : (s.requestClaim d kind holder origin owner).tabled := by
  unfold State.requestClaim
  split
  case h_1 => exact tabled_refuseRequest owner _ hs
  case h_2 => exact hs

theorem tabled_tellGrant {s : State} (d : DockNo) (o : Owner) (window : Nat) (hs : s.tabled) : (s.tellGrant d o window).tabled := by
  unfold State.tellGrant
  split
  case h_1 => exact tabled_sessionOffered _ d window hs
  all_goals exact hs

theorem tabled_grantClaim {s : State} (q : ClaimRequest) (offline : Bool) (hs : s.tabled) : (s.grantClaim q offline).tabled := by
  refine tabled_tellGrant _ _ _ (tabled_of_tables ?_ hs)
  split <;> simp

theorem tabled_refuseGrant {s : State} (q : ClaimRequest) (why : DenyReason) (hs : s.tabled) : (s.refuseGrant q why).tabled := by
  unfold State.refuseGrant
  split
  case h_1 => exact tabled_of_tables (by simp) hs
  case h_2 | h_3 => exact tabled_refuseRequest _ why hs

theorem tabled_answerGrant {s : State} (q : ClaimRequest) (answer : GrantAnswer) (hs : s.tabled) : (s.answerGrant q answer).tabled := by
  unfold State.answerGrant
  split
  case h_1 => exact tabled_refuseGrant q _ hs
  case h_2 => exact tabled_refuseGrant (s := s.post _) q _ hs
  case h_3 =>
    split
    case h_1 => exact tabled_grantClaim q _ hs
    case h_2 => exact tabled_refuseGrant (s := (s.post _).post _) q _ hs
  case h_4 =>
    split
    case h_1 => exact tabled_grantClaim q _ hs
    case h_2 => exact tabled_refuseGrant (s := s.post _) q _ hs

/-! ### Cards -/

theorem cardRecord_some {s : State} {c : CardId} {r : CardRecord} (h : s.cardRecord c = some r) : r ∈ s.card.table ∧ r.card = c :=
  ⟨List.mem_of_find?_eq_some h, by simpa using List.find?_some h⟩

theorem tabled_install {s : State} {r : CardRecord} (hs : s.tabled) (hu : r.used ≤ r.credit) (hr : s.hasRoom r.card = true) :
    (s.install r).tabled :=
  tabled_onCards hs (cardsFit_install hs.cards hu ((hasRoom_iff s r).mp hr)) hs.queries hs.tag

theorem evictee_mem {s : State} {b : Bool} {r : CardRecord} (h : s.evictee b = some r) : r ∈ s.card.table := by
  have largest : ∀ (f : CardRecord → Nat) (l : List CardRecord) (x : CardRecord), firstLargest f l = some x → x ∈ l := by
    intro f l x hx
    obtain ⟨before, rest, rfl, _⟩ := firstLargest_split hx
    simp
  unfold State.evictee at h
  split at h
  case h_1 hf =>
    cases h
    exact List.mem_of_mem_filter (largest _ _ _ hf)
  case h_2 =>
    split at h
    case isTrue => exact List.mem_of_mem_filter (largest _ _ _ h)
    case isFalse => cases h

theorem tabled_placeRecord {s s' : State} {r : CardRecord} {b : Bool} (h : s.placeRecord r b = some s') (hu : r.used ≤ r.credit)
    (hs : s.tabled) : s'.tabled := by
  unfold State.placeRecord at h
  split at h
  case isTrue hr =>
    cases h
    exact tabled_install hs hu hr
  case isFalse =>
    obtain ⟨old, hold, rfl⟩ := Option.map_eq_some_iff.mp h
    have dropped : (s.onCards (·.drop old.card)).tabled := tabled_onCards hs (cardsFit_filter _ hs.cards) hs.queries hs.tag
    have free : (s.onCards (·.drop old.card)).card.table.length < s.cardRoom :=
      (length_filter_lt_of_mem (evictee_mem hold) (by simp)).trans_le hs.cards.1
    exact tabled_onCards dropped (cardsFit_install dropped.cards hu (Or.inr free)) hs.queries hs.tag

theorem tabled_finishCheck {s : State} (r : CardRecord) (p : Place) (hs : s.tabled) : (s.finishCheck r p).tabled :=
  tabled_of_tables (by simp) hs

theorem tabled_unknownCard {s : State} (card : CardId) (p : Place) (hs : s.tabled) : (s.unknownCard card p).tabled := by
  unfold State.unknownCard
  split
  case h_1 => exact tabled_of_tables (by simp) hs
  case h_2 =>
    split
    case isTrue => exact tabled_of_tables (by simp) hs
    case isFalse =>
      split
      case h_1 => exact tabled_of_tables (by simp) hs
      case h_2 h => exact tabled_finishCheck _ p (tabled_placeRecord h (Nat.zero_le _) hs)

theorem tabled_check {s : State} {p : Place} {r : Option CardRecord} {f : State → State} (hf : ∀ u, u.tabled → (f u).tabled)
    (hs : s.tabled) : (s.check p r f).tabled := by
  unfold State.check
  split
  case h_1 => exact tabled_of_tables (by simp) hs
  case h_2 => exact tabled_finishCheck _ p hs
  case h_3 => exact hf s hs

theorem tabled_resolveWaiter {s : State} (card : CardId) (own : Option CardRecord) (p : Place) (hs : s.tabled) :
    (s.resolveWaiter card own p).tabled :=
  tabled_check (fun _ hu => tabled_unknownCard card p hu) hs

theorem tabled_resolveQuery {s : State} (q : Query) (own : Option CardRecord) (hs : s.tabled) : (s.resolveQuery q own).tabled :=
  tabled_foldl (fun _ p hu => tabled_resolveWaiter q.card own p hu) _ hs

theorem tabled_removeQuery {s : State} (tag : Byte) (hs : s.tabled) : (s.removeQuery tag).tabled :=
  tabled_onCards hs hs.cards (queriesFit_filter _ hs.queries) hs.tag

theorem tabled_endQueries {s : State} (hs : s.tabled) : s.endQueries.tabled :=
  tabled_foldl (fun _ q hu => tabled_resolveQuery q none hu) _
    (tabled_onCards (f := fun u => { u with queries := [] }) hs hs.cards queriesFit_nil hs.tag)

theorem tabled_loseLink {s : State} (hs : s.tabled) : s.loseLink.tabled := tabled_endQueries (s := s.onHost _) hs

theorem tabled_newLimit {s : State} (limit : Nat) (hs : s.tabled) : (s.newLimit limit).tabled := by
  unfold State.newLimit
  (repeat' split) <;> first | exact hs | exact tabled_loseLink hs

theorem tabled_switchIfDue {s : State} (hs : s.tabled) : s.switchIfDue.tabled := by
  unfold State.switchIfDue
  split
  case isFalse => exact hs
  case isTrue =>
    split
    case h_2 => exact hs
    case h_1 p _ =>
      have switched : (s.onStore fun st => { st with live := p.settings, pendingSet := none }).tabled := hs
      unfold State.switchSettings
      dsimp only
      split
      case isTrue => exact tabled_of_tables (by simp) switched
      case isFalse => exact tabled_newLimit _ (tabled_of_tables (by simp) switched)

theorem tabled_newQuery {s : State} (card : CardId) (p : Place) (hnone : ∀ q ∈ s.card.queries, q.card ≠ card)
    (hl : s.card.queries.length < 8) (hs : s.tabled) : (s.newQuery card p).tabled := by
  obtain ⟨h0, hfree⟩ := freeTag_free (queries := s.card.queries) (by omega) hs.tag
  have fits := queriesFit_append
    (q := ⟨freeTag s.card.queries 255 s.card.nextTag, card, [p], s.now + s.settings.authWait⟩) hs.queries hl hnone hfree (by simp) h0
  exact ⟨hs.cards, fits, tagAfter_ne_zero _, hs.faults, hs.grace, hs.orders, hs.terms⟩

theorem tabled_joinQuery {s : State} {q : Query} (p : Place) (hq : q ∈ s.card.queries) (hs : s.tabled) :
    (s.joinQuery q p).tabled := by
  unfold State.joinQuery
  split
  case isFalse => exact tabled_of_tables (by simp) hs
  case isTrue hroom =>
    refine tabled_onCards hs hs.cards ?_ hs.tag
    have joined := queriesFit_waiters (fun x => if x.tag = q.tag then x.waiters ++ [p] else x.waiters) hs.queries fun x hx => by
      split
      case isTrue he =>
        have : x = q := eq_of_key hs.queries.2.2.1 hx hq he
        subst this
        exact (List.length_append ..).trans_le hroom
      case isFalse => exact (hs.queries.2.2.2 x hx).1
    refine cast (congrArg QueriesFit (List.map_congr_left fun x _ => ?_)) joined
    split <;> rfl

theorem tabled_askHost {s : State} (card : CardId) (p : Place) (hs : s.tabled) : (s.askHost card p).tabled := by
  unfold State.askHost
  split
  case h_1 h => exact tabled_joinQuery p (List.mem_of_find?_eq_some h) hs
  case h_2 h =>
    split
    case isTrue hroom => exact tabled_newQuery card p (by simpa using h) hroom.2 hs
    case isFalse => exact tabled_unknownCard card p hs

theorem tabled_setUsed {s : State} {card : CardId} {f : Nat → Nat} (hs : s.tabled)
    (hf : ∀ r ∈ s.card.table, r.card = card → f r.used ≤ r.credit) : (s.setUsed card f).tabled :=
  tabled_onCards hs (cardsFit_setUsed hs.cards hf) hs.queries hs.tag

theorem tabled_installVerdict {s : State} {r : Option CardRecord} (hr : ∀ x ∈ r, x.used ≤ x.credit) (hs : s.tabled) :
    (s.installVerdict r).1.tabled := by
  unfold State.installVerdict
  split
  case h_1 => exact hs
  case h_2 x =>
    split
    case isTrue h => exact tabled_install hs (hr x rfl) h
    case isFalse => exact hs

theorem tabled_dropQueries {s : State} (hs : s.tabled) : s.dropQueries.tabled := by
  have told := tabled_foldl (f := fun s p => s.denyPlace p .outOfService) (fun _ _ hu => tabled_of_tables (by simp) hu)
    ((s.card.queries.flatMap (·.waiters)).filter Place.terminalOnly) hs
  exact tabled_onCards told told.cards queriesFit_nil (by simp)

/-! ### Faults -/

theorem faultOf_none {s : State} {x : FaultSubject} {k : FaultKind} (h : (s.faultOf x k).isSome = false) :
    ∀ r ∈ s.fault.table, (r.subject, r.kind) ≠ (x, k) := by
  simpa [State.faultOf, List.find?_eq_none] using h

theorem tabled_recordRaise {s : State} (x : FaultSubject) (k : FaultKind) (c : Option DockContext) (hs : s.tabled) :
    (s.recordRaise x k c).tabled := by
  unfold State.recordRaise
  split
  case isTrue => exact tabled_onFaults hs (faultsFit_repeat x k _ _ hs.faults)
  case isFalse hnone =>
    split
    case isTrue hroom =>
      have fresh := faultOf_none (by simpa using hnone)
      refine tabled_of_tables (tables_join _ _) (tabled_onFaults hs ?_)
      exact faultsFit_append hs.faults hroom fresh (Nat.zero_le _) rfl
    case isFalse =>
      exact tabled_onFaults (f := fun u => { u with lost := min Config.countLimit (u.lost + 1) }) hs
        ⟨hs.faults.1, hs.faults.2.1, hs.faults.2.2.1, Nat.min_le_left _ _⟩

theorem tabled_resolveRecord {s : State} (x : FaultSubject) (k : FaultKind) (hs : s.tabled) : (s.resolveRecord x k).tabled :=
  tabled_onFaults hs (faultsFit_resolve x k hs.faults)

theorem tabled_acknowledge {s : State} (x : FaultSubject) (k : FaultKind) (hs : s.tabled) : (s.acknowledge x k).tabled :=
  tabled_onFaults hs (faultsFit_acknowledge x k hs.faults)

theorem tabled_resolveFault {s : State} (x : FaultSubject) (k : FaultKind) (dock : Option DockNo) (hs : s.tabled) :
    (s.resolveFault x k dock).tabled :=
  tabled_resolveRecord x k (tabled_of_tables (by simp) hs)

theorem tabled_clearHolds {s : State} (d : DockNo) (r : DockRecord) (hs : s.tabled) : (s.clearHolds d r).tabled := by
  have dockKinds := tabled_foldl (f := fun s k => s.resolveRecord (.dock d) k) (fun _ k hu => tabled_resolveRecord _ k hu)
    clearableKinds (tabled_of_tables (tables_changeHolds s d DockRecord.cleared) hs)
  have told : ∀ u : State, u.tabled → (if s.jamStands d then u.tellJamCleared d else u).tabled := fun u hu => by
    split <;> exact tabled_of_tables (by simp) hu
  unfold State.clearHolds
  dsimp only
  refine told _ ?_
  split
  case h_1 => exact tabled_resolveRecord _ _ dockKinds
  case h_2 | h_3 => exact dockKinds

theorem tabled_clearFault {s : State} (x : FaultSubject) (k : FaultKind) (hs : s.tabled) : (s.clearFault x k).2.tabled := by
  have dockKind : ∀ d k, (s.clearDockKind d k).2.tabled := fun d k => by
    have resolved := tabled_resolveFault (.dock d) k none hs
    unfold State.clearDockKind
    split
    case isTrue =>
      dsimp only
      split
      case isTrue => exact tabled_of_tables (by simp) resolved
      case isFalse => exact resolved
    case isFalse => exact hs
  have linkLoss : ∀ d, (s.clearLinkLoss d).2.tabled := fun d => by
    have resolved := tabled_resolveFault (.dock d) .linkLoss none hs
    unfold State.clearLinkLoss
    split
    case isTrue =>
      split
      case h_1 => exact tabled_of_tables (by simp) resolved
      case h_2 => split <;> [exact resolved; exact hs]
    case isFalse => exact hs
  unfold State.clearFault
  split
  case h_1 => exact linkLoss _
  case h_6 =>
    unfold State.clearRiderReport
    dsimp only
    split
    case isTrue => exact tabled_resolveFault _ _ _ hs
    case isFalse => exact hs
  case h_7 => exact hs
  all_goals exact dockKind _ _

theorem tabled_enableLine {s : State} (x : TerminalId) (hs : s.tabled) : (s.enableLine x).tabled := by
  unfold State.enableLine
  split
  case isTrue => exact tabled_resolveFault _ _ _ (tabled_setLine x _ (tabled_resetCount x hs))
  case isFalse => exact hs

/-! ### Entries and the grace list -/

theorem tabled_dropGrace {s : State} (b : BikeId) (hs : s.tabled) : (s.dropGrace b).tabled :=
  tabled_onRelease hs (graceFits_filter _ hs.grace)

theorem tabled_writeReturn {s : State} (d : DockNo) (b : Option BikeId) (late : Bool) (crew : Option OrderId) (hs : s.tabled) :
    (s.writeReturn d b late crew).tabled := by
  unfold State.writeReturn
  dsimp only
  split
  case h_1 g _ =>
    refine tabled_of_tables (tables_postIf _ _ _) (tabled_dropGrace g.bike ?_)
    exact hs
  case h_2 | h_3 => exact hs

theorem tabled_writeRequested {s : State} (q : EntryRequest) (hs : s.tabled) : (s.writeRequested q).tabled := by
  cases q with
  | pendingReturn d b late crew => exact tabled_writeReturn d b late crew hs
  | claimEnding => exact hs
  | orderClosed => exact hs

theorem tabled_journalArrival {s : State} {f : State → State} (hf : (f s).tabled) : (s.journalArrival f).tabled := by
  have admitted : (f s).admitWithheld.tabled := tabled_of_tables (by simp) hf
  unfold State.journalArrival
  dsimp only
  (repeat' split) <;> exact tabled_of_tables (by simp) admitted

theorem tabled_writeEntry {s : State} (q : EntryRequest) (hs : s.tabled) : (s.writeEntry q).tabled :=
  tabled_journalArrival (tabled_writeRequested q hs)

theorem tabled_graceHire {s : State} (c : Claim) (b : Option BikeId) (start : SeqNo) (hs : s.tabled) :
    (s.graceHire c b start).tabled := by
  unfold State.graceHire
  split
  case h_1 =>
    split
    case isTrue => exact hs
    case isFalse => exact tabled_onRelease hs (graceFits_addGrace _ hs.grace)
  case h_2 => exact hs

theorem tabled_take {s : State} (c : Claim) (b : Option BikeId) (late reset : Bool) (hs : s.tabled) : (s.take c b late reset).tabled := by
  have written := tabled_writeEntry
    (.claimEnding c.dock c.kind b c.holder c.reference c.offline late reset) hs
  have hired := tabled_graceHire c b s.store.nextSeq
    (s := ((s.writeEntry (.claimEnding c.dock c.kind b c.holder c.reference c.offline late reset)).endClaim c.dock).setCommand
      c.dock .none) (tabled_of_tables (by simp) written)
  unfold State.take
  dsimp only
  split <;> exact tabled_of_tables (by simp) hired

/-! ### Orders -/

theorem tabled_countDone {s : State} (id : OrderId) (hs : s.tabled) : (s.countDone id).tabled := by
  refine tabled_onOrders hs (ordersFit_map hs.orders (fun o => by split <;> rfl) fun o ho => ?_)
  split
  case isTrue => exact Nat.min_le_left _ _
  case isFalse => exact hs.orders.2.2 o ho

theorem tabled_closeSession {s : State} (v : VanSession) (hs : s.tabled) : (s.closeSession v).tabled := by
  unfold State.closeSession
  split
  case h_1 => exact hs
  case h_2 o _ =>
    have written := tabled_writeEntry (.orderClosed v.order (closeOutcome v.cause o.done o.quantity) o.done o.quantity) hs
    exact tabled_of_tables (tables_join _ _) (tabled_onOrders written (ordersFit_filter _ written.orders))

theorem tabled_testComplete {s : State} (hs : s.tabled) : s.testComplete.tabled := by
  unfold State.testComplete
  split
  case h_1 => exact hs
  case h_2 v _ =>
    split
    case isTrue => exact tabled_closeSession v hs
    case isFalse => exact hs

theorem tabled_enterClosing {s : State} (cause : CloseCause) (hs : s.tabled) : (s.enterClosing cause).tabled := by
  unfold State.enterClosing
  split
  case h_1 => exact hs
  case h_2 =>
    split
    case isTrue =>
      refine tabled_testComplete (tabled_of_tables ?_ hs)
      rw [tables_onVan, tables_foldl (fun _ _ => tables_onDock _ _ _), tables_postAll]
    case isFalse => exact hs

theorem tabled_afterDone {s : State} (id : OrderId) (hs : s.tabled) : (s.afterDone id).tabled := by
  unfold State.afterDone
  split
  case isTrue => exact tabled_enterClosing _ hs
  case isFalse => exact tabled_of_tables (by simp) hs

theorem tabled_openSession {s : State} (card : CardId) (p : Place) (o : Order) (hs : s.tabled) : (s.openSession card p o).tabled := by
  have booked : (s.journalArrival (·.onJournal fun j => { j with vanBooked := true })).tabled := tabled_journalArrival hs
  unfold State.openSession
  refine tabled_of_tables ((tables_placementPass _).trans (tables_tellPlace _ _ _)) (tabled_onOrders booked ?_)
  refine ordersFit_map booked.orders (fun x => by split <;> rfl) fun x hx => ?_
  split <;> exact booked.orders.2.2 x hx

theorem tabled_openTap {s : State} (v : VanSession) (card : CardId) (p : Place) (hs : s.tabled) : (s.openTap v card p).tabled := by
  unfold State.openTap
  split
  case h_1 => exact tabled_enterClosing _ (tabled_of_tables (by simp) hs)
  case h_2 => (repeat' split) <;> exact tabled_of_tables (by simp) hs

theorem tabled_cancelSession {s : State} (hs : s.tabled) : s.cancelSession.tabled := by
  unfold State.cancelSession
  split
  case isTrue => exact tabled_enterClosing _ hs
  case isFalse => exact hs

end Sys2Proof.Machine
end

section
/-! Proofs. Every command keeps the conditions on the tables (R45, R61, R91, R98, R102, R132, R154). -/

namespace Sys2Proof.Machine

/-! ### Operands -/

theorem cardAt_used {b : List Byte} {n : Nat} {present : Bool} {r : CardRecord} (h : Operands.cardAt b n present = .ok r) :
    r.used ≤ r.credit := by
  obtain ⟨_, _, h⟩ := bind_ok h
  obtain ⟨_, _, h⟩ := bind_ok h
  obtain ⟨_, _, h⟩ := bind_ok h
  obtain ⟨_, _, h⟩ := bind_ok h
  obtain ⟨_, _, h⟩ := bind_ok h
  obtain ⟨_, _, h⟩ := bind_ok h
  obtain ⟨_, hused, h⟩ := bind_ok h
  obtain ⟨_, _, h⟩ := bind_ok h
  cases h
  exact of_decide_eq_true (demand_ok hused)

theorem cardPut_used {body : List Byte} {r : CardRecord} (h : Operands.cardPut body = .ok r) : r.used ≤ r.credit := by
  obtain ⟨_, h⟩ := optional_ok h
  exact cardAt_used h

theorem map_ok {α β : Type} {x : Except ReplyCode α} {f : α → β} {b : β} (h : x.map f = .ok b) : ∃ a, x = .ok a ∧ f a = b := by
  cases x with
  | error code => cases h
  | ok a => exact ⟨a, rfl, by injection h⟩

theorem cardVerdict_grant {body : List Byte} {v : Operands.Verdict} {x : Except ReplyCode CardRecord}
    (h : Operands.cardVerdict body = .ok v) (hv : v.outcome = .grant x) : ∃ b n present, x = Operands.cardAt b n present := by
  unfold Operands.cardVerdict at h
  split at h
  case isTrue => cases h
  case isFalse =>
    split at h
    case h_1 =>
      obtain ⟨present, h⟩ := optional_ok h
      obtain ⟨a, _, rfl⟩ := map_ok h
      cases hv
      exact ⟨_, _, _, rfl⟩
    case h_2 | h_3 =>
      obtain ⟨_, h⟩ := fixed_ok h
      obtain ⟨a, _, rfl⟩ := map_ok h
      cases hv
    case h_4 => cases h

theorem verdict_used {body : List Byte} {v : Operands.Verdict} {r : Option CardRecord} (h : Operands.cardVerdict body = .ok v)
    (hr : v.record = .ok r) : ∀ x ∈ r, x.used ≤ x.credit := by
  unfold Operands.Verdict.record at hr
  split at hr
  case h_1 => cases hr
  case h_2 c hv =>
    obtain ⟨_, _, _, hc⟩ := cardVerdict_grant h hv
    split at hr <;> cases hr
    rintro x ⟨⟩
    exact cardAt_used hc.symm
  case h_3 =>
    cases hr
    rintro x ⟨⟩
    exact Nat.zero_le _
  case h_4 =>
    cases hr
    exact fun _ h => nomatch h

theorem orderAdd_done {body : List Byte} {o : Order} (h : Operands.orderAdd body = .ok o) : o.done = 0 := by
  obtain ⟨_, h⟩ := optional_ok h
  obtain ⟨_, _, h⟩ := bind_ok h
  obtain ⟨_, _, h⟩ := bind_ok h
  obtain ⟨_, _, h⟩ := bind_ok h
  obtain ⟨_, _, h⟩ := bind_ok h
  obtain ⟨_, _, h⟩ := bind_ok h
  cases h
  rfl

/-! ### Samples and resets -/

theorem tabled_takeSample {s : State} (mains : Bool) (level : Byte) (hs : s.tabled) : (s.takeSample mains level).tabled := by
  have sampled : (s.tick.onSupply (·.sample mains level)).tables = s.tables := rfl
  have changed : ∀ (u : State) p, (u.changePower p).tables = u.tables := fun u p => by simp
  have tested : ∀ (u : State) n, (u.testLevel n).tables = u.tables := fun u n => by
    unfold State.testLevel
    dsimp only
    (repeat' split) <;> first | rfl | exact changed _ _
  refine tabled_of_tables (Eq.trans ?_ sampled) hs
  unfold State.takeSample State.followPower State.decidePower
  dsimp only
  split
  case isTrue =>
    refine (tested _ _).trans ?_
    (repeat' split) <;> first | rfl | exact changed _ _
  case isFalse =>
    split
    case h_1 => rfl
    case h_2 => split <;> exact changed (State.onSupply _ _) _

theorem tabled_darkened {s : State} (p : Phase) (hs : s.tabled) : (s.darkened p).tabled := by
  refine ⟨hs.cards, hs.queries, hs.tag, hs.faults, hs.grace, hs.orders, fun i => ?_⟩
  have := hs.terms i
  cases i <;> exact fits_sameSession this this.1 rfl

theorem fits_blank : ({} : Terminal).fits := fits_of_rest (by decide) rfl

theorem tabled_reset : State.reset.tabled := by
  refine ⟨⟨by decide, by decide, by simp [State.tables, State.reset]⟩, queriesFit_nil, by decide,
    ⟨by decide, by decide, by simp [State.tables, State.reset], by decide⟩, ⟨by decide, by decide⟩,
    ⟨by decide, by decide, by simp [State.tables, State.reset]⟩, fun i => ?_⟩
  cases i <;> exact fits_blank

theorem tabled_coldStart (s : State) (cause : ResetCause) : (s.coldStart cause).tabled :=
  tabled_of_tables (s := State.reset) (by rw [coldStart_eq]; rfl) tabled_reset

theorem tabled_warmBlocks {s : State} (cause : ResetCause) (hs : s.tabled) : (s.warmBlocks cause).tabled := by
  refine ⟨hs.cards, queriesFit_nil, (by decide : (1 : Byte) ≠ 0), ⟨hs.faults.1, hs.faults.2.1, hs.faults.2.2.1, Nat.zero_le _⟩,
    ⟨Nat.zero_le _, List.nodup_nil⟩, hs.orders, fun i => ?_⟩
  cases i <;> exact fits_blank

theorem tabled_closeForRestart {s : State} (hs : s.tabled) : s.closeForRestart.tabled := by
  unfold State.closeForRestart
  split
  case h_1 => exact hs
  case h_2 =>
    split
    case h_1 => exact hs
    case h_2 => exact tabled_onOrders (s := s.writeRequested _) hs (ordersFit_filter _ hs.orders)

theorem tabled_warmStart {s : State} (cause : ResetCause) (hs : s.tabled) : (s.warmStart cause).tabled := by
  have closed := tabled_closeForRestart (tabled_warmBlocks cause hs)
  have resolved : (s.warmBlocks cause).closeForRestart.resolveLines.tabled :=
    tabled_foldl (f := fun s t => s.resolveRecord (.terminal t) .lineFailed) (fun _ _ hu => tabled_resolveRecord _ _ hu) terminals closed
  have retaken : (s.warmBlocks cause).closeForRestart.resolveLines.retakeDocks.tabled :=
    tabled_of_tables (tables_foldl (fun _ _ => by simp) _ _) resolved
  have admitted : (s.warmBlocks cause).closeForRestart.resolveLines.retakeDocks.recountJournal.admitWithheld.tabled :=
    tabled_of_tables (tables_admitWithheld _) (tabled_of_tables (by simp [State.recountJournal]) retaken)
  exact admitted

theorem tabled_restart {s : State} (cause : ResetCause) (hs : s.tabled) : (s.restart cause).tabled := by
  unfold State.restart
  split
  case isTrue => exact tabled_warmStart cause hs
  case isFalse => exact tabled_coldStart s cause

theorem tabled_restartUnlessHeld {s : State} (cause : ResetCause) (hs : s.tabled) : (s.restartUnlessHeld cause).tabled := by
  unfold State.restartUnlessHeld
  dsimp only
  split
  case isTrue => exact tabled_darkened _ (tabled_restart cause hs)
  case isFalse => exact tabled_restart cause hs

/-! ### Each command -/

theorem tabled_readsOnly : ReadsOnly [.card, .release, .order, .fault, .term, .store] State.tabled := by
  intro s t h hs
  refine tabled_of_tables ?_ hs
  have card : t.card = s.card := h .card (by decide)
  have release : t.release = s.release := h .release (by decide)
  have order : t.order = s.order := h .order (by decide)
  have fault : t.fault = s.fault := h .fault (by decide)
  have term : t.term = s.term := h .term (by decide)
  have store : t.store = s.store := h .store (by decide)
  simp only [State.tables, card, release, order, fault, term, store]

theorem execSettingsStage_tabled (tag : Byte) (body : List Byte) : Keeps State.tabled (execSettingsStage tag body) := by
  refine tabled_request fun a u _ hu => tabled_reply _ _ _ .nothing (tabled_switchIfDue ?_)
  exact hu

theorem execSettingsDrop_tabled (tag : Byte) (body : List Byte) : Keeps State.tabled (execSettingsDrop tag body) := by
  refine tabled_request fun a u _ hu => ?_
  split <;> exact hu

theorem execServiceStart_tabled (tag : Byte) (body : List Byte) : Keeps State.tabled (execServiceStart tag body) := by
  refine tabled_request fun a u _ hu => ?_
  split <;> exact hu

theorem execServiceStop_tabled (tag : Byte) (body : List Byte) : Keeps State.tabled (execServiceStop tag body) := by
  refine tabled_request fun a u _ hu => ?_
  (repeat' split) <;> exact hu

theorem execLayoutSet_tabled (tag : Byte) (body : List Byte) : Keeps State.tabled (execLayoutSet tag body) := by
  refine tabled_request fun l u _ hu => ?_
  split
  case isTrue => exact hu
  case isFalse =>
    split
    case isTrue => exact hu
    case isFalse =>
      have dropped := tabled_dropQueries hu
      exact ⟨⟨Nat.zero_le _, List.nodup_nil, fun _ h => nomatch h⟩, dropped.queries, dropped.tag,
        ⟨Nat.zero_le _, List.nodup_nil, fun _ h => (nomatch h), dropped.faults.2.2.2⟩, ⟨Nat.zero_le _, List.nodup_nil⟩,
        ⟨Nat.zero_le _, List.nodup_nil, fun _ h => nomatch h⟩, dropped.terms⟩

theorem execDockSetService_tabled (tag : Byte) (body : List Byte) : Keeps State.tabled (execDockSetService tag body) := by
  refine tabled_request fun q u _ hu => ?_
  split <;> exact tabled_of_tables (by simp) hu

theorem execCardPut_tabled (tag : Byte) (body : List Byte) : Keeps State.tabled (execCardPut tag body) := by
  refine tabled_request fun r u hr hu => ?_
  have used := cardPut_used hr
  split
  case isTrue h => exact tabled_reply _ _ _ .nothing (tabled_install hu used (by simp [State.hasRoom, h]))
  case isFalse =>
    split
    case isTrue h => exact tabled_reply _ _ _ .nothing (tabled_install hu used h)
    case isFalse => exact hu

theorem execCardDrop_tabled (tag : Byte) (body : List Byte) : Keeps State.tabled (execCardDrop tag body) := by
  refine tabled_request fun c u _ hu => ?_
  split
  case isTrue => exact tabled_reply _ _ _ .nothing (tabled_onCards (f := (·.drop c)) hu (cardsFit_filter _ hu.cards) hu.queries hu.tag)
  case isFalse => exact hu

theorem execCardVerdict_tabled (tag : Byte) (body : List Byte) : Keeps State.tabled (execCardVerdict tag body) := by
  refine tabled_request fun v u hv hu => ?_
  split
  case h_1 q _ =>
    split
    case isTrue => exact hu
    case isFalse =>
      split
      case h_1 => exact hu
      case h_2 r hr =>
        exact tabled_reply _ _ _ .nothing
          (tabled_resolveQuery q _ (tabled_removeQuery q.tag (tabled_installVerdict (verdict_used hv hr) hu)))
  case h_2 =>
    split
    case h_1 => exact hu
    case h_2 r hr => exact tabled_reply _ _ _ .nothing (tabled_installVerdict (verdict_used hv hr) hu)

theorem execOrderAdd_tabled (tag : Byte) (body : List Byte) : Keeps State.tabled (execOrderAdd tag body) := by
  refine tabled_request fun o u ho hu => ?_
  split
  case isTrue => exact hu
  case isFalse hnew =>
    split
    case isTrue hroom =>
      have fresh : ∀ x ∈ u.order.queue, x.id ≠ o.id := by simpa [State.orderOf, List.find?_eq_none] using hnew
      exact tabled_reply _ _ _ .nothing (tabled_onOrders (f := fun u => { u with queue := u.queue ++ [o] }) hu
        (ordersFit_append hu.orders hroom fresh (by simp [orderAdd_done ho])))
    case isFalse => exact hu

theorem execOrderCancel_tabled (tag : Byte) (body : List Byte) : Keeps State.tabled (execOrderCancel tag body) := by
  refine tabled_request fun id u _ hu => ?_
  split
  case h_1 => exact hu
  case h_2 o _ =>
    cases o.state with
    | queued =>
      exact tabled_reply _ _ _ .nothing
        (tabled_onOrders (f := fun u => { u with queue := u.queue.filter fun x => x.id != id }) hu (ordersFit_filter _ hu.orders))
    | active => exact tabled_reply _ _ _ .nothing (tabled_cancelSession hu)

theorem execFaultAck_tabled (tag : Byte) (body : List Byte) : Keeps State.tabled (execFaultAck tag body) := by
  intro s t h hs
  refine tabled_request (fun q u _ hu => ?_) s t h hs
  split
  case h_1 => exact hu
  case h_2 r _ => exact tabled_reply 0x18 tag .ok (.condition r.condition) (tabled_acknowledge q.1 q.2 hu)

theorem execFaultClear_tabled (tag : Byte) (body : List Byte) : Keeps State.tabled (execFaultClear tag body) := by
  intro s t h hs
  refine tabled_request (fun q u _ hu => ?_) s t h hs
  exact tabled_reply _ _ _ .nothing (tabled_clearFault q.1 q.2 hu)

theorem execSilenceDeadline_tabled : Keeps State.tabled execSilenceDeadline := by
  refine tabled_act fun u hu => ?_
  split
  case isTrue => exact tabled_loseLink hu
  case isFalse => exact hu

theorem execCrewWindowDeadline_tabled (d : DockNo) : Keeps State.tabled (execCrewWindowDeadline d) := by
  refine tabled_act fun u hu => ?_
  split <;> exact hu

theorem execQueryDeadline_tabled (tag : Byte) : Keeps State.tabled (execQueryDeadline tag) := by
  refine tabled_act fun u hu => ?_
  split
  case h_1 => exact hu
  case h_2 q _ => exact tabled_resolveQuery q none (tabled_removeQuery tag hu)

theorem execPassSale_tabled (x : TerminalId) (attempt : Nat) (code : CardId) (rights : Byte) (expiry : ClockTime) :
    Keeps State.tabled (execPassSale x attempt code rights expiry) := by
  refine tabled_act fun u hu => ?_
  split
  case h_1 => exact hu
  case h_2 r hr =>
    have used : r.used ≤ r.credit := by
      unfold State.saleTests at hr
      (repeat' split at hr) <;> cases hr
      exact Nat.zero_le _
    split
    case h_1 h => exact tabled_check (fun _ hv => hv) (tabled_placeRecord h used hu)
    case h_2 =>
      exact tabled_check (fun _ hv => hv) (tabled_keepPass x attempt r (tabled_of_tables (tables_join _ _) hu))

theorem execCharge_tabled (d : DockNo) (card : CardId) : Keeps State.tabled (execCharge d card) := by
  refine tabled_act fun u hu => ?_
  split
  case isFalse => exact hu
  case isTrue =>
    split
    case h_1 => exact hu
    case h_2 r hr =>
      split
      case isTrue => exact hu
      case isFalse =>
        split
        case isTrue hlt =>
          obtain ⟨hmem, rfl⟩ := cardRecord_some hr
          have charged : (u.setUsed r.card (· + 1)).tabled := tabled_setUsed hu fun x hx he => by
            rw [eq_of_key hu.cards.2.1 hx hmem he]
            exact hlt
          exact charged
        case isFalse => exact hu

theorem execClaimRequest_tabled (d : DockNo) (kind : ClaimKind) (holder : CardId) (origin : CardOrigin) (owner : Owner) :
    Keeps State.tabled (execClaimRequest d kind holder origin owner) := by
  refine tabled_act fun u hu => ?_
  split
  case h_1 | h_2 => exact tabled_requestClaim d _ holder origin owner hu
  case h_3 => exact hu

theorem execClaimGrant_tabled (d : DockNo) (answer : GrantAnswer) : Keeps State.tabled (execClaimGrant d answer) := by
  refine tabled_act fun u hu => ?_
  split
  case h_1 => exact hu
  case h_2 q _ => exact tabled_answerGrant q answer (tabled_of_tables (by simp) hu)

theorem execReservationDrop_tabled (d : DockNo) : Keeps State.tabled (execReservationDrop d) := by
  refine tabled_act fun u hu => ?_
  (repeat' split) <;> exact tabled_of_tables (by simp) hu

theorem execVanReleaseRequest_tabled (d : DockNo) (o : OrderId) (card : CardId) :
    Keeps State.tabled (execVanReleaseRequest d o card) := by
  refine tabled_act fun u hu => ?_
  split
  case isTrue => exact tabled_of_tables (by simp) hu
  case isFalse =>
    split
    case isTrue => exact tabled_of_tables (by simp) hu
    case isFalse =>
      split
      case isTrue => exact tabled_of_tables (by simp) hu
      case isFalse =>
        split
        case h_1 => exact tabled_of_tables (by simp) hu
        case h_2 h => exact tabled_of_tables ((tables_releaseReserved _ _ _ _).trans (tables_reserve h)) hu

theorem execClaimLockChange_tabled (d : DockNo) (lock : LockState) (completed : Bool) :
    Keeps State.tabled (execClaimLockChange d lock completed) := by
  refine tabled_act fun u hu => ?_
  (repeat' split) <;> exact tabled_of_tables (by simp) hu

theorem execClaimRemoval_tabled (d : DockNo) (bike : Option BikeId) : Keeps State.tabled (execClaimRemoval d bike) := by
  refine tabled_act fun u hu => ?_
  split
  case h_1 => exact hu
  case h_2 c _ =>
    split
    case h_1 | h_2 => exact tabled_of_tables (by simp) hu
    all_goals exact tabled_take c bike _ _ hu

theorem execClaimInsertion_tabled (d : DockNo) (crew : Option OrderId) : Keeps State.tabled (execClaimInsertion d crew) := by
  refine tabled_act fun u hu => ?_
  (repeat' split) <;> exact tabled_of_tables (by simp) hu

theorem execReleaseDeadline_tabled (d : DockNo) : Keeps State.tabled (execReleaseDeadline d) := by
  refine tabled_act fun u hu => ?_
  split <;> exact tabled_of_tables (by simp) hu

theorem execTakeWindowDeadline_tabled (d : DockNo) : Keeps State.tabled (execTakeWindowDeadline d) := by
  refine tabled_act fun u hu => ?_
  (repeat' split) <;> exact tabled_of_tables (by simp) hu

theorem execRelockDeadline_tabled (d : DockNo) : Keeps State.tabled (execRelockDeadline d) := by
  refine tabled_act fun u hu => ?_
  (repeat' split) <;> exact tabled_of_tables (by simp) hu

theorem execLockJamCleared_tabled (d : DockNo) : Keeps State.tabled (execLockJamCleared d) := by
  refine tabled_act fun u hu => ?_
  (repeat' split) <;> exact tabled_of_tables (by simp) hu

theorem execOrphanReconcile_tabled (d : DockNo) (o : Occupancy) (lock : LockState) :
    Keeps State.tabled (execOrphanReconcile d o lock) := by
  refine tabled_act fun u hu => ?_
  (repeat' split) <;> exact tabled_of_tables (by simp) hu

theorem execAllocation_tabled (x : TerminalId) (cls : BikeClass) (holder : CardId) (origin : CardOrigin) (exclude : Option DockNo) :
    Keeps State.tabled (execAllocation x cls holder origin exclude) := by
  refine tabled_act fun u hu => ?_
  split
  case h_1 => exact tabled_refuseRequest _ _ hu
  case h_2 => exact tabled_requestClaim _ _ _ _ _ hu

theorem execBikeTakenNotice_tabled (bike : BikeId) (written : Bool) : Keeps State.tabled (execBikeTakenNotice bike written) := by
  refine tabled_act fun u hu => ?_
  split
  case isTrue => exact hu
  case isFalse => exact tabled_dropGrace bike hu

theorem execVanBooking_tabled (card : CardId) (place : Place) : Keeps State.tabled (execVanBooking card place) := by
  refine tabled_act fun u hu => ?_
  split
  case isTrue => exact tabled_of_tables (by simp) hu
  case isFalse =>
    split
    case h_1 | h_2 => exact tabled_of_tables (by simp) hu
    case h_3 =>
      split
      case isTrue => exact tabled_openSession card place _ hu
      case isFalse => exact tabled_of_tables (by simp) hu

theorem execCrewTap_tabled (card : CardId) (place : Place) : Keeps State.tabled (execCrewTap card place) := by
  refine tabled_act fun u hu => ?_
  split
  case h_1 => split <;> exact tabled_of_tables (by simp) hu
  case h_2 v _ =>
    split
    case isTrue => exact tabled_openTap v card place (tabled_of_tables (by simp) hu)
    case isFalse => exact tabled_of_tables (by simp) hu

theorem execVanClaimNotice_tabled (d : DockNo) (o : OrderId) (news : VanNews) : Keeps State.tabled (execVanClaimNotice d o news) := by
  refine tabled_act fun u hu => ?_
  split
  case h_1 => exact hu
  case h_2 =>
    split
    case isTrue => exact hu
    case isFalse =>
      have left : (u.leaveDock d o).tabled := tabled_of_tables (by simp) hu
      refine tabled_testComplete ?_
      cases news with
      | taken => exact tabled_afterDone o (tabled_of_tables (tables_restartIdle _) (tabled_countDone o left))
      | lapsedOrFailed => exact tabled_of_tables (by simp) left
      | droppedAtRequest => exact left
      | droppedByEvent => exact tabled_of_tables (by simp) left
      | orphaned => exact left

theorem execCrewInsertionNotice_tabled (d : DockNo) (news : CrewInsertion) : Keeps State.tabled (execCrewInsertionNotice d news) := by
  refine tabled_act fun u hu => ?_
  split
  case h_1 => exact hu
  case h_2 =>
    split
    case h_1 => exact hu
    case h_2 =>
      split
      case isTrue => exact tabled_testComplete (tabled_of_tables (by simp) hu)
      case isFalse => exact hu
    case h_3 => exact tabled_testComplete (tabled_of_tables (by simp) hu)
    case h_4 =>
      split
      case isTrue => exact hu
      case isFalse => exact tabled_testComplete (tabled_of_tables (by simp) hu)

theorem execVanInNotice_tabled (o : OrderId) (d : DockNo) (n : SeqNo) (identified : Bool) :
    Keeps State.tabled (execVanInNotice o d n identified) := by
  refine tabled_act fun u hu => ?_
  split
  case h_1 => exact hu
  case h_2 => exact tabled_afterDone o (tabled_of_tables (by simp) (tabled_countDone o hu))

theorem execVanIdleDeadline_tabled : Keeps State.tabled execVanIdleDeadline := by
  refine tabled_act fun u hu => ?_
  split
  case isTrue => exact tabled_enterClosing _ hu
  case isFalse => exact hu

theorem execFaultRaise_tabled (x : FaultSubject) (k : FaultKind) (dock : Option DockNo) (carried : Carried) :
    Keeps State.tabled (execFaultRaise x k dock carried) := by
  refine tabled_act fun u hu => ?_
  split
  case isTrue => exact tabled_recordRaise x k _ (tabled_of_tables (by simp) hu)
  case isFalse => exact hu

theorem execHoldClear_tabled (d : DockNo) : Keeps State.tabled (execHoldClear d) := by
  refine tabled_act fun u hu => ?_
  split
  case h_1 => exact hu
  case h_2 r _ => exact tabled_of_tables (by simp) (tabled_clearHolds d r hu)

theorem execBikeArrivalNotice_tabled (d : DockNo) (bike : BikeId) : Keeps State.tabled (execBikeArrivalNotice d bike) := by
  refine tabled_act fun u hu => ?_
  split <;> exact tabled_of_tables (by simp) hu

theorem execFaultRemovalNotice_tabled (d : DockNo) (bike : Option BikeId) : Keeps State.tabled (execFaultRemovalNotice d bike) := by
  refine tabled_act fun u hu => ?_
  have changed := tabled_of_tables (tables_changeHolds u d (·.bikeGone bike)) hu
  have resolved := tabled_resolveRecord (.dock d) .tagConflict (tabled_resolveRecord (.dock d) .tagUnread changed)
  cases bike with
  | none => exact resolved
  | some b => exact tabled_resolveRecord _ _ resolved

theorem lineArrival_tabled (i : Instr) (x : TerminalId) (a : LineArrival) : Keeps State.tabled (lineArrival i x a) :=
  tabled_act fun _ hu => tabled_lineTakes x a hu

theorem execTerminalPowerSet_tabled (p : PowerState) (only : Option TerminalId) : Keeps State.tabled (execTerminalPowerSet p only) :=
  tabled_act fun _ hu => tabled_foldl (fun _ x hv => tabled_powerTerminal p x hv) _ hu

theorem execCheckResultAtSession_tabled (x : TerminalId) (attempt : Nat) (r : CheckResult) :
    Keeps State.tabled (execCheckResultAtSession x attempt r) := by
  refine tabled_act fun u hu => ?_
  dsimp only
  split
  case isTrue h => exact tabled_takeResult x r h.1 hu
  case isFalse => exact hu

theorem execClaimNoticeAtSession_tabled (x : TerminalId) (d : DockNo) (news : ClaimNews) :
    Keeps State.tabled (execClaimNoticeAtSession x d news) := by
  refine tabled_act fun u hu => ?_
  dsimp only
  split
  case isTrue h => exact tabled_takeClaimNews x d news h.1 hu
  case isFalse => exact hu

theorem execChoosingDeadline_tabled (x : TerminalId) : Keeps State.tabled (execChoosingDeadline x) := by
  refine tabled_act fun u hu => ?_
  split
  case isTrue => exact tabled_abandonChoice x hu
  case isFalse => exact hu

theorem execOfferedDeadline_tabled (x : TerminalId) : Keeps State.tabled (execOfferedDeadline x) := by
  refine tabled_act fun u hu => ?_
  split
  case isTrue => exact tabled_refuseSession x _ (tabled_of_tables (by simp) hu)
  case isFalse => exact hu

theorem execSupplySample_tabled (mains : Bool) (level : Byte) : Keeps State.tabled (execSupplySample mains level) := by
  intro s t h hs
  unfold execSupplySample at h
  cases hp : s.phase <;> simp only [hp] at h
  case running => exact tabled_act (fun u hu => tabled_takeSample mains level hu) s t h hs
  case supplyReset =>
    refine next_inj h ▸ ?_
    unfold State.sampleInReset
    dsimp only
    split
    case isTrue => exact tabled_restartUnlessHeld (s := s.tick.onSupply _) _ hs
    case isFalse => exact hs
  all_goals exact next_inj h ▸ hs

theorem exec_tabled (c : Instr) : Keeps State.tabled (exec c) := by
  by_cases hc : ∀ p ∈ [Part.card, .release, .order, .fault, .term, .store], p ∉ parts c
  case pos => exact tabled_readsOnly.exec hc
  cases c
  case timeSet tag body =>
    exact tabled_request fun a u _ hu =>
      tabled_reply _ _ _ .nothing (tabled_switchIfDue (s := u.onStore fun st => { st with clock := a, clockUnset := false }) hu)
  case settingsStage tag body =>
    exact execSettingsStage_tabled tag body
  case settingsDrop => exact execSettingsDrop_tabled _ _
  case settingsSwitch => exact tabled_act fun _ hu => tabled_switchIfDue hu
  case serviceStart => exact execServiceStart_tabled _ _
  case serviceStop => exact execServiceStop_tabled _ _
  case layoutSet => exact execLayoutSet_tabled _ _
  case dockSetService => exact execDockSetService_tabled _ _
  case cardPut => exact execCardPut_tabled _ _
  case cardDrop => exact execCardDrop_tabled _ _
  case cardVerdict => exact execCardVerdict_tabled _ _
  case orderAdd => exact execOrderAdd_tabled _ _
  case orderCancel => exact execOrderCancel_tabled _ _
  case faultAck => exact execFaultAck_tabled _ _
  case faultClear => exact execFaultClear_tabled _ _
  case terminalEnable tag body =>
    exact tabled_request fun x u _ hu => tabled_reply 0x1B tag .ok .nothing (tabled_enableLine x hu)
  case silenceDeadline => exact execSilenceDeadline_tabled
  case crewWindowDeadline => exact execCrewWindowDeadline_tabled _
  case dockCapChange c => exact tabled_act fun u hu => tabled_of_tables (tables_changeCaps u c.apply) hu
  case cardCheck card place =>
    exact tabled_act (f := fun u => u.check place (u.cardRecord card) (·.askHost card place)) fun _ hu =>
      tabled_check (fun _ hv => tabled_askHost card place hv) hu
  case queryDeadline => exact execQueryDeadline_tabled _
  case passSale => exact execPassSale_tabled _ _ _ _ _
  case charge => exact execCharge_tabled _ _
  case refund card =>
    exact tabled_act (f := fun u => u.setUsed card (· - 1)) fun _ hu => tabled_setUsed hu fun r hr _ => (Nat.sub_le _ _).trans (hu.cards.2.2 r hr)
  case claimRequest => exact execClaimRequest_tabled _ _ _ _ _
  case claimGrant => exact execClaimGrant_tabled _ _
  case reservationRequest d o => exact tabled_act fun u hu => tabled_of_tables (tables_tryReserve u d o) hu
  case reservationDrop => exact execReservationDrop_tabled _
  case vanReleaseRequest => exact execVanReleaseRequest_tabled _ _ _
  case claimLockChange => exact execClaimLockChange_tabled _ _ _
  case claimRemoval => exact execClaimRemoval_tabled _ _
  case claimInsertion => exact execClaimInsertion_tabled _ _
  case releaseDeadline => exact execReleaseDeadline_tabled _
  case takeWindowDeadline => exact execTakeWindowDeadline_tabled _
  case relockDeadline => exact execRelockDeadline_tabled _
  case displacement d => exact tabled_act fun u hu => tabled_of_tables (tables_displace u d) hu
  case lockJamCleared => exact execLockJamCleared_tabled _
  case orphanReconcile => exact execOrphanReconcile_tabled _ _ _
  case allocation => exact execAllocation_tabled _ _ _ _ _
  case graceExpiry bike =>
    exact tabled_act fun u hu => tabled_onRelease (f := fun r => { r with grace := r.grace.filter fun g =>
      !(g.bike == bike && g.expiry ≤ u.now) }) hu (graceFits_filter _ hu.grace)
  case bikeTakenNotice => exact execBikeTakenNotice_tabled _ _
  case vanBooking => exact execVanBooking_tabled _ _
  case journalEntryWrite q => exact tabled_act fun _ hu => tabled_writeEntry q hu
  case crewTap => exact execCrewTap_tabled _ _
  case placementPass => exact tabled_act fun u hu => tabled_of_tables (tables_placementPass u) hu
  case vanClaimNotice => exact execVanClaimNotice_tabled _ _ _
  case crewInsertionNotice => exact execCrewInsertionNotice_tabled _ _
  case vanInNotice => exact execVanInNotice_tabled _ _ _ _
  case vanIdleDeadline => exact execVanIdleDeadline_tabled
  case faultRaise => exact execFaultRaise_tabled _ _ _ _
  case faultResolution x k dock => exact tabled_act fun _ hu => tabled_resolveFault x k dock hu
  case holdClear => exact execHoldClear_tabled _
  case bikeArrivalNotice => exact execBikeArrivalNotice_tabled _ _
  case faultRemovalNotice => exact execFaultRemovalNotice_tabled _ _
  case terminalHello | terminalTap | terminalPaid | terminalPick | terminalCancel | terminalBadRecord | terminalRecordDiscarded
    | lineBreak => exact lineArrival_tabled _ _ _
  case terminalPowerSet => exact execTerminalPowerSet_tabled _ _
  case checkResultAtSession => exact execCheckResultAtSession_tabled _ _ _
  case claimNoticeAtSession => exact execClaimNoticeAtSession_tabled _ _ _
  case choosingDeadline => exact execChoosingDeadline_tabled _
  case offeredDeadline => exact execOfferedDeadline_tabled _
  case supplySample => exact execSupplySample_tabled _ _
  case requestReset =>
    refine keeps_next fun u hu => ?_
    split
    case isTrue => exact tabled_restartUnlessHeld _ hu
    case isFalse => exact hu
  case supplyResetEntry =>
    refine keeps_next fun u hu => ?_
    split
    case isTrue => exact tabled_darkened .supplyReset hu
    case isFalse => exact hu
  case resetLineLow =>
    have dark : ∀ u : State, u.tabled → ({ u with resetLow := true }.darkened .lineLow).tabled := fun u hu =>
      tabled_darkened (s := { u with resetLow := true }) .lineLow hu
    exact keeps_next fun u hu => by cases u.phase <;> first | exact hu | exact dark u hu
  case resetLineRelease =>
    refine keeps_next fun u hu => ?_
    split
    case isTrue => exact tabled_restart (s := { u with resetLow := false }) _ hu
    case isFalse => exact hu
  case powerUp =>
    refine keeps_next fun u hu => ?_
    split
    case isTrue => exact tabled_restartUnlessHeld _ hu
    case isFalse => exact hu
  case supplyPinsFall =>
    refine keeps_next fun u hu => ?_
    split
    case isTrue => exact hu
    case isFalse => exact tabled_darkened .pinsDown hu
  case backupCellFailure =>
    refine keeps_next fun u hu => ?_
    split <;> exact hu
  all_goals exact absurd (by simp [parts]) hc

/-- Settles O58: each table is changed by a few operations alone, each of which keeps its capacity, its key and the conditions on its
records; a new query finds one of 255 tags that none of the seven others holds. -/
theorem tablesAreKept : Obligations.TablesAreKept := by
  refine keptByStep_of_exec (fun _ _ h => h) fun c s t h hs => ?_
  rw [← tabled_iff] at hs ⊢
  exact exec_tabled c s t h hs

end Sys2Proof.Machine
end

section
/-! Proofs. A slot commanded OPEN, or withheld, has a level above CLOSED (R37), and a bike stands in one dock record (R91). -/

namespace Sys2Proof.Machine

/-! ### The two laws, dock by dock -/

/-- The law of R37 at one dock. -/
def SlotAt (s : State) (d : DockNo) : Prop :=
  ∀ r, s.dock? d = some r → r.commanded = .opened ∨ r.withheld = true → s.level d ≠ .closed

theorem slotsKept_iff (s : State) : slotsKept s ↔ ∀ d, SlotAt s d := Iff.rfl

theorem bikesKept_iff (s : State) : bikesKept s ↔ ∀ d e r q x y, s.dock? d = some r → s.dock? e = some q → r.bike = some x →
    q.bike = some y → x.id = y.id → d = e := by
  unfold bikesKept List.Nodup
  rw [List.pairwise_filterMap, List.pairwise_iff_getElem]
  constructor
  case mp =>
    intro h d e r q x y hr hq hx hy hid
    obtain ⟨hd, rfl⟩ := List.getElem?_eq_some_iff.mp hr
    obtain ⟨he, rfl⟩ := List.getElem?_eq_some_iff.mp hq
    rcases Nat.lt_trichotomy d e with hlt | heq | hlt
    · exact absurd hid (h d e hd he hlt _ (by simp [hx]) _ (by simp [hy]))
    · exact heq
    · exact absurd hid.symm (h e d he hd hlt _ (by simp [hy]) _ (by simp [hx]))
  case mpr =>
    intro h d e hd he hlt a ha b hb hab
    obtain ⟨x, hx, rfl⟩ := Option.map_eq_some_iff.mp ha
    obtain ⟨y, hy, rfl⟩ := Option.map_eq_some_iff.mp hb
    exact absurd (h d e _ _ x y (List.getElem?_eq_getElem hd) (List.getElem?_eq_getElem he) hx hy hab) (Nat.ne_of_lt hlt)

theorem bikesKept_of_fixtures {s t : State} (h : t.view.fixtures = s.view.fixtures) (hs : bikesKept s) : bikesKept t := by
  have read : ∀ u : State, bikesKept u ↔ (u.view.fixtures.docks.filterMap fun x => x.1.map (·.id)).Nodup := fun u => by
    simp only [bikesKept, State.view, List.filterMap_map]
    rfl
  rw [read] at hs ⊢
  rwa [h]

/-! ### The level, and the slot's command, as they are read from the view -/

theorem level_of_fixtures {s t : State} (h : t.view.fixtures = s.view.fixtures) (d : DockNo) : t.level d = s.level d := by
  have read : ∀ u : State, u.level d = match u.view.fixtures.docks[d]? with
      | some (_, l, x, y) => ({ hostSetting := l, dockHolds := x, bikeHolds := y } : DockRecord).level u.view.fixtures.caps
      | none => .closed := fun u => by
    unfold State.level State.dock?
    simp only [State.view, List.getElem?_map]
    cases u.dock.table[d]? <;> rfl
  rw [read, read, h]

theorem slotCommand_of_view {s t : State} (h : t.view = s.view) {d : DockNo} {r : DockRecord} (hr : t.dock? d = some r) :
    ∃ q, s.dock? d = some q ∧ q.slotCommand = r.slotCommand := by
  have hs : t.view.slots[d]? = s.view.slots[d]? := by rw [h]
  simp only [State.view, List.getElem?_map] at hs
  unfold State.dock? at hr
  rw [hr] at hs
  obtain ⟨q, hq, he⟩ := Option.map_eq_some_iff.mp hs.symm
  exact ⟨q, hq, he⟩

theorem slotAt_of_view {s t : State} (h : t.view = s.view) {d : DockNo} (hs : SlotAt s d) : SlotAt t d := by
  intro r hr hopen
  obtain ⟨q, hq, he⟩ := slotCommand_of_view h hr
  obtain ⟨hc, hw⟩ := Prod.mk.inj he
  rw [level_of_fixtures (congrArg View.fixtures h)]
  exact hs q hq (by rwa [hc, hw])

/-- The laws of R37 and R91. -/
def State.docked (s : State) : Prop := (∀ d, SlotAt s d) ∧ bikesKept s

theorem docked_of_view {s t : State} (h : t.view = s.view) (hs : s.docked) : t.docked :=
  ⟨fun d => slotAt_of_view h (hs.1 d), bikesKept_of_fixtures (congrArg View.fixtures h) hs.2⟩

theorem docked_readsOnly : ReadsOnly [.dock] State.docked := by
  intro s t h hs
  have hd : t.dock = s.dock := h .dock (by decide)
  unfold State.docked SlotAt State.level State.dock? bikesKept at *
  rwa [hd]

theorem docked_foldl {α : Type} {f : State → α → State} (h : ∀ s a, s.docked → (f s a).docked) (l : List α) {s : State}
    (hs : s.docked) : (l.foldl f s).docked := by
  induction l generalizing s with
  | nil => exact hs
  | cons a l ih => exact ih (h s a hs)

theorem docked_actKept : ActKept State.docked := ⟨fun _ _ h => h, fun _ h => h⟩

theorem docked_reply {s : State} (n : Nat) (tag : Byte) (code : ReplyCode) (p : Payload) (hs : s.docked) :
    (s.reply n tag code p).docked :=
  hs

theorem docked_act {i : Instr} {f : State → State} (hf : ∀ u, u.docked → (f u).docked) : Keeps State.docked fun s => act i s f :=
  docked_actKept.act hf

theorem docked_request {α : Type} {i : Instr} {n : Nat} {tag : Byte} {x : Except ReplyCode α} {f : α → State → State}
    (hf : ∀ a u, x = .ok a → u.docked → (f a u).docked) : Keeps State.docked fun s => request i n tag s x f :=
  docked_actKept.request (fun _ n tag code h => docked_reply n tag code .nothing h) hf

/-! ### The slot rules -/

/-- A slot with a level above CLOSED is free of the law. -/
theorem slotAt_of_level {s : State} {d : DockNo} (h : s.level d ≠ .closed) : SlotAt s d := fun _ _ _ => h

theorem slotAt_of_shut {s : State} {d : DockNo}
    (h : ∀ r, s.dock? d = some r → r.commanded = .shut ∧ r.withheld = false) : SlotAt s d := by
  intro r hr hopen
  obtain ⟨hc, hw⟩ := h r hr
  simp [hc, hw] at hopen

/-- The record and the level of a dock stand as they stood. -/
theorem slotAt_congr {s t : State} {d : DockNo} (hr : t.dock? d = s.dock? d) (hl : t.level d = s.level d) (hs : SlotAt s d) :
    SlotAt t d := by
  unfold SlotAt
  rwa [hr, hl]

theorem wantsOpen_level {s : State} {d : DockNo} (h : s.wantsOpen d = true) : s.level d ≠ .closed := by
  unfold State.wantsOpen at h
  unfold State.level
  split at h
  case h_1 => cases h
  case h_2 r hr =>
    simp only [Bool.and_eq_true, bne_iff_ne, ne_eq] at h
    rw [hr]
    exact h.1.2

/-- What taking the slot's want leaves at its dock when the slot is not wanted OPEN. -/
theorem takeSlot_shuts {s : State} {d : DockNo} (h : s.wantsOpen d = false) {q : DockRecord} (hq : (s.takeSlot d).dock? d = some q) :
    q.commanded = .shut ∧ q.withheld = false := by
  unfold State.takeSlot at hq
  split at hq
  case h_1 hnone => simp [hnone] at hq
  case h_2 r hr =>
    simp only [h, Bool.false_eq_true, if_false] at hq
    have other : ∀ m : SlotMode, m ≠ .opened → m = .shut := fun m => by cases m <;> simp
    by_cases hw : r.withheld = true <;> by_cases hc : r.commanded = .opened
    · simp only [hw, hc, if_true, (acts_changeSlot _ _ _).at_] at hq
      simp only [State.dock?, post_dock] at hq
      change Option.map _ ((s.onDock d _).dock? d) = _ at hq
      rw [dock?_onDock_self, hr] at hq
      cases hq
      exact ⟨rfl, rfl⟩
    · simp only [hw, hc, if_true, if_false] at hq
      change (s.onDock d _).dock? d = _ at hq
      rw [dock?_onDock_self, hr] at hq
      cases hq
      exact ⟨other _ hc, rfl⟩
    · simp only [hw, hc, if_true, if_false, Bool.false_eq_true, (acts_changeSlot _ _ _).at_, hr, Option.map_some] at hq
      cases hq
      exact ⟨rfl, by simp⟩
    · simp only [hw, hc, if_false, Bool.false_eq_true, hr] at hq
      cases hq
      exact ⟨other _ hc, by simpa using hw⟩

theorem slotAt_takeSlot_self (s : State) (d : DockNo) : SlotAt (s.takeSlot d) d := by
  cases hw : s.wantsOpen d
  case false => exact slotAt_of_shut fun _ hq => takeSlot_shuts hw hq
  case true => exact slotAt_of_level (level_of_fixtures (fixtures_takeSlot s d) d ▸ wantsOpen_level hw)

theorem slotAt_takeSlot_other {s : State} {d e : DockNo} (he : e ≠ d) (hs : SlotAt s e) : SlotAt (s.takeSlot d) e := by
  obtain ⟨_, _, acts⟩ := acts_takeSlot s d
  exact slotAt_congr (acts.oth.2 e he) (level_of_fixtures (fixtures_takeSlot s d) e) hs

theorem docked_takeSlot {s : State} (d : DockNo) (hs : s.docked) : (s.takeSlot d).docked := by
  refine ⟨fun e => ?_, bikesKept_of_fixtures (fixtures_takeSlot s d) hs.2⟩
  by_cases he : e = d
  case pos => exact he ▸ slotAt_takeSlot_self s d
  case neg => exact slotAt_takeSlot_other he (hs.1 e)

/-! ### A change of level -/

theorem view_takeLevel_of_ne {s : State} {d : DockNo} {b : Level} (h : s.level d ≠ b) :
    (s.takeLevel d b).view = (s.takeSlot d).view := by
  unfold State.takeLevel
  dsimp only
  rw [if_neg h]
  split <;> simp

theorem takeLevel_same {s : State} {d : DockNo} {b : Level} (h : s.level d = b) : s.takeLevel d b = s := by
  unfold State.takeLevel
  dsimp only
  rw [if_pos h]

theorem slotAt_takeLevel_self {s : State} {d : DockNo} {b : Level} (hs : s.level d = b → SlotAt s d) :
    SlotAt (s.takeLevel d b) d := by
  by_cases h : s.level d = b
  case pos =>
    rw [takeLevel_same h]
    exact hs h
  case neg => exact slotAt_of_view (view_takeLevel_of_ne h) (slotAt_takeSlot_self s d)

theorem slotAt_takeLevel_other {s : State} {d e : DockNo} {b : Level} (he : e ≠ d) (hs : SlotAt s e) : SlotAt (s.takeLevel d b) e := by
  by_cases h : s.level d = b
  case pos => rwa [takeLevel_same h]
  case neg => exact slotAt_of_view (view_takeLevel_of_ne h) (slotAt_takeSlot_other he hs)

/-- A change of the record of one dock that leaves its slot's command and its bike, with the level taken again. -/
theorem docked_changeInput {s : State} (d : DockNo) {f : DockRecord → DockRecord} (hslot : KeepsSlot f)
    (hbike : ∀ r, (f r).bike = r.bike) (hs : s.docked) : (s.changeInput d (·.onDock d f)).docked := by
  unfold State.changeInput
  have other : ∀ e, e ≠ d → SlotAt (s.onDock d f) e := fun e he => by
    have hr := dock?_onDock_other s d e f he
    refine slotAt_congr hr ?_ (hs.1 e)
    unfold State.level
    rw [hr]
    rfl
  have self : (s.onDock d f).level d = s.level d → SlotAt (s.onDock d f) d := fun hl q hq hopen => by
    rw [dock?_onDock_self] at hq
    obtain ⟨r, hr, rfl⟩ := Option.map_eq_some_iff.mp hq
    obtain ⟨hc, hw⟩ := Prod.mk.inj (hslot r)
    rw [hl]
    exact hs.1 d r hr (by rwa [← hc, ← hw])
  refine ⟨fun e => ?_, ?_⟩
  · by_cases he : e = d
    case pos =>
      subst he
      exact slotAt_takeLevel_self self
    case neg => exact slotAt_takeLevel_other he (other e he)
  · refine bikesKept_of_fixtures (fixtures_takeLevel _ _ _) ?_
    have same : (s.onDock d f).dock.table.map (·.bike) = s.dock.table.map (·.bike) := by
      rw [onDock_dock]
      exact map_modify_same hbike
    have read : ∀ u : State, bikesKept u ↔ ((u.dock.table.map (·.bike)).filterMap fun x => x.map (·.id)).Nodup := fun u => by
      rw [List.filterMap_map]
      rfl
    rw [read, same, ← read]
    exact hs.2

theorem docked_changeHolds {s : State} (d : DockNo) {f : DockRecord → DockRecord} (hslot : KeepsSlot f)
    (hbike : ∀ r, (f r).bike = r.bike) (hs : s.docked) : (s.changeHolds d f).docked := by
  have changed := docked_changeInput d hslot hbike hs
  unfold State.changeHolds
  dsimp only
  split
  case isTrue => exact docked_of_view (by simp) changed
  case isFalse => exact changed

/-- What is still to be done while a change of the caps is taken dock by dock: the law holds, or the dock is on the list with a level
before the change at which it holds. -/
def SlotOrListed (s : State) (l : List (Level × DockNo)) (e : DockNo) : Prop :=
  SlotAt s e ∨ ∃ p ∈ l, p.2 = e ∧ (s.level e = p.1 → SlotAt s e)

theorem takeLevel_other (s : State) {d e : DockNo} (b : Level) (he : e ≠ d) :
    (s.takeLevel d b).level e = s.level e ∧ (SlotAt s e → SlotAt (s.takeLevel d b) e) :=
  ⟨level_of_fixtures (fixtures_takeLevel s d b) e, slotAt_takeLevel_other he⟩

theorem slotAt_foldl_takeLevel (l : List (Level × DockNo)) {s : State} {e : DockNo} (h : SlotOrListed s l e) :
    SlotAt (l.foldl (fun s p => s.takeLevel p.2 p.1) s) e := by
  induction l generalizing s with
  | nil => exact h.resolve_right fun ⟨_, hp, _⟩ => nomatch hp
  | cons p l ih =>
    refine ih ?_
    dsimp only
    by_cases he : e = p.2
    case pos =>
      subst he
      by_cases hl : s.level p.2 = p.1
      case neg => exact Or.inl (slotAt_takeLevel_self fun h => absurd h hl)
      case pos =>
        rw [takeLevel_same hl]
        rcases h with hs | ⟨q, hq, hqe, hqs⟩
        · exact Or.inl hs
        · rcases List.mem_cons.mp hq with rfl | hq
          · exact Or.inl (hqs hl)
          · exact Or.inr ⟨q, hq, hqe, hqs⟩
    case neg =>
      obtain ⟨hlevel, hslot⟩ := takeLevel_other s p.1 he
      rcases h with hs | ⟨q, hq, hqe, hqs⟩
      · exact Or.inl (hslot hs)
      · rcases List.mem_cons.mp hq with rfl | hq
        · exact absurd hqe.symm he
        · exact Or.inr ⟨q, hq, hqe, fun h => hslot (hqs (hlevel ▸ h))⟩

theorem docked_changeCaps {s : State} (f : DockCaps → DockCaps) (hs : s.docked) : (s.changeCaps f).docked := by
  unfold State.changeCaps
  dsimp only
  refine ⟨fun e => slotAt_foldl_takeLevel _ ?_, ?_⟩
  · by_cases he : e < s.dockCount
    case neg =>
      refine Or.inl fun r hr _ => ?_
      obtain ⟨hlt, _⟩ := List.getElem?_eq_some_iff.mp hr
      exact absurd hlt he
    case pos =>
      refine Or.inr ⟨(s.level e, e), ?_, rfl, fun hl r hr hopen => ?_⟩
      · rw [List.mem_zipIdx_iff_getElem?]
        simp [he]
      · rw [hl]
        exact hs.1 e r hr hopen
  · refine bikesKept_of_fixtures (fixtures_foldl (fun _ _ => fixtures_takeLevel _ _ _) _ _) ?_
    exact hs.2

/-! ### Admissions -/

theorem otherDocks_admitDock (s : State) (d : DockNo) : OtherDocksSame d s (s.admitDock d) := by
  unfold State.admitDock
  dsimp only
  split
  case isFalse => exact ⟨rfl, fun _ _ => rfl⟩
  case isTrue =>
    have opened := acts_onDock (s.onJournal fun j => { j with withheld := j.withheld.erase d }) d fun r =>
      { r with commanded := .opened, withheld := false }
    obtain ⟨_, lamp⟩ := acts_relamp (((s.onJournal fun j => { j with withheld := j.withheld.erase d }).onDock d fun r =>
      { r with commanded := .opened, withheld := false }).onAccount d fun a => { a with slotOpen := true }) d
    have rest := lamp.trans (acts_postPass _ d)
    exact ⟨rest.oth.1.trans opened.oth.1, fun e he => (rest.oth.2 e he).trans (opened.oth.2 e he)⟩

theorem docked_admitDock {s : State} (d : DockNo) (hs : s.docked) : (s.admitDock d).docked := by
  have hlevel : ∀ e, (s.admitDock d).level e = s.level e := level_of_fixtures (fixtures_admitDock s d)
  refine ⟨fun e => ?_, bikesKept_of_fixtures (fixtures_admitDock s d) hs.2⟩
  by_cases he : e = d
  case neg => exact slotAt_congr ((otherDocks_admitDock s d).2 e he) (hlevel e) (hs.1 e)
  case pos =>
    subst he
    by_cases hw : (s.dock? e).any (fun r => r.withheld) = true
    case pos =>
      cases hr : s.dock? e with
      | none => simp [hr] at hw
      | some r => exact slotAt_of_level (hlevel e ▸ hs.1 e r hr (Or.inr (by simpa [hr] using hw)))
    case neg =>
      have same : (s.admitDock e).dock? e = s.dock? e := by
        unfold State.admitDock
        dsimp only
        rw [if_neg hw]
        rfl
      exact slotAt_congr same (hlevel e) (hs.1 e)

theorem docked_admitUpTo (n : Nat) {s : State} (hs : s.docked) : (s.admitUpTo n).docked := by
  induction n generalizing s with
  | zero => exact hs
  | succ n ih =>
    unfold State.admitUpTo
    split
    case h_1 => exact hs
    case h_2 =>
      split
      case isTrue => exact ih (docked_admitDock _ hs)
      case isFalse => exact hs

theorem docked_journalArrival {s : State} {f : State → State} (hf : (f s).docked) : (s.journalArrival f).docked := by
  have admitted : (f s).admitWithheld.docked := docked_admitUpTo _ hf
  unfold State.journalArrival
  dsimp only
  (repeat' split) <;> exact docked_of_view (by simp) admitted

theorem docked_writeEntry {s : State} (q : EntryRequest) (hs : s.docked) : (s.writeEntry q).docked :=
  docked_journalArrival (docked_of_view (by simp) hs)

/-! ### The van session -/

theorem docked_closeSession {s : State} (v : VanSession) (hs : s.docked) : (s.closeSession v).docked := by
  unfold State.closeSession
  split
  case h_1 => exact hs
  case h_2 o _ =>
    exact docked_of_view (by simp)
      (docked_writeEntry (.orderClosed v.order (closeOutcome v.cause o.done o.quantity) o.done o.quantity) hs)

theorem docked_testComplete {s : State} (hs : s.docked) : s.testComplete.docked := by
  unfold State.testComplete
  split
  case h_1 => exact hs
  case h_2 v _ =>
    split
    case isTrue => exact docked_closeSession v hs
    case isFalse => exact hs

theorem docked_enterClosing {s : State} (cause : CloseCause) (hs : s.docked) : (s.enterClosing cause).docked := by
  unfold State.enterClosing
  split
  case h_1 => exact hs
  case h_2 =>
    split
    case isTrue =>
      refine docked_testComplete (docked_of_view ?_ hs)
      rw [view_onVan, view_foldl (fun _ _ => view_onDock _ _ _ (by simp) (by simp)), view_postAll]
    case isFalse => exact hs

theorem docked_afterDone {s : State} (id : OrderId) (hs : s.docked) : (s.afterDone id).docked := by
  unfold State.afterDone
  split
  case isTrue => exact docked_enterClosing _ hs
  case isFalse => exact docked_of_view (by simp) hs

theorem docked_openSession {s : State} (card : CardId) (p : Place) (o : Order) (hs : s.docked) : (s.openSession card p o).docked := by
  have booked : (s.journalArrival (·.onJournal fun j => { j with vanBooked := true })).docked := docked_journalArrival hs
  exact docked_of_view (by simp [State.openSession]) booked

theorem docked_openTap {s : State} (v : VanSession) (card : CardId) (p : Place) (hs : s.docked) : (s.openTap v card p).docked := by
  unfold State.openTap
  split
  case h_1 => exact docked_enterClosing _ (docked_of_view (by simp) hs)
  case h_2 => (repeat' split) <;> exact docked_of_view (by simp) hs

theorem docked_cancelSession {s : State} (hs : s.docked) : s.cancelSession.docked := by
  unfold State.cancelSession
  split
  case isTrue => exact docked_enterClosing _ hs
  case isFalse => exact hs

theorem docked_take {s : State} (c : Claim) (b : Option BikeId) (late reset : Bool) (hs : s.docked) : (s.take c b late reset).docked := by
  have written := docked_writeEntry (.claimEnding c.dock c.kind b c.holder c.reference c.offline late reset) hs
  unfold State.take
  dsimp only
  split <;> exact docked_of_view (by simp) written

/-! ### Holds -/

theorem docked_setHold {s : State} (x : FaultSubject) (k : FaultKind) (dock : Option DockNo) (on : Bool) (hs : s.docked) :
    (s.setHold x k dock on).docked := by
  unfold State.setHold
  split
  case h_1 => exact docked_changeHolds _ (by simp) (by simp) hs
  case h_2 =>
    split
    case isTrue => exact docked_changeHolds _ (by simp) (by simp) hs
    case isFalse => exact hs
  case h_3 | h_4 => exact hs

theorem docked_resolveFault {s : State} (x : FaultSubject) (k : FaultKind) (dock : Option DockNo) (hs : s.docked) :
    (s.resolveFault x k dock).docked :=
  docked_setHold x k dock false hs

theorem docked_clearHolds {s : State} (d : DockNo) (r : DockRecord) (hs : s.docked) : (s.clearHolds d r).docked := by
  have cleared : (s.changeHolds d DockRecord.cleared).docked :=
    docked_changeHolds d (by simp [DockRecord.cleared]) (by simp [DockRecord.cleared]) hs
  have dockKinds : (clearableKinds.foldl (fun s k => s.resolveRecord (.dock d) k) (s.changeHolds d DockRecord.cleared)).docked :=
    docked_of_view (view_foldl (fun _ _ => by simp) _ _) cleared
  unfold State.clearHolds
  dsimp only
  (repeat' split) <;> exact docked_of_view (by simp) dockKinds

theorem docked_clearFault {s : State} (x : FaultSubject) (k : FaultKind) (hs : s.docked) : (s.clearFault x k).2.docked := by
  have dockKind : ∀ d k, (s.clearDockKind d k).2.docked := fun d k => by
    have resolved := docked_resolveFault (.dock d) k none hs
    unfold State.clearDockKind
    split
    case isTrue =>
      dsimp only
      split
      case isTrue => exact docked_of_view (by simp) resolved
      case isFalse => exact resolved
    case isFalse => exact hs
  have linkLoss : ∀ d, (s.clearLinkLoss d).2.docked := fun d => by
    have resolved := docked_resolveFault (.dock d) .linkLoss none hs
    unfold State.clearLinkLoss
    split
    case isTrue =>
      split
      case h_1 => exact docked_of_view (by simp) resolved
      case h_2 => split <;> [exact resolved; exact hs]
    case isFalse => exact hs
  unfold State.clearFault
  split
  case h_1 => exact linkLoss _
  case h_6 =>
    unfold State.clearRiderReport
    dsimp only
    split
    case isTrue => exact docked_resolveFault _ _ _ hs
    case isFalse => exact hs
  case h_7 => exact hs
  all_goals exact dockKind _ _

theorem docked_enableLine {s : State} (x : TerminalId) (hs : s.docked) : (s.enableLine x).docked := by
  unfold State.enableLine
  split
  case isTrue => exact docked_resolveFault _ _ _ (docked_of_view (by simp) hs)
  case isFalse => exact hs

/-! ### A report -/

/-- A change of the bike of one dock: the levels and the slots stand. -/
theorem docked_onBike {s : State} {d : DockNo} {f : DockRecord → DockRecord} (hslot : KeepsSlot f)
    (hlevel : ∀ r, (f r).fixed.2 = r.fixed.2)
    (hbike : ∀ r b, s.dock? d = some r → (f r).bike = some b → ∀ e q x, e ≠ d → s.dock? e = some q → q.bike = some x → x.id ≠ b.id)
    (hs : s.docked) : (s.onDock d f).docked := by
  have level : ∀ e, (s.onDock d f).level e = s.level e := fun e => by
    unfold State.level
    by_cases he : e = d
    case neg => rw [dock?_onDock_other s d e f he]; rfl
    case pos =>
      subst he
      rw [dock?_onDock_self]
      cases s.dock? e with
      | none => rfl
      | some r =>
        obtain ⟨hset, hholds⟩ := Prod.mk.inj (hlevel r)
        obtain ⟨hdock, hbike⟩ := Prod.mk.inj hholds
        simp only [Option.map_some, DockRecord.level, DockRecord.holdCap, hset, hdock, hbike]
        rfl
  refine ⟨fun e => ?_, (bikesKept_iff _).mpr ?_⟩
  · by_cases he : e = d
    case neg => exact slotAt_congr (dock?_onDock_other s d e f he) (level e) (hs.1 e)
    case pos =>
      subst he
      intro q hq hopen
      rw [dock?_onDock_self] at hq
      obtain ⟨r, hr, rfl⟩ := Option.map_eq_some_iff.mp hq
      obtain ⟨hc, hw⟩ := Prod.mk.inj (hslot r)
      rw [level]
      exact hs.1 e r hr (by rwa [← hc, ← hw])
  · have unique := (bikesKept_iff s).mp hs.2
    intro i j r q x y hr hq hx hy hid
    by_cases hi : i = d <;> by_cases hj : j = d
    · exact hi.trans hj.symm
    · subst hi
      rw [dock?_onDock_self] at hr
      rw [dock?_onDock_other s i j f hj] at hq
      obtain ⟨r', hr', rfl⟩ := Option.map_eq_some_iff.mp hr
      exact absurd hid.symm (hbike r' x hr' hx j q y hj hq hy)
    · subst hj
      rw [dock?_onDock_self] at hq
      rw [dock?_onDock_other s j i f hi] at hr
      obtain ⟨q', hq', rfl⟩ := Option.map_eq_some_iff.mp hq
      exact absurd hid (hbike q' y hq' hy i r x hi hr hx)
    · rw [dock?_onDock_other s d i f hi] at hr
      rw [dock?_onDock_other s d j f hj] at hq
      exact unique i j r q x y hr hq hx hy hid

theorem heldElsewhere_false {s : State} {d : DockNo} {b : BikeId} (h : s.heldElsewhere d b = false) {e : DockNo} {q : DockRecord}
    {x : Bike} (he : e ≠ d) (hq : s.dock? e = some q) (hx : q.bike = some x) : x.id ≠ b := by
  unfold State.heldElsewhere at h
  rw [List.any_eq_false] at h
  have := h (q, e) (List.mem_zipIdx_iff_getElem?.mpr hq)
  simpa [he, hx] using this

theorem docked_takeTag {s : State} (d : DockNo) (b : Bike) (owed : Bool) (hs : s.docked) : (s.takeTag d b owed).docked := by
  have waited : (s.onDock d fun r => { r with tagWait := 0 }).docked := docked_of_view (view_onDock _ _ _ (by simp) (by simp)) hs
  unfold State.takeTag
  dsimp only
  split
  case isTrue => exact docked_of_view (by simp) waited
  case isFalse h =>
    refine docked_of_view ?_ (docked_onBike (d := d) (f := fun r => { r with bike := some b }) (by simp) (fun _ => rfl) ?_ waited)
    · simp
    · intro r x _ hx e q y he hq hy
      cases hx
      rw [dock?_onDock_other _ _ _ _ he] at hq
      exact heldElsewhere_false (by simpa using h) he hq hy

theorem docked_stepTag {s : State} (d : DockNo) (tag : Option Bike) (hs : s.docked) : (s.stepTag d tag).docked := by
  unfold State.stepTag
  split
  case h_1 => exact hs
  case h_2 r _ =>
    split
    case isFalse => exact hs
    case isTrue =>
      split
      case h_1 b => exact docked_takeTag d b _ hs
      case h_2 => exact docked_of_view (by simp) hs

theorem docked_removal {s : State} (d : DockNo) (r : DockRecord) (hs : s.docked) : (s.removal d r).docked := by
  unfold State.removal
  dsimp only
  exact docked_onBike (s := State.post _ _) (by simp) (fun _ => rfl) (fun _ _ _ h => by cases h) (docked_of_view (by simp) hs)

theorem docked_applyDecision {s : State} (d : DockNo) (late : Bool) (q : Decision) (hs : s.docked) :
    (s.applyDecision d late q).docked := by
  unfold State.applyDecision
  split
  case h_1 => exact hs
  case h_2 r _ =>
    cases q with
    | nothing => exact hs
    | insertion => exact docked_takeSlot d (docked_of_view (by split <;> simp) hs)
    | removal => exact docked_takeSlot d (docked_of_view (view_noteChatter _ _) (docked_removal d r hs))
    | firstOccupied => exact docked_takeSlot d (docked_of_view (by simp) hs)
    | firstEmpty => exact docked_takeSlot d (docked_of_view (by simp) hs)

/-- The record of a dock is replaced by one with the same bike, level and slot command. -/
theorem view_putDock {s : State} {d : DockNo} {r q : DockRecord} (hr : s.dock? d = some r) (hf : q.fixed = r.fixed)
    (hs : q.slotCommand = r.slotCommand) : (s.onDock d fun _ => q).view = s.view := by
  have kept : (s.onDock d fun _ => q) = s.onDock d fun x => if x = r then q else x := by
    unfold State.onDock State.onDocks
    dsimp only
    congr 2
    apply List.ext_getElem?
    intro i
    by_cases hi : d = i
    case neg => simp [hi]
    case pos =>
      subst hi
      have : s.dock.table[d]? = some r := hr
      simp [this]
  rw [kept]
  refine view_onDock _ _ _ (fun x => ?_) (fun x => ?_)
  · split
    case isTrue h => rw [h, hf]
    case isFalse => rfl
  · split
    case isTrue h => rw [h, hs]
    case isFalse => rfl

theorem docked_stepPresence {s : State} (d : DockNo) (x : Nat) (late : Bool) (hs : s.docked) : (s.stepPresence d x late).docked := by
  unfold State.stepPresence
  split
  case h_1 => exact hs
  case h_2 r hr =>
    refine docked_of_view (view_testSensor _ _) (docked_applyDecision d late _ (docked_of_view (view_putDock hr ?_ ?_) hs))
    all_goals
      unfold DockRecord.sensed
      dsimp only
      split <;> rfl

theorem docked_takeReport {s : State} (p : Poll) (r : DockRecord) (q : DockReport) (hs : s.docked) : (s.takeReport p r q).docked := by
  unfold State.takeReport
  dsimp only
  have heard : (((s.onDock p.dock fun r => r.heard p q.emptyRef).stepLock p.dock q.lockSeen).stepSlot p.dock q.slotSeen).docked :=
    docked_of_view (by simp [DockRecord.heard]) hs
  exact docked_of_view (by simp) (docked_stepPresence p.dock q.sense r.link.lateJoin (docked_stepTag p.dock q.tag heard))

theorem docked_takeAnswer {s : State} (p : Poll) (r : DockRecord) (q : Option DockReport) (hs : s.docked) :
    (s.takeAnswer p r q).docked := by
  unfold State.takeAnswer
  split
  case h_1 => exact docked_of_view (by simp) hs
  case h_2 =>
    split
    case isTrue => exact docked_takeReport p r _ hs
    case isFalse => exact docked_of_view (by simp) hs

end Sys2Proof.Machine
end

section
/-! Proofs. Every command keeps the laws of R37 and R91. -/

namespace Sys2Proof.Machine

/-! ### Samples and resets -/

theorem docked_changePower {s : State} (p : PowerState) (hs : s.docked) : (s.changePower p).docked :=
  docked_of_view (view_changePower s p) hs

theorem docked_shutDown {s : State} (hs : s.docked) : s.shutDown.docked := hs

theorem docked_testLevel {s : State} (level : Nat) (hs : s.docked) : (s.testLevel level).docked := by
  unfold State.testLevel
  dsimp only
  (repeat' split) <;> first | exact hs | exact docked_shutDown hs | exact docked_changePower _ hs

theorem docked_takeSample {s : State} (mains : Bool) (level : Byte) (hs : s.docked) : (s.takeSample mains level).docked := by
  have sampled : (s.tick.onSupply (·.sample mains level)).docked := hs
  unfold State.takeSample State.followPower State.decidePower
  dsimp only
  split
  case isTrue =>
    refine docked_testLevel _ ?_
    (repeat' split) <;> first | exact sampled | exact docked_changePower _ sampled
  case isFalse =>
    split
    case h_1 => exact sampled
    case h_2 debounced _ =>
      have changed := docked_changePower (s := (s.tick.onSupply (·.sample mains level)).onSupply fun m => { m with decided := true })
        ((s.tick.onSupply (·.sample mains level)).settings.powerFor debounced level.toNat) sampled
      split
      case isTrue => exact docked_shutDown changed
      case isFalse => exact changed

theorem docked_blank {s : State} {n : Nat} (h : s.dock.table = List.replicate n {}) : s.docked := by
  have blank : ∀ d r, s.dock? d = some r → r = {} := fun d r hr => by
    unfold State.dock? at hr
    rw [h, List.getElem?_replicate] at hr
    split at hr <;> simp_all
  refine ⟨fun d => slotAt_of_shut fun r hr => by rw [blank d r hr]; exact ⟨rfl, rfl⟩, (bikesKept_iff s).mpr ?_⟩
  intro d e r q x y hr _ hx
  rw [blank d r hr] at hx
  cases hx

theorem docked_coldStart (s : State) (cause : ResetCause) : (s.coldStart cause).docked := docked_blank (n := 64) rfl

theorem slotAt_retake_self (s : State) (d : DockNo) : SlotAt ((s.takeSlot d).relamp d) d :=
  slotAt_of_view (view_relamp _ d) (slotAt_takeSlot_self s d)

theorem slotAt_retake {s : State} {d e : DockNo} (hs : SlotAt s e) : SlotAt ((s.takeSlot d).relamp d) e := by
  by_cases he : e = d
  case pos => exact he ▸ slotAt_retake_self s d
  case neg => exact slotAt_of_view (view_relamp _ d) (slotAt_takeSlot_other he hs)

/-- Once the want of every dock of the list has been taken, the law holds at those docks. -/
theorem slotAt_foldl_retake (l : List DockNo) {s : State} {e : DockNo} (h : SlotAt s e ∨ e ∈ l) :
    SlotAt (l.foldl (fun s d => (s.takeSlot d).relamp d) s) e := by
  induction l generalizing s with
  | nil => exact h.resolve_right (by simp)
  | cons d l ih =>
    refine ih ?_
    rcases h with h | h
    · exact Or.inl (slotAt_retake h)
    · rcases List.mem_cons.mp h with rfl | h
      · exact Or.inl (slotAt_retake_self s e)
      · exact Or.inr h

theorem docked_retakeDocks {s : State} (hs : bikesKept s) : s.retakeDocks.docked := by
  refine ⟨fun e => slotAt_foldl_retake _ ?_, bikesKept_of_fixtures (fixtures_foldl (fun _ _ => by simp) _ _) hs⟩
  by_cases he : e < s.dockCount
  case pos => exact Or.inr (List.mem_range.mpr he)
  case neg =>
    refine Or.inl fun r hr _ => ?_
    obtain ⟨hlt, _⟩ := List.getElem?_eq_some_iff.mp hr
    exact absurd hlt he

theorem docked_warmStart {s : State} (cause : ResetCause) (hs : s.docked) : (s.warmStart cause).docked := by
  have blocks : bikesKept (s.warmBlocks cause) := by
    unfold bikesKept
    simp only [State.warmBlocks, DockUnit.warm, List.filterMap_map]
    exact hs.2
  have closed : (s.warmBlocks cause).closeForRestart.view = (s.warmBlocks cause).view := by
    unfold State.closeForRestart
    split
    case h_1 => rfl
    case h_2 => split <;> simp
  have resolved : (s.warmBlocks cause).closeForRestart.resolveLines.view = (s.warmBlocks cause).closeForRestart.view :=
    view_foldl (fun _ _ => by simp) _ _
  have retaken := docked_retakeDocks (bikesKept_of_fixtures (congrArg View.fixtures (resolved.trans closed)) blocks)
  have counted : (s.warmBlocks cause).closeForRestart.resolveLines.retakeDocks.recountJournal.docked := retaken
  have admitted : (s.warmBlocks cause).closeForRestart.resolveLines.retakeDocks.recountJournal.admitWithheld.docked :=
    docked_admitUpTo _ counted
  exact admitted

theorem docked_restart {s : State} (cause : ResetCause) (hs : s.docked) : (s.restart cause).docked := by
  unfold State.restart
  split
  case isTrue => exact docked_warmStart cause hs
  case isFalse => exact docked_coldStart s cause

theorem docked_restartUnlessHeld {s : State} (cause : ResetCause) (hs : s.docked) : (s.restartUnlessHeld cause).docked := by
  have restarted := docked_restart cause hs
  unfold State.restartUnlessHeld
  dsimp only
  split <;> exact restarted

/-! ### Each command -/

theorem docked_switchIfDue {s : State} (hs : s.docked) : s.switchIfDue.docked := by
  unfold State.switchIfDue
  split
  case isFalse => exact hs
  case isTrue =>
    split
    case h_2 => exact hs
    case h_1 p _ =>
      have switched : (s.onStore fun st => { st with live := p.settings, pendingSet := none }).docked := hs
      unfold State.switchSettings
      dsimp only
      split <;> exact docked_of_view (by simp) switched

theorem execTimeSet_docked (tag : Byte) (body : List Byte) : Keeps State.docked (execTimeSet tag body) := by
  refine docked_request fun a u _ hu => docked_reply _ _ _ .nothing (docked_switchIfDue ?_)
  exact hu

theorem execSettingsStage_docked (tag : Byte) (body : List Byte) : Keeps State.docked (execSettingsStage tag body) := by
  refine docked_request fun a u _ hu => docked_reply _ _ _ .nothing (docked_switchIfDue ?_)
  exact hu

theorem execLayoutSet_docked (tag : Byte) (body : List Byte) : Keeps State.docked (execLayoutSet tag body) := by
  refine docked_request fun l u _ hu => ?_
  split
  case isTrue => exact hu
  case isFalse =>
    split
    case isTrue => exact hu
    case isFalse => exact docked_blank (n := l.dockCount) rfl

theorem execDockSetService_docked (tag : Byte) (body : List Byte) : Keeps State.docked (execDockSetService tag body) := by
  refine docked_request fun q u _ hu => ?_
  split
  case isTrue =>
    exact docked_reply 0x0D tag .ok (.level _)
      (docked_changeInput q.1 (f := fun r => { r with hostSetting := q.2 }) (by simp) (fun _ => rfl) hu)
  case isFalse => exact hu

theorem execJournalRelease_docked (tag : Byte) (body : List Byte) : Keeps State.docked (execJournalRelease tag body) := by
  refine docked_request fun through u _ hu => ?_
  split
  case h_1 => exact hu
  case h_2 k _ =>
    have removed : (u.journalArrival (·.onJournal fun j => { j with entries := j.entries.drop k })).docked := docked_journalArrival hu
    exact removed

theorem execOrderCancel_docked (tag : Byte) (body : List Byte) : Keeps State.docked (execOrderCancel tag body) := by
  refine docked_request fun id u _ hu => ?_
  split
  case h_1 => exact hu
  case h_2 o _ =>
    cases o.state with
    | queued => exact hu
    | active => exact docked_reply _ _ _ .nothing (docked_cancelSession hu)

theorem execFaultClear_docked (tag : Byte) (body : List Byte) : Keeps State.docked (execFaultClear tag body) := by
  intro s t h hs
  refine docked_request (fun q u _ hu => ?_) s t h hs
  exact docked_reply _ _ _ .nothing (docked_clearFault q.1 q.2 hu)

theorem execTerminalEnable_docked (tag : Byte) (body : List Byte) : Keeps State.docked (execTerminalEnable tag body) :=
  docked_request fun x _ _ hu => docked_reply 0x1B tag .ok .nothing (docked_enableLine x hu)

theorem execDockReport_docked (bytes : List Byte) : Keeps State.docked (execDockReport bytes) := by
  refine docked_act fun u hu => ?_
  split
  case h_1 => exact hu
  case h_2 x _ => exact docked_takeAnswer x.1 x.2 _ hu

theorem execClaimRemoval_docked (d : DockNo) (bike : Option BikeId) : Keeps State.docked (execClaimRemoval d bike) := by
  refine docked_act fun u hu => ?_
  split
  case h_1 => exact hu
  case h_2 c _ =>
    split
    case h_1 | h_2 => exact docked_of_view (by simp) hu
    all_goals exact docked_take c bike _ _ hu

theorem execBookingRequest_docked (d : DockNo) : Keeps State.docked (execBookingRequest d) := by
  refine docked_act fun u hu => ?_
  split
  case h_1 => exact hu
  case h_2 =>
    split
    case isTrue => exact hu
    case isFalse =>
      have held : (u.journalArrival (·.onJournal fun j => { j with inHand := j.inHand ++ [d] })).docked := docked_journalArrival hu
      exact held

theorem execVanBooking_docked (card : CardId) (place : Place) : Keeps State.docked (execVanBooking card place) := by
  refine docked_act fun u hu => ?_
  split
  case isTrue => exact docked_of_view (by simp) hu
  case isFalse =>
    split
    case h_1 | h_2 => exact docked_of_view (by simp) hu
    case h_3 =>
      split
      case isTrue => exact docked_openSession card place _ hu
      case isFalse => exact docked_of_view (by simp) hu

theorem execCrewTap_docked (card : CardId) (place : Place) : Keeps State.docked (execCrewTap card place) := by
  refine docked_act fun u hu => ?_
  split
  case h_1 => split <;> exact docked_of_view (by simp) hu
  case h_2 v _ =>
    split
    case isTrue => exact docked_openTap v card place (docked_of_view (by simp) hu)
    case isFalse => exact docked_of_view (by simp) hu

theorem execVanClaimNotice_docked (d : DockNo) (o : OrderId) (news : VanNews) : Keeps State.docked (execVanClaimNotice d o news) := by
  refine docked_act fun u hu => ?_
  split
  case h_1 => exact hu
  case h_2 =>
    split
    case isTrue => exact hu
    case isFalse =>
      have left : (u.leaveDock d o).docked := docked_of_view (by simp) hu
      refine docked_testComplete ?_
      cases news with
      | taken => exact docked_afterDone o (docked_of_view (by simp) left)
      | lapsedOrFailed => exact docked_of_view (by simp) left
      | droppedAtRequest => exact left
      | droppedByEvent => exact docked_of_view (by simp) left
      | orphaned => exact left

theorem execCrewInsertionNotice_docked (d : DockNo) (news : CrewInsertion) : Keeps State.docked (execCrewInsertionNotice d news) := by
  refine docked_act fun u hu => ?_
  split
  case h_1 => exact hu
  case h_2 =>
    split
    case h_1 => exact hu
    case h_2 =>
      split
      case isTrue => exact docked_testComplete (docked_of_view (by simp) hu)
      case isFalse => exact hu
    case h_3 => exact docked_testComplete (docked_of_view (by simp) hu)
    case h_4 =>
      split
      case isTrue => exact hu
      case isFalse => exact docked_testComplete (docked_of_view (by simp) hu)

theorem execVanInNotice_docked (o : OrderId) (d : DockNo) (n : SeqNo) (identified : Bool) :
    Keeps State.docked (execVanInNotice o d n identified) := by
  refine docked_act fun u hu => ?_
  split
  case h_1 => exact hu
  case h_2 => exact docked_afterDone o (docked_of_view (by simp) hu)

theorem execVanIdleDeadline_docked : Keeps State.docked execVanIdleDeadline := by
  refine docked_act fun u hu => ?_
  split
  case isTrue => exact docked_enterClosing _ hu
  case isFalse => exact hu

theorem execFaultRaise_docked (x : FaultSubject) (k : FaultKind) (dock : Option DockNo) (carried : Carried) :
    Keeps State.docked (execFaultRaise x k dock carried) := by
  refine docked_act fun u hu => ?_
  split
  case isTrue => exact docked_of_view (by simp) (docked_setHold x k dock true hu)
  case isFalse => exact hu

theorem execHoldClear_docked (d : DockNo) : Keeps State.docked (execHoldClear d) := by
  refine docked_act fun u hu => ?_
  split
  case h_1 => exact hu
  case h_2 r _ => exact docked_of_view (by simp) (docked_clearHolds d r hu)

theorem execBikeArrivalNotice_docked (d : DockNo) (bike : BikeId) : Keeps State.docked (execBikeArrivalNotice d bike) := by
  refine docked_act fun u hu => ?_
  split
  case isTrue => exact docked_setHold _ _ _ _ hu
  case isFalse => exact hu

theorem execFaultRemovalNotice_docked (d : DockNo) (bike : Option BikeId) : Keeps State.docked (execFaultRemovalNotice d bike) := by
  refine docked_act fun u hu => ?_
  have changed : (u.changeHolds d (·.bikeGone bike)).docked :=
    docked_changeHolds d (by simp [DockRecord.bikeGone]) (fun _ => rfl) hu
  cases bike <;> exact changed

theorem execSupplySample_docked (mains : Bool) (level : Byte) : Keeps State.docked (execSupplySample mains level) := by
  intro s t h hs
  unfold execSupplySample at h
  cases hp : s.phase <;> simp only [hp] at h
  case running => exact docked_act (fun u hu => docked_takeSample mains level hu) s t h hs
  case supplyReset =>
    refine next_inj h ▸ ?_
    unfold State.sampleInReset
    dsimp only
    split
    case isTrue => exact docked_restartUnlessHeld (s := s.tick.onSupply _) _ hs
    case isFalse => exact hs
  all_goals exact next_inj h ▸ hs

theorem exec_docked (c : Instr) : Keeps State.docked (exec c) := by
  by_cases hp : ∀ p ∈ [Part.dock], p ∉ parts c
  case pos => exact docked_readsOnly.exec hp
  by_cases hc : changesView c = false
  case pos => exact (exec_view c hc).keeps fun _ _ hv hs => docked_of_view hv hs
  cases c
  case timeSet => exact execTimeSet_docked _ _
  case settingsStage => exact execSettingsStage_docked _ _
  case settingsSwitch => exact docked_act fun _ hu => docked_switchIfDue hu
  case layoutSet => exact execLayoutSet_docked _ _
  case reset tag body =>
    exact docked_request (f := fun _ u => (u.reply 0x04 tag .ok).stopped .resetAsked) fun _ _ _ hu => hu
  case dockSetService => exact execDockSetService_docked _ _
  case journalRelease => exact execJournalRelease_docked _ _
  case orderCancel => exact execOrderCancel_docked _ _
  case faultClear => exact execFaultClear_docked _ _
  case terminalEnable => exact execTerminalEnable_docked _ _
  case dockReport => exact execDockReport_docked _
  case dockCapChange c => exact docked_act fun _ hu => docked_changeCaps c.apply hu
  case dockClaimNotice d => exact docked_act fun _ hu => docked_of_view (view_relamp _ d) (docked_takeSlot d hu)
  case claimRemoval => exact execClaimRemoval_docked _ _
  case bookingRequest => exact execBookingRequest_docked _
  case bookingGivenBack d =>
    exact docked_act (f := (·.journalArrival (·.onJournal fun j => { j with inHand := j.inHand.erase d }))) fun _ hu =>
      docked_journalArrival hu
  case vanBooking => exact execVanBooking_docked _ _
  case journalEntryWrite q => exact docked_act fun _ hu => docked_writeEntry q hu
  case journalWithheldNotice d joins =>
    exact docked_act (f := (·.journalArrival (·.onJournal fun j =>
      { j with withheld := if joins then (if d ∈ j.withheld then j.withheld else j.withheld ++ [d]) else j.withheld.erase d })))
      fun _ hu => docked_journalArrival hu
  case journalCountNotice d c =>
    exact docked_act (f := (·.journalArrival (·.tellAccount d c))) fun _ hu =>
      docked_journalArrival (docked_of_view (view_tellAccount _ _ _) hu)
  case crewTap => exact execCrewTap_docked _ _
  case vanClaimNotice => exact execVanClaimNotice_docked _ _ _
  case crewInsertionNotice => exact execCrewInsertionNotice_docked _ _
  case vanInNotice => exact execVanInNotice_docked _ _ _ _
  case vanIdleDeadline => exact execVanIdleDeadline_docked
  case faultRaise => exact execFaultRaise_docked _ _ _ _
  case faultResolution x k dock => exact docked_act fun _ hu => docked_resolveFault x k dock hu
  case holdClear => exact execHoldClear_docked _
  case bikeArrivalNotice => exact execBikeArrivalNotice_docked _ _
  case faultRemovalNotice => exact execFaultRemovalNotice_docked _ _
  case supplySample => exact execSupplySample_docked _ _
  case requestReset =>
    refine keeps_next fun u hu => ?_
    split
    case isTrue => exact docked_restartUnlessHeld _ hu
    case isFalse => exact hu
  case supplyResetEntry =>
    refine keeps_next fun u hu => ?_
    split <;> exact hu
  case resetLineLow => exact keeps_next fun u hu => by cases u.phase <;> exact hu
  case resetLineRelease =>
    refine keeps_next fun u hu => ?_
    split
    case isTrue => exact docked_restart (s := { u with resetLow := false }) _ hu
    case isFalse => exact hu
  case powerUp =>
    refine keeps_next fun u hu => ?_
    split
    case isTrue => exact docked_restartUnlessHeld _ hu
    case isFalse => exact hu
  case supplyPinsFall =>
    refine keeps_next fun u hu => ?_
    split <;> exact hu
  case backupCellFailure =>
    refine keeps_next fun u hu => ?_
    split <;> exact hu
  all_goals first | exact absurd rfl hc | exact absurd (by simp [parts]) hp

/-- Settles O60: a slot is commanded OPEN or withheld only where it is wanted, an admission takes a withheld dock, and a change that
lowers a level takes the want again; a tag is taken only where no other dock has its bike. -/
theorem slotsAndBikesAreKept : Obligations.SlotsAndBikesAreKept :=
  keptByStep_of_exec (fun _ _ h => h) exec_docked

end Sys2Proof.Machine
end


section
/-! Proofs. One step of the part, and the host link: the commands a stopped part takes, the hunt, frames received and sent,
unknown kinds, silence (R173 to R177, R190 to R197). -/

namespace Sys2Proof.Machine

/-! ### The step -/

/-- Settles O1: the queue's first command is the first thing `step` looks for. -/
theorem stepRunsFront : Obligations.StepRunsFront := by
  intro c rest s hpending
  simp only [step, hpending]

/-- Settles O3: every other command is one act, and an act does nothing in a part that does not run. -/
theorem stoppedPartTakesNothing : Obligations.StoppedPartTakesNothing := by
  intro c s hphase hc
  obtain ⟨f, hf⟩ := exec_eq_act c hc s
  rw [hf, act_stopped hphase]

theorem exec_next (c : Instr) (s : State) : ∃ t, exec c s = .next t := by
  by_cases hc : takenStopped c = false
  case pos =>
    obtain ⟨f, hf⟩ := exec_eq_act c hc s
    exact ⟨_, hf⟩
  cases c
  case frameSent =>
    simp only [exec, execFrameSent]
    cases s.host.outgoing with
    | nil => exact ⟨_, rfl⟩
    | cons f rest => cases s.phase <;> exact ⟨_, rfl⟩
  case supplySample mains level =>
    simp only [exec, execSupplySample]
    cases s.phase <;> exact ⟨_, rfl⟩
  case requestReset | supplyResetEntry | resetLineLow | resetLineRelease | powerUp | supplyPinsFall | backupCellFailure =>
    exact ⟨_, rfl⟩
  all_goals exact absurd rfl hc

theorem pending_not_in_parts (c : Instr) : Part.pending ∉ parts c := by
  cases c <;> simp [parts]

theorem straps_not_in_parts (c : Instr) : Part.straps ∉ parts c := by
  cases c <;> simp [parts]

/-- Settles O2: neither the queue nor the straps are among the parts of any command, and the step's other case is its own work. -/
theorem everyStepAnswers : Obligations.EveryStepAnswers := by
  refine ⟨fun c s => ?_, fun s hpending => ⟨fun i hi => ?_, fun hnone => ?_⟩⟩
  · obtain ⟨t, ht⟩ := exec_next c s
    have hsame := exec_only c s t ht
    exact ⟨t, ht, hsame _ (pending_not_in_parts c), hsame _ (straps_not_in_parts c)⟩
  · simp only [step, hpending, hi]
  · simp only [step, hpending, hnone]

theorem onHost_beginSending {s : State} (h : s.host.begun = true) : s.onHost HostLink.beginSending = s :=
  onHost_same (beginSending_of_begun h)

/-- An act of a running part whose effect leaves nothing unbegun at the front. -/
theorem act_begun {i : Instr} {s : State} {f : State → State} (h : s.phase = .running)
    (hf : (f (s.taking i)).host.begun = true) : act i s f = .next (f (s.taking i)) := by
  rw [act_running h, onHost_beginSending hf]

/-! ### The hunt (R190) -/

theorem hunt_hostFrame (kind tag : Byte) (body : List Byte) (n : Nat) (h : body.length ≤ 512) :
    hunt (n + 1) (hostFrame kind tag body) = ([.good ⟨kind, tag, body⟩], []) := by
  have hframe := frameAfterStart_frame kind tag body [] h
  rw [List.append_nil] at hframe
  have hrest : hunt n [] = ([], []) := by cases n <;> rfl
  simp only [hostFrame, hunt, if_true, hframe, hrest]

/-- Settles O4: the noise is passed over, and what stands after it ends as the frame. -/
theorem huntFindsFrameSent : Obligations.HuntFindsFrameSent := by
  intro noise kind tag body hnoise hbody
  rw [List.length_append, Nat.add_assoc, hunt_noise noise _ _ hnoise]
  exact hunt_hostFrame kind tag body _ hbody

/-- A start byte whose frame is bad, with no other start byte behind it. -/
theorem hunt_bad {b : List Byte} {n : Nat} (hb : 0xC3 ∉ b) (hn : b.length ≤ n) (h : frameAfterStart b = .bad) :
    hunt (n + 1) (0xC3 :: b) = ([.bad], []) := by
  simp only [hunt, if_true, h, hunt_quiet b n hb hn]

theorem frameAfterStart_overLong {b : List Byte} (h2 : 2 ≤ b.length) (h : 512 < fieldAt b 0 2) : frameAfterStart b = .bad := by
  unfold frameAfterStart
  rw [if_neg (by omega)]
  dsimp only
  rw [if_pos (show Config.bodyLimit < fieldAt b 0 2 from h)]

theorem frameAfterStart_badCheck {b : List Byte} (h : fieldAt b 0 2 ≤ 512) (hlen : b.length = fieldAt b 0 2 + 6)
    (hcheck : crc16 (b.take (fieldAt b 0 2 + 4)) ≠ halfAt b (fieldAt b 0 2 + 4)) : frameAfterStart b = .bad := by
  unfold frameAfterStart
  rw [if_neg (by omega)]
  dsimp only
  rw [if_neg (show ¬ Config.bodyLimit < fieldAt b 0 2 from Nat.not_lt.mpr h), if_neg (by omega), if_neg hcheck]

/-! ### Frames received (R191, R197) -/

theorem exec_hostFrameGood {s : State} {kind tag : Byte} {body : List Byte} (h : s.phase = .running) (hrx : s.host.rx = [])
    (hbody : body.length ≤ 512) :
    exec (.hostFrameGood (hostFrame kind tag body)) s = .next
      (((s.taking (.hostFrameGood (hostFrame kind tag body))).frameFound (.good ⟨kind, tag, body⟩)).onHost
        HostLink.beginSending) := by
  have hfound := receive_one (s := s.taking (.hostFrameGood (hostFrame kind tag body))) hrx (hunt_hostFrame kind tag body _ hbody)
  rw [← hfound]
  exact act_running (f := fun u => u.receive (hostFrame kind tag body)) h

/-- The link once a good frame has restarted its silence deadline. -/
def State.heard (s : State) : State :=
  s.onHost fun x => { x with lost := false, lastGood := s.now, deadline := some (s.now + s.settings.silenceLimit) }

theorem frameFound_of_up {s : State} (f : HostFrame) (h : s.host.lost = false) :
    s.frameFound (.good f) = (s.heard.onHost (·.accept f)).takeWaiting := by
  simp only [State.frameFound, State.hearHost, State.heard, h, Bool.false_eq_true, if_false]

theorem onHost_accept_of_room {s : State} {f : HostFrame} (h : s.host.waiting.length < 2) :
    s.onHost (·.accept f) = s.onHost fun x => { x with waiting := x.waiting ++ [f] } := by
  simp only [State.onHost, HostLink.accept, if_pos (show s.host.waiting.length < Config.frameRoom from h)]

theorem onHost_accept_of_full {s : State} {f : HostFrame} (h : s.host.waiting.length = 2) :
    s.onHost (·.accept f) = s.onHost fun x => { x with overruns := min 65535 (x.overruns + 1) } := by
  have hfull : ¬ s.host.waiting.length < Config.frameRoom := by rw [h]; decide
  simp only [State.onHost, HostLink.accept, if_neg hfull]
  rfl

theorem takeWaiting_busy {s : State} (h : s.host.requestOpen = true ∨ s.host.outgoing.any OutFrame.isReply = true) :
    s.takeWaiting = s := if_pos h

theorem takeWaiting_free {s : State} {f : HostFrame} {rest : List HostFrame} (hopen : s.host.requestOpen = false)
    (hreply : s.host.outgoing.any OutFrame.isReply = false) (hw : s.host.waiting = f :: rest) :
    s.takeWaiting = (s.onHost fun h => { h with waiting := rest, requestOpen := true }).post (requestOf f) := by
  unfold State.takeWaiting
  rw [if_neg (by simp [hopen, hreply]), hw]

theorem takeWaiting_none {s : State} (hw : s.host.waiting = []) : s.takeWaiting = s := by
  unfold State.takeWaiting
  rw [hw]
  exact ite_self _

/-- A frame that ends a silence: the link is UP, the notice joins, and the Dock Controller is told. -/
theorem frameFound_of_lost {s : State} (f : HostFrame) (h : s.host.lost = true) :
    (s.frameFound (.good f)).host.lost = false
      ∧ (s.frameFound (.good f)).host.deadline = some (s.now + s.settings.silenceLimit)
      ∧ NoticeKind.linkResumed.inSet (s.frameFound (.good f)).host.noticeSet = true
      ∧ .dockCapChange (.hostLink false) ∈ (s.frameFound (.good f)).inFlight := by
  have hfound : s.frameFound (.good f) =
      (((s.heard.join .linkResumed).post (.dockCapChange (.hostLink false))).onHost (·.accept f)).takeWaiting := by
    simp only [State.frameFound, State.hearHost, State.heard, h, if_true]
  obtain ⟨work, hwork⟩ := takeWaiting_work (((s.heard.join .linkResumed).post (.dockCapChange (.hostLink false))).onHost
    (·.accept f))
  rw [hfound, takeWaiting_lost, takeWaiting_deadline, takeWaiting_noticeSet, hwork]
  refine ⟨?_, ?_, ?_, ?_⟩
  · simp [State.onHost, State.post, State.join, State.heard]
  · simp [State.onHost, State.post, State.join, State.heard]
  · simp only [State.onHost, State.post, State.join, accept_noticeSet, join_noticeSet]
    exact inSet_or _ _
  · exact List.mem_append_left _ (List.mem_append_right _ (List.mem_singleton.mpr rfl))

/-- Settles O5: one frame is found in the bytes; what it does depends on whether the link was LOST, whether a reply is unsent, and how
many frames wait. -/
theorem framesAreTakenOverrunOrBad : Obligations.FramesAreTakenOverrunOrBad := by
  refine ⟨fun s kind tag body hready hrx hbody => ⟨?taken, ?waits, ?overrun, ?lost⟩, ?bad⟩
  case taken =>
    intro hw hopen hreply hlost
    have hroom : s.host.waiting.length < 2 := by rw [hw]; decide
    rw [exec_hostFrameGood hready.1 hrx hbody, frameFound_of_up (s := s.taking _) _ hlost]
    rw [onHost_accept_of_room (s := (s.taking _).heard) hroom]
    rw [takeWaiting_free (f := ⟨kind, tag, body⟩) (rest := []), onHost_beginSending]
    · simp [State.heard, State.onHost, State.taking, State.post, State.settings, hlost, hw]
    · exact hready.2
    · exact hopen
    · exact hreply
    · exact congrArg (· ++ _) hw
  case waits =>
    intro hw hbusy hlost
    rw [exec_hostFrameGood hready.1 hrx hbody, frameFound_of_up (s := s.taking _) _ hlost]
    rw [onHost_accept_of_room (s := (s.taking _).heard) hw, takeWaiting_busy, onHost_beginSending]
    · simp [State.heard, State.onHost, State.taking, State.settings, hlost]
    · exact hready.2
    · exact hbusy
  case overrun =>
    intro hw hbusy hlost
    rw [exec_hostFrameGood hready.1 hrx hbody, frameFound_of_up (s := s.taking _) _ hlost]
    rw [onHost_accept_of_full (s := (s.taking _).heard) hw, takeWaiting_busy, onHost_beginSending]
    · simp [State.heard, State.onHost, State.taking, State.settings, hlost]
    · exact hready.2
    · exact hbusy
  case lost =>
    intro hlost
    have hexec := exec_hostFrameGood (kind := kind) (tag := tag) hready.1 hrx hbody
    obtain ⟨hup, hdeadline, hnotice, htold⟩ :=
      frameFound_of_lost (s := s.taking (.hostFrameGood (hostFrame kind tag body))) ⟨kind, tag, body⟩ hlost
    refine ⟨_, hexec, ?_, ?_, ?_, htold, exec_only _ _ _ hexec⟩
    · exact (beginSending_lost _).trans hup
    · exact (beginSending_deadline _).trans hdeadline
    · rwa [State.onHost, beginSending_noticeSet]
  case bad =>
    intro s b hready hrx hb hcase
    have hframe : frameAfterStart b = .bad := by
      rcases hcase with ⟨h2, hlong⟩ | ⟨hlen, hshort, hcheck⟩
      · exact frameAfterStart_overLong h2 hlong
      · exact frameAfterStart_badCheck hlen hshort hcheck
    have hreceive := receive_one (s := s.taking (.hostFrameBad (0xC3 :: b))) hrx
      (hunt_bad (n := (0xC3 :: b).length) hb (by simp) hframe)
    have hexec : exec (.hostFrameBad (0xC3 :: b)) s = .next
        (((s.taking (.hostFrameBad (0xC3 :: b))).receive (0xC3 :: b)).onHost HostLink.beginSending) :=
      act_running (f := fun u => u.receive (0xC3 :: b)) hready.1
    rw [hexec, hreceive, State.frameFound, onHost_beginSending]
    · rfl
    · exact hready.2

/-! ### Frames sent (R191, R193) -/

theorem exec_frameSent {s : State} {f : OutFrame} {rest : List OutFrame} (h : s.phase = .running)
    (hout : s.host.outgoing = f :: rest) :
    exec .frameSent s = .next
      ((((s.taking .frameSent).onHost fun x => { x with outgoing := rest }).replySent f).onHost HostLink.beginSending) := by
  have hsent : (s.taking .frameSent).onHost HostLink.sent = (s.taking .frameSent).onHost fun x => { x with outgoing := rest } := by
    simp only [State.onHost, State.taking, HostLink.sent, hout, List.drop_succ_cons, List.drop_zero]
  simp only [exec, execFrameSent, hout, h]
  rw [act_running h, hsent]

theorem replySent_of_other {s : State} {f : OutFrame} (h : f.isReply = false) : s.replySent f = s := by
  simp only [State.replySent, h, Bool.false_eq_true, if_false]

theorem replySent_of_reply {s : State} {f : OutFrame} (h : f.isReply = true) :
    s.replySent f = (s.onHost fun x => { x with requestOpen := false }).takeWaiting := if_pos h

/-- Settles O6: only a frame that is a reply ends the request in progress, and a waiting request is then taken. -/
theorem frameSentGoesOn : Obligations.FrameSentGoesOn := by
  intro s f rest hrun hout
  rw [exec_frameSent hrun hout]
  refine ⟨fun hf => ?other, fun hf hw => ?last, fun g more hf hw hrest => ?next⟩
  case other =>
    rw [replySent_of_other hf]
    rfl
  case last =>
    rw [replySent_of_reply hf, takeWaiting_none]
    · rfl
    · exact hw
  case next =>
    rw [replySent_of_reply hf, takeWaiting_free (f := g) (rest := more)]
    · rfl
    · rfl
    · exact hrest
    · exact hw

/-! ### Silence (R66, R197) -/

/-- A lost link is LOST without a deadline, with no query left, and the Dock Controller is the last told. -/
theorem loseLink_facts (s : State) :
    s.loseLink.host.lost = true ∧ s.loseLink.host.deadline = none ∧ s.loseLink.card.queries = []
      ∧ s.loseLink.inFlight.getLast? = some (.dockCapChange (.hostLink true)) := by
  obtain ⟨hqueries, -, hlost, hdeadline, -⟩ := endQueries_aside (s.onHost fun h => { h with lost := true, deadline := none })
  exact ⟨hlost, hdeadline, hqueries, List.getLast?_concat⟩

/-- Settles O8: the deadline is reached on an UP link, so the act is the loss of the link. -/
theorem silenceLosesTheLink : Obligations.SilenceLosesTheLink := by
  intro s d hready hlost hdeadline hdue
  obtain ⟨hl, hd, hq, hlast⟩ := loseLink_facts (s.taking .silenceDeadline)
  have hreached : s.reached s.host.deadline = true := by simp [State.reached, hdeadline, hdue]
  have hexec : exec .silenceDeadline s = .next ((s.taking .silenceDeadline).loseLink.onHost HostLink.beginSending) := by
    simp only [exec, execSilenceDeadline]
    rw [act_running hready.1, if_pos ⟨by simp [State.taking, hlost], hreached⟩]
  exact ⟨_, hexec, (beginSending_lost _).trans hl, (beginSending_deadline _).trans hd, hq, hlast, exec_only _ _ _ hexec⟩

end Sys2Proof.Machine
end


section
/-! Proofs. The reading requests, service, layout and settings requests (R181 to R189). -/

namespace Sys2Proof.Machine

/-! ### Reading requests -/

/-- A request that is answered last leaves the state that ends with its reply. -/
theorem request_replies {α : Type} {i : Instr} {k : Nat} {tag : Byte} {s t : State} {x : Except ReplyCode α} {a : α}
    {f : α → State → State} (u : State) (code : ReplyCode) (p : Payload) (h : s.ready) (hx : x = .ok a)
    (hf : f a (s.taking i) = u.reply k tag code p) (hu : u.host.begun = true) (ht : u.reply k tag code p = t) :
    request i k tag s x f = .next t :=
  ht ▸ request_answered h hx hf hu

theorem operands_byte {n : Nat} (h : n < 256) : fieldAt [byteOf n] 0 1 = n := by
  simp only [fieldAt, natOfBytes, byteOf, List.drop_zero, List.take_succ_cons, List.take_zero, List.foldl, BitVec.toNat_ofNat]
  omega

theorem operands_dockNumber {d : DockNo} (h : d < 64) : Operands.dockNumber [byteOf d] = .ok d := by
  have hbyte : fieldAt [byteOf d] 0 1 = d := operands_byte (Nat.lt_trans h (by decide))
  simp only [Operands.dockNumber, Operands.fixed, List.length_singleton, if_true, hbyte]

theorem operands_cardId (card : CardId) : Operands.cardId (bytesWord card) = .ok card := by
  simp only [Operands.cardId, Operands.fixed, bytesWord_length, if_true, wordAt_bytesWord']

theorem operands_terminal (t : TerminalId) : Operands.terminal [byteOf (Code.terminal t)] = .ok t := by
  cases t <;> rfl

theorem empty_nil : Operands.empty [] = .ok () := rfl

/-- Settles O13: each request's body gives its fields, and the answer is read from the state the request is taken in. -/
theorem readingRequestsAnswer : Obligations.ReadingRequestsAnswer := by
  intro s tag hready
  refine ⟨?layout, ?settings, fun d r hd hlt => ?dock, fun card r hcard => ?card, ?orders, fun t => ?terminal⟩
  case layout =>
    simp only [exec, execLayoutGet]
    exact request_replies (s.taking _) _ _ hready empty_nil rfl hready.2 rfl
  case settings =>
    simp only [exec, execSettingsGet]
    exact request_replies (s.taking _) _ _ hready empty_nil rfl hready.2 rfl
  case orders =>
    simp only [exec, execOrderList]
    exact request_replies (s.taking _) _ _ hready empty_nil rfl hready.2 rfl
  case terminal =>
    simp only [exec, execTerminalGet]
    exact request_replies (s.taking _) _ _ hready (operands_terminal t) rfl hready.2 rfl
  case card =>
    have hfound : (s.taking (.cardGet tag (bytesWord card))).cardRecord card = some r := hcard
    simp only [exec, execCardGet]
    refine request_replies (s.taking _) _ _ hready (operands_cardId card) ?_ hready.2 rfl
    rw [hfound]
  case dock =>
    have hfound : (s.taking (.dockGet tag [byteOf d])).dock? d = some r := hd
    simp only [exec, execDockGet]
    refine request_replies (s.taking _) _ _ hready (operands_dockNumber hlt) ?_ hready.2 rfl
    rw [hfound]
    rfl

/-! ### Service (R181, R182) -/

/-- Settles O14: the station state, the claims and the session decide the answer, and a change of station is handed on before it. -/
theorem serviceStartsAndStops : Obligations.ServiceStartsAndStops := by
  intro s tag hready
  refine ⟨fun hst => ?start, fun hst => ?started, fun hst hclaims hsession => ?stop, fun hst hbusy => ?busy, fun hst => ?stopped⟩
  case start =>
    simp only [exec, execServiceStart]
    exact request_replies ((s.taking _).setStation .serving) _ _ hready empty_nil (if_pos hst) hready.2 rfl
  case started =>
    have hserving : ¬ s.store.station = .configuring := fun h => absurd (hst.symm.trans h) (by decide)
    simp only [exec, execServiceStart]
    refine request_replies (s.taking _) _ _ hready empty_nil ?_ hready.2 rfl
    exact if_neg hserving
  case stop =>
    have hserving : ¬ s.store.station = .configuring := fun h => absurd (hst.symm.trans h) (by decide)
    have hfree : ¬ (s.release.claims ≠ [] ∨ s.order.session.isSome) := by simp [hclaims, hsession]
    simp only [exec, execServiceStop]
    refine request_replies ((s.taking _).setStation .configuring) _ _ hready empty_nil ?_ hready.2 rfl
    exact (if_neg hserving).trans (if_neg hfree)
  case busy =>
    have hserving : ¬ s.store.station = .configuring := fun h => absurd (hst.symm.trans h) (by decide)
    simp only [exec, execServiceStop]
    refine request_replies (s.taking _) _ _ hready empty_nil ?_ hready.2 rfl
    exact (if_neg hserving).trans (if_pos hbusy)
  case stopped =>
    simp only [exec, execServiceStop]
    exact request_replies (s.taking _) _ _ hready empty_nil (if_pos hst) hready.2 rfl

end Sys2Proof.Machine
end


section
/-! Proofs. Work that an act hands on joins what is in flight; a switch of the settings, the clock, and the staging of a set
(R185 to R187, R189, R197). -/

namespace Sys2Proof.Machine

/-! ### Acts that only add to the work in flight -/

/-- From `s` to `t` work has only been handed on: what was in flight still stands, in its order, before it. -/
def Adds (s t : State) : Prop := s.inFlight <+: t.inFlight

theorem Adds.refl (s : State) : Adds s s := List.prefix_refl _

theorem Adds.trans {s t u : State} (h : Adds s t) (k : Adds t u) : Adds s u := List.IsPrefix.trans h k

theorem Adds.mem {s t : State} {i : Instr} (h : Adds s t) (hi : i ∈ s.inFlight) : i ∈ t.inFlight := h.subset hi

theorem adds_of_only {w : List Part} {s t : State} (h : Only w s t) (hw : Part.inFlight ∉ w) : Adds s t := by
  have hsame : t.inFlight = s.inFlight := h .inFlight hw
  rw [Adds, hsame]

theorem adds_post (s : State) (i : Instr) : Adds s (s.post i) := List.prefix_append _ _

theorem adds_postIf (s : State) (b : Bool) (i : Instr) : Adds s (s.postIf b i) := by
  unfold State.postIf
  split
  case isTrue => exact adds_post s i
  case isFalse => exact Adds.refl s

theorem adds_tellPlace (s : State) (p : Place) (r : CheckResult) : Adds s (s.tellPlace p r) := by
  cases p with
  | reader d => exact Adds.refl s
  | terminal t a => exact adds_post s _

theorem adds_denyPlace (s : State) (p : Place) (why : DenyReason) : Adds s (s.denyPlace p why) := adds_tellPlace s p _

theorem adds_passRider (s : State) (r : CardRecord) (p : Place) : Adds s (s.passRider r p) := by
  cases p <;> exact adds_post s _

theorem adds_passService (s : State) (r : CardRecord) (p : Place) : Adds s (s.passService r p) := by
  cases p with
  | terminal t a => exact adds_denyPlace s _ _
  | reader d =>
    simp only [State.passService]
    split
    · exact Adds.refl s
    · split
      · exact adds_post s _
      · split
        · exact adds_post s _
        · exact adds_denyPlace s _ _

theorem adds_finishCheck (s : State) (r : CardRecord) (p : Place) : Adds s (s.finishCheck r p) := by
  unfold State.finishCheck State.passTap
  split
  · exact adds_denyPlace s p _
  · split
    · exact adds_passRider s r p
    · exact adds_passRider s r p
    · exact adds_post s _
    · exact adds_passService s r p

theorem adds_unknownCard (s : State) (c : CardId) (p : Place) : Adds s (s.unknownCard c p) := by
  unfold State.unknownCard
  split
  · exact adds_denyPlace s p _
  · split
    · exact adds_denyPlace s p _
    · split
      · exact (adds_of_only (w := [.host]) (by simp) (by decide)).trans (adds_denyPlace (s.join .cardTableFull) p _)
      · next placed =>
        exact (adds_of_only (placeRecord_only placed) (by decide)).trans (adds_finishCheck _ _ p)

theorem adds_resolveWaiter (s : State) (c : CardId) (own : Option CardRecord) (p : Place) :
    Adds s (s.resolveWaiter c own p) := by
  unfold State.resolveWaiter State.check
  split
  · exact adds_denyPlace s p _
  · exact adds_finishCheck s _ p
  · exact adds_unknownCard s c p

theorem adds_foldl {α : Type} {f : State → α → State} (h : ∀ t a, Adds t (f t a)) (l : List α) (s : State) :
    Adds s (l.foldl f s) := by
  induction l generalizing s with
  | nil => exact Adds.refl s
  | cons a l ih => exact (h s a).trans (ih (f s a))

theorem adds_resolveQuery (s : State) (q : Query) (own : Option CardRecord) : Adds s (s.resolveQuery q own) :=
  adds_foldl (fun t p => adds_resolveWaiter t q.card own p) _ s

theorem adds_endQueries (s : State) : Adds s s.endQueries :=
  adds_foldl (fun t q => adds_resolveQuery t q none) _ (s.onCards fun u => { u with queries := [] })

theorem adds_loseLink (s : State) : Adds s s.loseLink :=
  (adds_endQueries (s.onHost fun h => { h with lost := true, deadline := none })).trans (adds_post _ _)

theorem adds_newLimit (s : State) (limit : Nat) : Adds s (s.newLimit limit) := by
  unfold State.newLimit
  split
  · exact Adds.refl s
  · split
    · exact adds_loseLink s
    · exact Adds.refl s

/-! ### A switch of the settings (R187) -/

theorem newLimit_of_late {s : State} {limit : Nat} (hlost : s.host.lost = false) (hlate : s.host.lastGood + limit ≤ s.now) :
    s.newLimit limit = s.loseLink := by
  simp only [State.newLimit, hlost, Bool.false_eq_true, if_false, if_pos hlate]

/-- A limit that does not end in the past moves the deadline of an UP link, and nothing else. -/
theorem newLimit_of_early {s : State} {limit : Nat} (h : s.host.lost = false → ¬ s.host.lastGood + limit ≤ s.now) :
    s.newLimit limit = s.onHost fun x =>
      { x with deadline := if s.host.lost = true then x.deadline else some (x.lastGood + limit) } := by
  by_cases hlost : s.host.lost = true
  case pos =>
    have hkeep : s.newLimit limit = s := if_pos hlost
    rw [hkeep, onHost_same (by rw [if_pos hlost])]
  case neg => simp only [State.newLimit, hlost, if_false, if_neg (h (Bool.eq_false_iff.mpr hlost)), Bool.false_eq_true]

/-- The state of a switch before the limit is looked at: the set is live, its notice joined, a changed action told. -/
def State.switchedSet (s : State) (p : PendingSettings) : State :=
  ((s.onStore fun st => { st with live := p.settings, pendingSet := none }).join .settingsSwitched).postIf
    (decide (p.settings.silenceAction ≠ s.settings.silenceAction)) (.dockCapChange (.silenceAction p.settings.silenceAction))

theorem switchSettings_eq (s : State) (p : PendingSettings) :
    s.switchSettings p = if p.settings.silenceLimit = s.settings.silenceLimit then s.switchedSet p
      else (s.switchedSet p).newLimit p.settings.silenceLimit := rfl

theorem switchedSet_host (s : State) (p : PendingSettings) : (s.switchedSet p).host = s.host.join .settingsSwitched := by
  unfold State.switchedSet State.postIf
  split <;> rfl

theorem switchedSet_only (s : State) (p : PendingSettings) : Only [.store, .host, .inFlight] s (s.switchedSet p) := by
  simp [State.switchedSet]

theorem switchedSet_inFlight (s : State) (p : PendingSettings) :
    (s.switchedSet p).inFlight = s.inFlight ++ (if p.settings.silenceAction = s.store.live.silenceAction then []
      else [.dockCapChange (.silenceAction p.settings.silenceAction)]) := by
  unfold State.switchedSet State.postIf
  by_cases h : p.settings.silenceAction = s.store.live.silenceAction
  case pos => simp [h, State.settings, State.join, State.onStore]
  case neg => simp [h, State.settings, State.join, State.onStore, State.post]

theorem switchSettings_of_overdue {s : State} {p : PendingSettings} (h : overdueAt s p) :
    s.switchSettings p = (s.switchedSet p).loseLink := by
  obtain ⟨hlost, hlimit, hlate⟩ := h
  have hhost := switchedSet_host s p
  have hnow : (s.switchedSet p).now = s.now := switchedSet_only s p .now (by decide)
  rw [switchSettings_eq, if_neg (by exact hlimit)]
  exact newLimit_of_late (by rw [hhost, join_lost, hlost]) (by rw [hhost, join_lastGood, hnow]; exact hlate)

/-- A switch that does not lose the link moves its deadline at most. -/
theorem switchSettings_of_intime {s : State} {p : PendingSettings} (h : ¬ overdueAt s p) :
    s.switchSettings p = (s.switchedSet p).onHost fun x =>
      { x with deadline := if s.host.lost = true ∨ p.settings.silenceLimit = s.store.live.silenceLimit then x.deadline
          else some (s.host.lastGood + p.settings.silenceLimit) } := by
  have hhost := switchedSet_host s p
  have hnow : (s.switchedSet p).now = s.now := switchedSet_only s p .now (by decide)
  rw [switchSettings_eq]
  by_cases hlimit : p.settings.silenceLimit = s.store.live.silenceLimit
  case pos =>
    rw [if_pos (by exact hlimit)]
    simp only [State.onHost, hlimit, or_true, if_true]
  case neg =>
    rw [if_neg (by exact hlimit), newLimit_of_early]
    · simp only [State.onHost, hhost, join_lost, join_lastGood, hlimit, or_false]
    · rw [hhost, join_lost, join_lastGood, hnow]
      exact fun hlost hlate => h ⟨hlost, hlimit, hlate⟩

theorem adds_switchSettings (s : State) (p : PendingSettings) : Adds (s.switchedSet p) (s.switchSettings p) := by
  rw [switchSettings_eq]
  split
  case isTrue => exact Adds.refl _
  case isFalse => exact adds_newLimit _ _

theorem switched_switchSettings (s : State) (p : PendingSettings) : Switched s (s.switchSettings p) p := by
  refine ⟨switchSettings_notice s p, fun haction => ?told, fun hintime => ?intime, fun hlate => ?late⟩
  case told =>
    refine (adds_switchSettings s p).mem ?_
    rw [switchedSet_inFlight, if_neg haction]
    exact List.mem_append_right _ (List.mem_singleton.mpr rfl)
  case intime =>
    have hhost := switchedSet_host s p
    rw [switchSettings_of_intime hintime]
    refine ⟨?_, switchedSet_only s p .card (by decide), switchedSet_only s p .dock (by decide), ?_⟩
    · simp [State.onHost, hhost]
    · simp [State.onHost, hhost]
  case late =>
    obtain ⟨hlost, hdeadline, hqueries, hlast⟩ := loseLink_facts (s.switchedSet p)
    rw [switchSettings_of_overdue hlate]
    exact ⟨hlost, hdeadline, hqueries, List.mem_of_getLast? hlast⟩

theorem switched_reply {s t : State} {p : PendingSettings} {k : Nat} {tag : Byte} {code : ReplyCode} {x : Payload}
    (h : Switched s t p) : Switched s (t.reply k tag code x) p := h

theorem switched_sending {s t : State} {p : PendingSettings} (h : Switched s t p) :
    Switched s (t.onHost HostLink.beginSending) p := by
  simpa only [Switched, State.onHost, beginSending_noticeSet, beginSending_lost, beginSending_deadline] using h

theorem switchDue_of_none {s : State} (h : s.store.pendingSet = none) : s.switchDue = false := by
  simp only [State.switchDue, h]

theorem switchDue_of_not_due {s : State} (h : ∀ p ∈ s.store.pendingSet, ¬ dueAt s p) : s.switchDue = false := by
  cases hp : s.store.pendingSet with
  | none => exact switchDue_of_none hp
  | some p => exact Bool.eq_false_iff.mpr (mt (switchDue_iff s p hp).mp (h p (Option.mem_def.mpr hp)))

theorem switchIfDue_of_due {s : State} {p : PendingSettings} (hp : s.store.pendingSet = some p) (h : dueAt s p) :
    s.switchIfDue = s.switchSettings p := switchIfDue_some hp ((switchDue_iff s p hp).mpr h)

/-! ### The clock (R189) -/

theorem operands_timeSet (w : ClockTime) : Operands.timeSet (bytesWord w) = .ok w := by
  simp only [Operands.timeSet, Operands.fixed, bytesWord_length, if_true, wordAt_bytesWord']

/-- The part with its clock set. -/
def State.clockSet (s : State) (w : ClockTime) : State := s.onStore fun st => { st with clock := w, clockUnset := false }

theorem exec_timeSet {s : State} {tag : Byte} {w : ClockTime} (h : s.phase = .running) :
    exec (.timeSet tag (bytesWord w)) s = .next
      (((((s.taking (.timeSet tag (bytesWord w))).clockSet w).switchIfDue).reply 0x03 tag .ok).onHost HostLink.beginSending) := by
  simp only [exec, execTimeSet]
  exact request_ok h (operands_timeSet w)

/-- Settles O11: a pending set that is due is switched in the act of the request or in its own, and only the clock it is compared
with differs. -/
theorem clockIsSetAndSettingsSwitch : Obligations.ClockIsSetAndSettingsSwitch := by
  refine ⟨fun s tag w hready => ⟨fun hearly => ?unswitched, fun p hp hdue => ?switched⟩, fun s p hrun hp hdue => ?own⟩
  case unswitched =>
    have hnot : ∀ p ∈ ((s.taking (.timeSet tag (bytesWord w))).clockSet w).store.pendingSet,
        ¬ dueAt ((s.taking (.timeSet tag (bytesWord w))).clockSet w) p := by
      intro p hp hdue
      obtain ⟨x, hx, hlt⟩ := hearly p hp
      rcases hdue with hnone | ⟨y, hy, -, hle⟩
      · exact absurd (hx.symm.trans hnone) (by simp)
      · obtain rfl := Option.some.inj (hx.symm.trans hy)
        exact absurd hle (BitVec.not_le.mpr hlt)
    rw [exec_timeSet hready.1, switchIfDue_none (switchDue_of_not_due hnot), reply_begun]
    · rfl
    · exact hready.2
  case switched =>
    have hdue' : dueAt ((s.taking (.timeSet tag (bytesWord w))).clockSet w) p := by
      cases hx : p.switchTime with
      | none => exact Or.inl hx
      | some x => exact Or.inr ⟨x, hx, rfl, hdue x hx⟩
    have hexec := exec_timeSet (tag := tag) (w := w) hready.1
    rw [switchIfDue_of_due (by exact hp) hdue'] at hexec
    refine ⟨_, hexec, switchSettings_store _ p, ?_, reply_answered _ _ _ _ _, exec_only _ _ _ hexec⟩
    exact switched_sending (switched_reply (switched_switchSettings _ p))
  case own =>
    have hexec : exec .settingsSwitch s = .next (((s.taking .settingsSwitch).switchSettings p).onHost HostLink.beginSending) := by
      simp only [exec, execSettingsSwitch]
      rw [act_running hrun, switchIfDue_of_due (by exact hp) (by exact hdue)]
    refine ⟨_, hexec, switchSettings_store _ p, switched_sending (switched_switchSettings _ p), fun hintime => ?_,
      exec_only _ _ _ hexec⟩
    have hwork : ((s.taking .settingsSwitch).switchSettings p).inFlight = ((s.taking .settingsSwitch).switchedSet p).inFlight := by
      rw [switchSettings_of_intime (by exact hintime)]
      rfl
    exact hwork.trans (switchedSet_inFlight _ p)

/-! ### Bodies with a presence byte (R192) -/

theorem optional_unfit {α : Type} {body : List Byte} {offset without extra : Nat} {f : Bool → List Byte → Except ReplyCode α}
    (h : lengthUnfit body offset without extra) : Operands.optional offset without extra body f = .error .badLength := by
  unfold Operands.optional
  rcases h with hshort | ⟨habsent, hlen⟩ | ⟨hpresent, hlen⟩
  · rw [if_pos hshort]
  · simp only [habsent, if_neg hlen, ite_self]
  · simp only [hpresent, if_neg hlen, ite_self]

theorem optional_absent {α : Type} {body : List Byte} {offset without extra : Nat} {f : Bool → List Byte → Except ReplyCode α}
    (hlen : body.length = without) (hoffset : offset < without) (h : fieldAt body offset 1 = 0) :
    Operands.optional offset without extra body f = f false body := by
  simp only [Operands.optional, h, if_neg (show ¬ body.length ≤ offset by omega), if_pos hlen]

theorem optional_present {α : Type} {body : List Byte} {offset without extra : Nat} {f : Bool → List Byte → Except ReplyCode α}
    (hlen : body.length = without + extra) (hoffset : offset < without) (h : fieldAt body offset 1 = 1) :
    Operands.optional offset without extra body f = f true body := by
  simp only [Operands.optional, h, if_neg (show ¬ body.length ≤ offset by omega), if_pos hlen]

theorem optional_other {α : Type} {body : List Byte} {offset without extra : Nat} {f : Bool → List Byte → Except ReplyCode α}
    (hlen : offset < body.length) (h : 2 ≤ fieldAt body offset 1) :
    Operands.optional offset without extra body f = .error .badField := by
  unfold Operands.optional
  rw [if_neg (by omega)]
  split
  case h_1 h0 => omega
  case h_2 h1 => omega
  case h_3 => rfl

/-! ### Fields that are refused (R192) -/

/-- Whatever refuses the fields refuses them BAD_FIELD. -/
def FieldsOnly {α : Type} (x : Except ReplyCode α) : Prop := ∀ code, x = .error code → code = .badField

theorem fieldsOnly_ok {α : Type} (a : α) : FieldsOnly (.ok a : Except ReplyCode α) := by
  intro code h
  cases h

theorem fieldsOnly_badField {α : Type} : FieldsOnly (.error .badField : Except ReplyCode α) := by
  intro code h
  cases h
  rfl

theorem fieldsOnly_demand (b : Bool) : FieldsOnly (Operands.demand b) := by
  unfold Operands.demand
  split
  case isTrue => exact fieldsOnly_ok _
  case isFalse => exact fieldsOnly_badField

theorem fieldsOnly_coded {α : Type} (v : Option α) : FieldsOnly (Operands.coded v) := by
  cases v with
  | none => exact fieldsOnly_badField
  | some a => exact fieldsOnly_ok a

theorem fieldsOnly_bind {α β : Type} {x : Except ReplyCode α} {f : α → Except ReplyCode β} (hx : FieldsOnly x)
    (hf : ∀ a, FieldsOnly (f a)) : FieldsOnly (x >>= f) := by
  cases x with
  | error code =>
    intro c h
    cases h
    exact hx code rfl
  | ok a => exact hf a

/-- Fields that cannot be accepted are refused BAD_FIELD. -/
theorem refused_of_fieldsOnly {α : Type} {x : Except ReplyCode α} (hx : FieldsOnly x) (h : ∀ a, x ≠ .ok a) :
    x = .error .badField := by
  cases x with
  | error code => rw [hx code rfl]
  | ok a => exact absurd rfl (h a)

theorem coded_ok {α : Type} {v : Option α} {a : α} (h : Operands.coded v = .ok a) : v = some a := by
  cases v with
  | none => cases h
  | some b => cases h; rfl

/-! ### Staging a set (R185, R186) -/

theorem silenceAction_le {n : Nat} {a : SilenceAction} (h : Code.silenceAction? n = some a) : n ≤ 1 := by
  unfold Code.silenceAction? at h
  split at h
  · decide
  · decide
  · cases h

theorem unknownCardRule_le {n : Nat} {a : UnknownCardRule} (h : Code.unknownCardRule? n = some a) : n ≤ 1 := by
  unfold Code.unknownCardRule? at h
  split at h
  · decide
  · decide
  · cases h

theorem settingsAt_fieldsOnly (b : List Byte) (o : Nat) : FieldsOnly (Operands.settingsAt b o) :=
  fieldsOnly_bind (fieldsOnly_coded _) fun _ => fieldsOnly_bind (fieldsOnly_coded _) fun _ =>
    fieldsOnly_bind (fieldsOnly_demand _) fun _ => fieldsOnly_ok _

theorem settingsAt_ranges {b : List Byte} {o : Nat} {x : Settings} (h : Operands.settingsAt b o = .ok x) :
    ∀ f ∈ settingRanges, f.2.2.1 ≤ fieldAt b (o + f.1) f.2.1 ∧ fieldAt b (o + f.1) f.2.1 ≤ f.2.2.2 := by
  have hvalid := settingsAt_valid h
  obtain ⟨action, haction, h⟩ := bind_ok h
  obtain ⟨rule, hrule, h⟩ := bind_ok h
  obtain ⟨_, _, h⟩ := bind_ok h
  have hactionRange := silenceAction_le (coded_ok haction)
  have hruleRange := unknownCardRule_le (coded_ok hrule)
  cases h
  simp only [Settings.valid, Bool.and_eq_true, decide_eq_true_eq] at hvalid
  simp only [settingRanges, List.forall_mem_cons, List.not_mem_nil, false_implies, implies_true, and_true, Nat.add_zero]
  omega

theorem settingsAt_refused {b : List Byte} {o : Nat}
    (h : ∃ f ∈ settingRanges, fieldAt b (o + f.1) f.2.1 < f.2.2.1 ∨ f.2.2.2 < fieldAt b (o + f.1) f.2.1) :
    Operands.settingsAt b o = .error .badField := by
  obtain ⟨f, hf, hout⟩ := h
  refine refused_of_fieldsOnly (settingsAt_fieldsOnly b o) fun x hx => ?_
  obtain ⟨hlow, hhigh⟩ := settingsAt_ranges hx f hf
  omega

theorem settingsStage_refused {body : List Byte} {o : Nat}
    (ho : (o = 1 ∧ fieldAt body 0 1 = 0 ∧ body.length = 27) ∨ (o = 5 ∧ fieldAt body 0 1 = 1 ∧ body.length = 31))
    (h : Operands.settingsAt body o = .error .badField) : Operands.settingsStage body = .error .badField := by
  unfold Operands.settingsStage
  rcases ho with ⟨rfl, habsent, hlen⟩ | ⟨rfl, hpresent, hlen⟩
  · rw [optional_absent hlen (by decide) habsent, if_neg (by decide), h]
    rfl
  · rw [optional_present hlen (by decide) hpresent, if_pos rfl, h]
    rfl

/-- The part with a set staged. -/
def State.staged (s : State) (p : PendingSettings) : State := s.onStore fun st => { st with pendingSet := some p }

/-- The part with no set staged. -/
def State.unstaged (s : State) : State := s.onStore fun st => { st with pendingSet := none }

theorem unstaged_of_none {s : State} (h : s.store.pendingSet = none) : s.unstaged = s := by
  unfold State.unstaged State.onStore
  rw [← h]

theorem exec_settingsStage {s : State} {tag : Byte} {body : List Byte} {p : PendingSettings} (h : s.phase = .running)
    (hbody : Operands.settingsStage body = .ok p) :
    exec (.settingsStage tag body) s = .next
      (((((s.taking (.settingsStage tag body)).staged p).switchIfDue).reply 0x0A tag
        (if s.store.pendingSet.isSome then .replaced else .ok)).onHost HostLink.beginSending) := by
  simp only [exec, execSettingsStage]
  exact request_ok h hbody

theorem exec_settingsStage_refused {s : State} {tag : Byte} {body : List Byte} {code : ReplyCode} (h : s.ready)
    (hbody : Operands.settingsStage body = .error code) :
    exec (.settingsStage tag body) s = .next ((s.taking (.settingsStage tag body)).reply 0x0A tag code) := by
  simp only [exec, execSettingsStage]
  exact request_error h hbody

/-- Settles O12: the staged set is the pending one, which decides about the switch; every other clause is about the body. -/
theorem settingsAreStagedAndDropped : Obligations.SettingsAreStagedAndDropped := by
  intro s tag hready
  refine ⟨fun body p hbody hnot => ?staged, fun body p hbody hdue => ?switched, fun body code hcase => ?refused, ?dropped⟩
  case staged =>
    have hstays : ∀ q ∈ ((s.taking (.settingsStage tag body)).staged p).store.pendingSet,
        ¬ dueAt ((s.taking (.settingsStage tag body)).staged p) q := by
      intro q hq
      cases hq
      exact hnot
    rw [exec_settingsStage hready.1 hbody, switchIfDue_none (switchDue_of_not_due hstays), reply_begun]
    · rfl
    · exact hready.2
  case switched =>
    have hexec := exec_settingsStage (tag := tag) hready.1 hbody
    rw [switchIfDue_of_due (s := (s.taking _).staged p) rfl hdue] at hexec
    refine ⟨_, hexec, switchSettings_store _ p, ?_, reply_answered _ _ _ _ _, exec_only _ _ _ hexec⟩
    exact switched_sending (switched_reply (switched_switchSettings _ p))
  case refused =>
    have hrefused : Operands.settingsStage body = .error code := by
      rcases hcase with h | ⟨rfl, rfl⟩ | ⟨hbyte, hne, rfl⟩ | ⟨hbyte, hne, hlen, rfl⟩ | ⟨hbyte, hlen, rfl⟩ | ⟨o, ho, hout, rfl⟩
      · exact h
      · rfl
      · exact optional_other (List.length_pos_iff.mpr hne) hbyte
      · exact optional_unfit (Or.inr (Or.inl ⟨hbyte, hlen⟩))
      · exact optional_unfit (Or.inr (Or.inr ⟨hbyte, hlen⟩))
      · exact settingsStage_refused ho (settingsAt_refused hout)
    rw [exec_settingsStage_refused hready hrefused]
    rfl
  case dropped =>
    simp only [exec, execSettingsDrop]
    by_cases hp : s.store.pendingSet.isSome = true
    case pos =>
      rw [if_pos hp]
      refine request_replies (s.taking _).unstaged _ _ hready empty_nil ?_ hready.2 rfl
      exact if_pos hp
    case neg =>
      have hnone : s.store.pendingSet = none := Option.not_isSome_iff_eq_none.mp hp
      rw [if_neg hp]
      refine request_replies (s.taking _).unstaged _ _ hready empty_nil ?_ hready.2 rfl
      rw [unstaged_of_none (by exact hnone)]
      exact if_neg hp

end Sys2Proof.Machine
end


section
/-! Proofs. The layout and the stops (R173 to R178, R184), and the form of every request (R192). -/

namespace Sys2Proof.Machine

/-! ### Layout (R184) -/

theorem dropQueries_only (s : State) : Only [.dock, .inFlight, .card] s s.dropQueries := by simp

/-- R121, R184: an empty journal of a new layout has its whole partition free. -/
theorem rebuilt_slack (s : State) (l : Layout) : (s.rebuilt l).slack = (l.faultBase - l.journalBase : Nat) := by
  have hreserve : (({ account := List.replicate l.dockCount {} } : Journal).reserve) = 0 := by
    simp [Journal.reserve, DockAccount.reserve, DockAccount.own]
  have hbooked : (({ account := List.replicate l.dockCount {} } : Journal).bookedEntries) = 0 := by
    simp [Journal.bookedEntries]
  show ((l.faultBase - l.journalBase : Nat) : Int) - (0 : Nat)
    - (({ account := List.replicate l.dockCount {} } : Journal).bookedEntries : Nat)
    - (({ account := List.replicate l.dockCount {} } : Journal).reserve : Nat) = _
  rw [hreserve, hbooked]
  simp

/-- Settles O15: the queries are emptied first, which leaves the other blocks as they are, and the blocks are then put in place. -/
theorem layoutSetRebuilds : Obligations.LayoutSetRebuilds := by
  intro s tag body l hready hbody
  refine ⟨fun hst hempty => ?rebuilt, fun hst => ?serving, fun hst hheld => ?held⟩
  case rebuilt =>
    have hserving : ¬ s.store.station = .serving := fun h => absurd (hst.symm.trans h) (by decide)
    have hexec : exec (.layoutSet tag body) s = .next
        ((((s.taking (.layoutSet tag body)).dropQueries.rebuilt l).reply 0x06 tag .ok).onHost HostLink.beginSending) := by
      simp only [exec, execLayoutSet]
      rw [request_ok hready.1 hbody]
      simp [State.taking, hst, hempty]
    have hsame := dropQueries_only (s.taking (.layoutSet tag body))
    have hcard := dropQueries_card (s.taking (.layoutSet tag body))
    refine ⟨_, hexec, ?store, rfl, ?insertions, rfl, ?installs, ?queries, ?next, rfl, rfl, rfl, rfl, ?lost, rfl, rfl,
      rebuilt_slack _ l, reply_answered _ _ _ _ _, exec_only _ _ _ hexec⟩
    case store => exact congrArg (fun st : Store => { st with layout := l }) (hsame .store (by decide))
    case insertions => exact dropQueries_counter _
    case installs =>
      have hinstalls := congrArg CardUnit.installCounter hcard
      exact hinstalls
    case queries => exact congrArg CardUnit.queries hcard
    case next => exact congrArg CardUnit.nextTag hcard
    case lost =>
      have hlost := congrArg FaultUnit.lost (hsame .fault (by decide))
      exact hlost
  case serving =>
    simp only [exec, execLayoutSet]
    refine request_replies (s.taking _) _ _ hready hbody ?_ hready.2 rfl
    exact if_pos hst
  case held =>
    have hserving : ¬ s.store.station = .serving := fun h => absurd (hst.symm.trans h) (by decide)
    simp only [exec, execLayoutSet]
    refine request_replies (s.taking _) _ _ hready hbody ?_ hready.2 rfl
    exact (if_neg hserving).trans (if_pos hheld)

/-! ### Stops (R173, R174, R176 to R178) -/

theorem exec_reset {s : State} {tag : Byte} (h : s.ready) :
    exec (.reset tag []) s = .next (((s.taking (.reset tag [])).reply 0x04 tag .ok).stopped .resetAsked) := by
  simp only [exec, execReset]
  rw [request_ok h.1 empty_nil, onHost_beginSending]
  exact begun_send_reply h.2 (by simp)

/-- Settles O16: each of these commands puts the part into one phase, by the phase it is in. -/
theorem partIsStopped : Obligations.PartIsStopped := by
  refine ⟨fun s tag => ⟨fun hready => ?reset, fun hphase => ?low, fun hphase => ?keptLow, fun hphase => ?release⟩,
    fun s => ⟨fun hphase hout => ?entry, fun midAct hphase => ?fall, fun midAct hphase => ?fallen, fun hphase => ?cell,
      fun hphase => ?cellKept⟩⟩
  case reset =>
    rw [exec_reset hready]
    rfl
  case low =>
    simp only [List.mem_cons, List.not_mem_nil, or_false] at hphase
    simp only [exec, execResetLineLow]
    rcases hphase with h | h | h <;> (rw [h]; rfl)
  case keptLow =>
    simp only [List.mem_cons, List.not_mem_nil, or_false] at hphase
    simp only [exec, execResetLineLow]
    rcases hphase with h | h | h <;> rw [h]
  case release =>
    simp only [exec, execResetLineRelease]
    rw [if_neg hphase]
  case entry =>
    have hexec : exec .supplyResetEntry s = .next ((s.darkened .supplyReset).onSupply fun m => { m with run := none }) := by
      simp only [exec, execSupplyResetEntry]
      rw [if_pos ⟨hphase, hout⟩]
    exact ⟨_, hexec, rfl, rfl, rfl, rfl, rfl, rfl, rfl, rfl, (exec_only _ _ _ hexec).mono (by decide)⟩
  case fall =>
    have hexec : exec (.supplyPinsFall midAct) s = .next ((s.darkened .pinsDown).onStore fun st =>
        { st with checkAgrees := st.checkAgrees && !midAct }) := by
      simp only [exec, execSupplyPinsFall]
      rw [if_neg hphase]
    exact ⟨_, hexec, rfl, rfl, rfl, rfl, (exec_only _ _ _ hexec).mono (by simp [parts])⟩
  case fallen =>
    simp only [exec, execSupplyPinsFall]
    rw [if_pos hphase]
    rfl
  case cell =>
    simp only [List.mem_cons, List.not_mem_nil, or_false] at hphase
    simp only [exec, execBackupCellFailure]
    rw [if_pos hphase]
    rfl
  case cellKept =>
    simp only [List.mem_cons, List.not_mem_nil, or_false] at hphase
    simp only [exec, execBackupCellFailure]
    rw [if_neg hphase]

end Sys2Proof.Machine
end


section
/-! Proofs. The form of a request is examined first (R192): lengths, presence bytes, coded fields and their ranges. -/

namespace Sys2Proof.Machine

/-! ### Refusals -/

/-- A request whose body is refused is only answered. -/
theorem request_refused {α : Type} {i : Instr} {k : Nat} {tag : Byte} {s : State} {x : Except ReplyCode α} {code : ReplyCode}
    {f : α → State → State} (h : s.ready) (hx : x = .error code) :
    request i k tag s x f = .next
      { s with
        host := { s.host with outgoing := s.host.outgoing ++ [.reply (byteOf (k + 0x80)) tag code .nothing] }
        inFlight := s.inFlight.erase i } := request_error h hx

/-- A request whose fields its owning rule refuses is only answered. -/
theorem request_declined {α : Type} {i : Instr} {k : Nat} {tag : Byte} {s : State} {x : Except ReplyCode α} {a : α}
    {code : ReplyCode} {f : α → State → State} (h : s.ready) (hx : x = .ok a)
    (hf : f a (s.taking i) = (s.taking i).reply k tag code) :
    request i k tag s x f = .next
      { s with
        host := { s.host with outgoing := s.host.outgoing ++ [.reply (byteOf (k + 0x80)) tag code .nothing] }
        inFlight := s.inFlight.erase i } := request_answered h hx hf h.2

theorem fixed_unfit {α : Type} {n : Nat} {body : List Byte} {f : List Byte → Except ReplyCode α} (h : body.length ≠ n) :
    Operands.fixed n body f = .error .badLength := if_neg h

theorem fixed_fit {α : Type} {n : Nat} {body : List Byte} {f : List Byte → Except ReplyCode α} (h : body.length = n) :
    Operands.fixed n body f = f body := if_pos h

theorem empty_unfit {body : List Byte} (h : body ≠ []) : Operands.empty body = .error .badLength :=
  fixed_unfit (mt List.length_eq_zero_iff.mp h)

theorem demand_false {b : Bool} (h : b = false) : Operands.demand b = .error .badField := by
  subst h
  rfl

/-! ### Fields as numbers -/

theorem natOfBytes_append (a b : List Byte) : natOfBytes (a ++ b) = natOfBytes a * 256 ^ b.length + natOfBytes b := by
  induction b using List.reverseRecOn with
  | nil => simp [natOfBytes]
  | append_singleton b x ih =>
    have hsnoc : ∀ l : List Byte, natOfBytes (l ++ [x]) = natOfBytes l * 256 + x.toNat := fun l => by simp [natOfBytes]
    rw [← List.append_assoc, hsnoc, hsnoc, ih, List.length_append, List.length_singleton, pow_succ]
    ring

theorem natOfBytes_lt (b : List Byte) : natOfBytes b < 256 ^ b.length := by
  induction b using List.reverseRecOn with
  | nil => simp [natOfBytes]
  | append_singleton b x ih =>
    have hx := x.isLt
    have hsnoc : natOfBytes (b ++ [x]) = natOfBytes b * 256 + x.toNat := by simp [natOfBytes]
    rw [hsnoc, List.length_append, List.length_singleton, pow_succ]
    omega

theorem fieldAt_lt (b : List Byte) (o n : Nat) : fieldAt b o n < 256 ^ n :=
  lt_of_lt_of_le (natOfBytes_lt _) (Nat.pow_le_pow_right (by decide) (by simp))

theorem wordAt_toNat (b : List Byte) (o : Nat) : (wordAt b o).toNat = fieldAt b o 4 := by
  rw [wordAt, BitVec.toNat_ofNat]
  exact Nat.mod_eq_of_lt (fieldAt_lt b o 4)

theorem halfAt_toNat (b : List Byte) (o : Nat) : (halfAt b o).toNat = fieldAt b o 2 := by
  rw [halfAt, BitVec.toNat_ofNat]
  exact Nat.mod_eq_of_lt (fieldAt_lt b o 2)

theorem wordAt_ne_zero {b : List Byte} {o : Nat} (h : (wordAt b o != 0) = true) : fieldAt b o 4 ≠ 0 := by
  rw [← wordAt_toNat]
  exact fun hz => (bne_iff_ne.mp h) (BitVec.eq_of_toNat_eq hz)

theorem halfAt_ne_zero {b : List Byte} {o : Nat} (h : (halfAt b o != 0) = true) : fieldAt b o 2 ≠ 0 := by
  rw [← halfAt_toNat]
  exact fun hz => (bne_iff_ne.mp h) (BitVec.eq_of_toNat_eq hz)

theorem wordAt_msb (b : List Byte) (o : Nat) : (wordAt b o).msb = decide (0x80000000 ≤ fieldAt b o 4) := by
  rw [BitVec.msb_eq_decide, wordAt_toNat]

/-! ### Coded fields -/

theorem role_of_code {n : Nat} {r : Role} (h : Code.role? n = some r) : n = Code.role r := by
  unfold Code.role? at h
  split at h <;> cases h <;> rfl

theorem standing_of_code {n : Nat} {x : Standing} (h : Code.standing? n = some x) : n = Code.standing x := by
  unfold Code.standing? at h
  split at h <;> cases h <;> rfl

theorem rights_of_code {n : Nat} {x : Rights} (h : Code.rights? n = some x) : n = Code.rights x := by
  unfold Code.rights? at h
  split at h <;> cases h <;> rfl

theorem level_of_code {n : Nat} {x : Level} (h : Code.level? n = some x) : n = Code.level x := by
  unfold Code.level? at h
  split at h <;> cases h <;> rfl

theorem terminal_of_code {n : Nat} {x : TerminalId} (h : Code.terminal? n = some x) : n = Code.terminal x := by
  unfold Code.terminal? at h
  split at h <;> cases h <;> rfl

theorem orderKind_of_code {n : Nat} {x : OrderKind} (h : Code.orderKind? n = some x) : n = Code.orderKind x := by
  unfold Code.orderKind? at h
  split at h <;> cases h <;> rfl

theorem orderClass_of_code {n : Nat} {x : OrderClass} (h : Code.orderClass? n = some x) : n = Code.orderClass x := by
  unfold Code.orderClass? at h
  split at h <;> cases h <;> rfl

theorem faultKind_of_code {n : Nat} {x : FaultKind} (h : Code.faultKind? n = some x) : n = Code.faultKind x := by
  unfold Code.faultKind? at h
  split at h <;> cases h <;> rfl

/-! ### The ranges of each request's fields -/

theorem layoutSet_refused {body : List Byte} (hlen : body.length = 5)
    (h : fieldAt body 0 1 = 0 ∨ 64 < fieldAt body 0 1 ∨ fieldAt body 1 2 % 16 ≠ 0 ∨ fieldAt body 3 2 % 16 ≠ 0
      ∨ fieldAt body 1 2 < 64 ∨ fieldAt body 3 2 < fieldAt body 1 2 + (fieldAt body 0 1 + 16) ∨ 4080 < fieldAt body 3 2) :
    Operands.layoutSet body = .error .badField := by
  have hinvalid : Layout.valid ⟨fieldAt body 0 1, fieldAt body 1 2, fieldAt body 3 2⟩ = false := by
    rw [Bool.eq_false_iff]
    intro hvalid
    simp only [Layout.valid, Bool.and_eq_true, decide_eq_true_eq, beq_iff_eq] at hvalid
    simp only [Config.storeSlots] at hvalid
    omega
  simp only [Operands.layoutSet, fixed_fit hlen, hinvalid]
  rfl

theorem cardAt_fieldsOnly (b : List Byte) (o : Nat) (present : Bool) : FieldsOnly (Operands.cardAt b o present) :=
  fieldsOnly_bind (fieldsOnly_coded _) fun _ => fieldsOnly_bind (fieldsOnly_coded _) fun _ =>
    fieldsOnly_bind (fieldsOnly_coded _) fun _ => fieldsOnly_bind (fieldsOnly_demand _) fun _ =>
    fieldsOnly_bind (fieldsOnly_demand _) fun _ => fieldsOnly_bind (fieldsOnly_demand _) fun _ =>
    fieldsOnly_bind (fieldsOnly_demand _) fun _ => fieldsOnly_bind (fieldsOnly_demand _) fun _ => fieldsOnly_ok _

theorem cardAt_ranges {b : List Byte} {o : Nat} {present : Bool} {r : CardRecord} (h : Operands.cardAt b o present = .ok r) :
    fieldAt b o 4 ≠ 0 ∧ fieldAt b (o + 4) 1 ≤ 3 ∧ fieldAt b (o + 5) 1 ≤ 1 ∧ fieldAt b (o + 6) 1 ≤ 1
      ∧ fieldAt b (o + 7) 1 ≤ 15 ∧ fieldAt b (o + 8) 1 ≤ fieldAt b (o + 7) 1
      ∧ (fieldAt b (o + 4) 1 = 3 → present = true ∧ 0x80000000 ≤ fieldAt b o 4)
      ∧ (fieldAt b (o + 4) 1 ≠ 3 → fieldAt b o 4 < 0x80000000) := by
  obtain ⟨role, hrole, h⟩ := bind_ok h
  obtain ⟨standing, hstanding, h⟩ := bind_ok h
  obtain ⟨rights, hrights, h⟩ := bind_ok h
  obtain ⟨_, hcard, h⟩ := bind_ok h
  obtain ⟨_, hpass, h⟩ := bind_ok h
  obtain ⟨_, hexpiry, h⟩ := bind_ok h
  obtain ⟨_, hused, h⟩ := bind_ok h
  obtain ⟨_, hcredit, h⟩ := bind_ok h
  clear h
  have hcard := wordAt_ne_zero (demand_ok hcard)
  have hpass := demand_ok hpass
  have hexpiry := demand_ok hexpiry
  have hused := of_decide_eq_true (demand_ok hused)
  have hcredit := of_decide_eq_true (demand_ok hcredit)
  rw [role_of_code (coded_ok hrole), standing_of_code (coded_ok hstanding), rights_of_code (coded_ok hrights)]
  have hpassId : 0x80000000 ≤ fieldAt b o 4 ↔ role = .pass := by
    rw [wordAt_msb] at hpass
    rw [← decide_eq_true_iff (p := 0x80000000 ≤ fieldAt b o 4), beq_iff_eq.mp hpass, beq_iff_eq]
  refine ⟨hcard, ?_, ?_, ?_, hcredit, hused, ?_, ?_⟩
  · cases role <;> decide
  · cases standing <;> decide
  · cases rights <;> decide
  · intro hcode
    have hrolePass : role = .pass := by
      cases role <;> first | rfl | exact absurd hcode (by decide)
    subst hrolePass
    refine ⟨?_, hpassId.mpr rfl⟩
    cases present with
    | true => rfl
    | false => exact absurd hexpiry (by simp)
  · intro hcode
    exact Nat.not_le.mp fun hle => hcode (by rw [hpassId.mp hle]; rfl)

/-- A body whose presence byte and length agree, or whose presence byte is neither 0 nor 1. -/
theorem fit_cases {body : List Byte} {offset without extra : Nat} (h : ¬ lengthUnfit body offset without extra) :
    offset < body.length ∧ (2 ≤ fieldAt body offset 1 ∨ (fieldAt body offset 1 = 0 ∧ body.length = without)
      ∨ (fieldAt body offset 1 = 1 ∧ body.length = without + extra)) := by
  simp only [lengthUnfit] at h
  omega

theorem cardPut_refused {body : List Byte} (hfit : ¬ lengthUnfit body 10 11 4)
    (h : 1 < fieldAt body 10 1 ∨ fieldAt body 0 4 = 0 ∨ 3 < fieldAt body 4 1 ∨ 1 < fieldAt body 5 1 ∨ 1 < fieldAt body 6 1
      ∨ 15 < fieldAt body 7 1 ∨ fieldAt body 7 1 < fieldAt body 8 1
      ∨ (fieldAt body 4 1 = 3 ∧ (fieldAt body 10 1 = 0 ∨ fieldAt body 0 4 < 0x80000000))
      ∨ (fieldAt body 4 1 ≠ 3 ∧ 0x80000000 ≤ fieldAt body 0 4)) :
    Operands.cardPut body = .error .badField := by
  obtain ⟨hlen, hother | ⟨habsent, hshort⟩ | ⟨hpresent, hlong⟩⟩ := fit_cases hfit
  · exact optional_other hlen hother
  · rw [Operands.cardPut, optional_absent hshort (by decide) habsent]
    refine refused_of_fieldsOnly (cardAt_fieldsOnly _ _ _) fun r hr => ?_
    obtain ⟨hcard, hrole, hstanding, hrights, hcredit, hused, hpass, hother⟩ := cardAt_ranges hr
    simp only [Nat.zero_add, Bool.false_eq_true, false_and, imp_false] at *
    omega
  · rw [Operands.cardPut, optional_present hlong (by decide) hpresent]
    refine refused_of_fieldsOnly (cardAt_fieldsOnly _ _ _) fun r hr => ?_
    obtain ⟨hcard, hrole, hstanding, hrights, hcredit, hused, hpass, hother⟩ := cardAt_ranges hr
    simp only [Nat.zero_add, true_and] at *
    omega

/-- The fields of an order of a body that holds them (R133). -/
theorem orderAdd_refused {body : List Byte} (hfit : ¬ lengthUnfit body 5 6 4)
    (h : 1 < fieldAt body 5 1 ∨ fieldAt body 0 2 = 0 ∨ 1 < fieldAt body 2 1 ∨ 3 < fieldAt body 3 1 ∨ fieldAt body 4 1 = 0
      ∨ 64 < fieldAt body 4 1 ∨ (fieldAt body 2 1 = 1 ∧ fieldAt body 3 1 = 3)) :
    Operands.orderAdd body = .error .badField := by
  obtain ⟨hlen, hother | hpresence⟩ := fit_cases hfit
  · exact optional_other hlen hother
  have hsmall : ¬ 1 < fieldAt body 5 1 := by omega
  suffices hboth : ∀ present : Bool, (do
      let kind ← Operands.coded (Code.orderKind? (fieldAt body 2 1))
      let cls ← Operands.coded (Code.orderClass? (fieldAt body 3 1))
      Operands.demand (halfAt body 0 != 0)
      Operands.demand (1 ≤ fieldAt body 4 1 && fieldAt body 4 1 ≤ 64)
      Operands.demand (!(kind == .deliver && cls == .held))
      return ({ id := halfAt body 0, kind := kind, cls := cls, quantity := fieldAt body 4 1,
                notBefore := if present then some (wordAt body 6) else none, state := .queued, done := 0 } : Order)) =
      (.error .badField : Except ReplyCode Order) by
    rcases hpresence with ⟨habsent, hshort⟩ | ⟨hpresent, hlong⟩
    · exact (optional_absent hshort (by decide) habsent).trans (hboth false)
    · exact (optional_present hlong (by decide) hpresent).trans (hboth true)
  intro present
  refine refused_of_fieldsOnly ?_ fun r hr => ?_
  · exact fieldsOnly_bind (fieldsOnly_coded _) fun _ => fieldsOnly_bind (fieldsOnly_coded _) fun _ =>
      fieldsOnly_bind (fieldsOnly_demand _) fun _ => fieldsOnly_bind (fieldsOnly_demand _) fun _ =>
      fieldsOnly_bind (fieldsOnly_demand _) fun _ => fieldsOnly_ok _
  · obtain ⟨kind, hkind, hr⟩ := bind_ok hr
    obtain ⟨cls, hcls, hr⟩ := bind_ok hr
    obtain ⟨_, hid, hr⟩ := bind_ok hr
    obtain ⟨_, hquantity, hr⟩ := bind_ok hr
    obtain ⟨_, hheld, hr⟩ := bind_ok hr
    have hid := halfAt_ne_zero (demand_ok hid)
    have hquantity := demand_ok hquantity
    have hheld := demand_ok hheld
    simp only [Bool.and_eq_true, decide_eq_true_eq] at hquantity
    rw [orderKind_of_code (coded_ok hkind), orderClass_of_code (coded_ok hcls)] at h
    cases kind <;> cases cls <;> simp only [Code.orderKind, Code.orderClass] at h <;> first | omega | exact absurd hheld (by decide)

theorem faultList_refused {body : List Byte} (hlen : body.length = 4)
    (h : 1 < fieldAt body 0 1 ∨ 4095 < fieldAt body 1 2 ∨ fieldAt body 3 1 = 0 ∨ 16 < fieldAt body 3 1) :
    Operands.faultList body = .error .badField := by
  rw [Operands.faultList, fixed_fit hlen]
  refine refused_of_fieldsOnly ?_ fun r hr => ?_
  · exact fieldsOnly_bind (fieldsOnly_demand _) fun _ => fieldsOnly_bind (fieldsOnly_demand _) fun _ =>
      fieldsOnly_bind (fieldsOnly_demand _) fun _ => fieldsOnly_ok _
  · obtain ⟨_, hselection, hr⟩ := bind_ok hr
    obtain ⟨_, hskip, hr⟩ := bind_ok hr
    obtain ⟨_, hmax, hr⟩ := bind_ok hr
    have hselection := of_decide_eq_true (demand_ok hselection)
    have hskip := of_decide_eq_true (demand_ok hskip)
    have hmax := demand_ok hmax
    simp only [Bool.and_eq_true, decide_eq_true_eq] at hmax
    omega

theorem terminal_refused {body : List Byte} (hlen : body.length = 1) (h : 3 < fieldAt body 0 1) :
    Operands.terminal body = .error .badField := by
  rw [Operands.terminal, fixed_fit hlen]
  refine refused_of_fieldsOnly (fieldsOnly_coded _) fun t ht => ?_
  have hcode := terminal_of_code (coded_ok ht)
  cases t <;> simp only [Code.terminal] at hcode <;> omega

theorem dockSetService_refused {body : List Byte} (hlen : body.length = 2) (h : 2 < fieldAt body 1 1) :
    Operands.dockSetService body = .error .badField := by
  rw [Operands.dockSetService, fixed_fit hlen]
  refine refused_of_fieldsOnly (fieldsOnly_bind (fieldsOnly_coded _) fun _ => fieldsOnly_ok _) fun q hq => ?_
  obtain ⟨level, hlevel, -⟩ := bind_ok hq
  have hcode := level_of_code (coded_ok hlevel)
  cases level <;> simp only [Code.level] at hcode <;> omega

/-- A dock number beyond the layout is declined, with a level or without (R42). -/
theorem dockSetService_ok {body : List Byte} (hlen : body.length = 2) (h : ¬ 2 < fieldAt body 1 1) :
    ∃ l, Operands.dockSetService body = .ok (fieldAt body 0 1, l) := by
  have hlevel : ∃ l, Code.level? (fieldAt body 1 1) = some l := by
    generalize fieldAt body 1 1 = n at h
    obtain rfl | rfl | rfl : n = 0 ∨ n = 1 ∨ n = 2 := by omega
    all_goals exact ⟨_, rfl⟩
  obtain ⟨l, hl⟩ := hlevel
  refine ⟨l, ?_⟩
  simp only [Operands.dockSetService, fixed_fit hlen, hl]
  rfl

/-- The subject that FAULT_ACK and FAULT_CLEAR name (log 15). -/
def subjectAt (s : State) (b : List Byte) : Except ReplyCode FaultSubject :=
  match fieldAt b 0 1 with
  | 0 => if fieldAt b 1 4 < s.dockCount then .ok (.dock (fieldAt b 1 4)) else .error .badField
  | 1 => if wordAt b 1 = 0 then .error .badField else .ok (.bike (wordAt b 1))
  | 2 => (Operands.coded (Code.terminal? (fieldAt b 1 4))).map FaultSubject.terminal
  | _ => .error .badField

theorem faultName_eq (s : State) (body : List Byte) :
    Operands.faultName s body = Operands.fixed 6 body fun b =>
      Operands.coded (Code.faultKind? (fieldAt b 5 1)) >>= fun kind => subjectAt s b >>= fun subject =>
        Operands.demand (subject.fits kind) >>= fun _ => .ok (subject, kind) := by
  unfold Operands.faultName
  congr 1
  funext b
  cases Operands.coded (Code.faultKind? (fieldAt b 5 1)) with
  | error code => rfl
  | ok kind =>
    show _ = subjectAt s b >>= _
    unfold subjectAt
    generalize fieldAt b 0 1 = n
    match n with
    | 0 => by_cases hd : fieldAt b 1 4 < s.dockCount <;> (simp only [hd, if_true, if_false]; rfl)
    | 1 => by_cases hb : wordAt b 1 = 0 <;> (simp only [hb, if_true, if_false]; rfl)
    | 2 => rfl
    | n + 3 => rfl

theorem subjectAt_fieldsOnly (s : State) (b : List Byte) : FieldsOnly (subjectAt s b) := by
  unfold subjectAt
  split
  · split
    · exact fieldsOnly_ok _
    · exact fieldsOnly_badField
  · split
    · exact fieldsOnly_badField
    · exact fieldsOnly_ok _
  · exact fieldsOnly_bind (f := fun t => .ok (FaultSubject.terminal t)) (fieldsOnly_coded _) fun _ => fieldsOnly_ok _
  · exact fieldsOnly_badField

theorem subjectAt_ok {s : State} {b : List Byte} {x : FaultSubject} (h : subjectAt s b = .ok x) :
    (fieldAt b 0 1 = 0 ∧ fieldAt b 1 4 < s.dockCount ∧ ∃ d, x = .dock d)
      ∨ (fieldAt b 0 1 = 1 ∧ fieldAt b 1 4 ≠ 0 ∧ ∃ k, x = .bike k)
      ∨ (fieldAt b 0 1 = 2 ∧ fieldAt b 1 4 ≤ 3 ∧ ∃ t, x = .terminal t) := by
  unfold subjectAt at h
  split at h
  case h_1 h0 =>
    split at h
    case isTrue hlt => exact Or.inl ⟨h0, hlt, _, by cases h; rfl⟩
    case isFalse => cases h
  case h_2 h1 =>
    split at h
    case isTrue => cases h
    case isFalse hword =>
      exact Or.inr (Or.inl ⟨h1, wordAt_ne_zero (bne_iff_ne.mpr hword), _, by cases h; rfl⟩)
  case h_3 h2 =>
    obtain ⟨t, ht, rfl⟩ := map_ok h
    refine Or.inr (Or.inr ⟨h2, ?_, t, rfl⟩)
    rw [terminal_of_code (coded_ok ht)]
    cases t <;> decide
  case h_4 => cases h

theorem fits_dock {d : DockNo} {k : FaultKind} (h : (FaultSubject.dock d).fits k = true) : Code.faultKind k ≤ 6 := by
  simp only [FaultSubject.fits, Bool.or_eq_true, beq_iff_eq] at h
  rcases h with (((((h | h) | h) | h) | h) | h) | h <;> (subst h; decide)

theorem fits_bike {b : BikeId} {k : FaultKind} (h : (FaultSubject.bike b).fits k = true) :
    7 ≤ Code.faultKind k ∧ Code.faultKind k ≤ 8 := by
  simp only [FaultSubject.fits, Bool.or_eq_true, beq_iff_eq] at h
  rcases h with h | h <;> (subst h; decide)

theorem fits_terminal {t : TerminalId} {k : FaultKind} (h : (FaultSubject.terminal t).fits k = true) :
    Code.faultKind k = 9 := by
  simp only [FaultSubject.fits, beq_iff_eq] at h
  subst h
  rfl

theorem faultName_refused {s : State} {body : List Byte} (hlen : body.length = 6)
    (h : 9 < fieldAt body 5 1 ∨ 2 < fieldAt body 0 1
      ∨ (fieldAt body 0 1 = 0 ∧ (s.dockCount ≤ fieldAt body 1 4 ∨ 6 < fieldAt body 5 1))
      ∨ (fieldAt body 0 1 = 1 ∧ (fieldAt body 1 4 = 0 ∨ fieldAt body 5 1 < 7 ∨ 8 < fieldAt body 5 1))
      ∨ (fieldAt body 0 1 = 2 ∧ (3 < fieldAt body 1 4 ∨ fieldAt body 5 1 ≠ 9))) :
    Operands.faultName s body = .error .badField := by
  rw [faultName_eq, fixed_fit hlen]
  refine refused_of_fieldsOnly ?_ fun q hq => ?_
  · exact fieldsOnly_bind (fieldsOnly_coded _) fun kind => fieldsOnly_bind (subjectAt_fieldsOnly s body) fun x =>
      fieldsOnly_bind (fieldsOnly_demand _) fun _ => fieldsOnly_ok _
  · obtain ⟨kind, hkind, hq⟩ := bind_ok hq
    obtain ⟨subject, hsubject, hq⟩ := bind_ok hq
    obtain ⟨_, hfits, -⟩ := bind_ok hq
    have hfits := demand_ok hfits
    have hkind := faultKind_of_code (coded_ok hkind)
    rcases subjectAt_ok hsubject with ⟨h0, hlt, d, rfl⟩ | ⟨h1, hne, k, rfl⟩ | ⟨h2, hle, t, rfl⟩
    · have hcode := fits_dock hfits
      omega
    · have hcode := fits_bike hfits
      omega
    · have hcode := fits_terminal hfits
      omega

/-! ### Every request -/

theorem cardVerdict_unfit {body : List Byte}
    (h : body.length < 6 ∨ ((fieldAt body 5 1 = 1 ∨ fieldAt body 5 1 = 2) ∧ body.length ≠ 6)
      ∨ (fieldAt body 5 1 = 0 ∧ lengthUnfit body 16 17 4)) : Operands.cardVerdict body = .error .badLength := by
  unfold Operands.cardVerdict
  rcases h with hshort | ⟨hone | htwo, hlen⟩ | ⟨hzero, hunfit⟩
  · rw [if_pos hshort]
  · simp only [hone, fixed_unfit hlen, ite_self]
  · simp only [htwo, fixed_unfit hlen, ite_self]
  · simp only [hzero, optional_unfit hunfit, ite_self]

theorem cardVerdict_refused {body : List Byte} (hlen : 6 ≤ body.length)
    (h : 2 < fieldAt body 5 1 ∨ (fieldAt body 5 1 = 0 ∧ 16 < body.length ∧ 1 < fieldAt body 16 1)) :
    Operands.cardVerdict body = .error .badField := by
  unfold Operands.cardVerdict
  rw [if_neg (by omega)]
  rcases h with hother | ⟨hzero, hlong, hpresence⟩
  · split
    case h_1 h0 => omega
    case h_2 h1 => omega
    case h_3 h2 => omega
    case h_4 => rfl
  · simp only [hzero]
    exact optional_other hlong hpresence

theorem exec_unknownKindRequest {s : State} {kind tag : Byte} (h : s.ready) :
    exec (.unknownKindRequest kind tag) s = .next
      ((s.taking (.unknownKindRequest kind tag)).onHost (·.send (.reply (kind ||| 0x80) tag .unknownKind .nothing))) :=
  act_begun (f := fun u => u.onHost (·.send (.reply (kind ||| 0x80) tag .unknownKind .nothing))) h.1
    (begun_send_reply h.2 (by simp))

/-- Settles O7: each ground refuses the body or the fields it gives, and a refusal is a reply alone. -/
theorem formIsExaminedFirst : Obligations.FormIsExaminedFirst := by
  refine ⟨fun s kind tag hready => exec_unknownKindRequest hready, fun s tag body hready hbody => ?empty,
    fun s tag body hready => ?lengths, fun s tag body hready => ⟨fun hunfit => ?cardPut, fun hunfit => ?orderAdd,
      fun hunfit => ?verdictLength, fun hlen hfield => ?verdictField, ?fields⟩⟩
  case empty =>
    have hunfit := empty_unfit hbody
    simp only [List.forall_mem_cons, List.not_mem_nil, false_implies, implies_true, and_true, exec, execStatus, execReset,
      execLayoutGet, execServiceStart, execServiceStop, execSettingsGet, execSettingsDrop, execOrderList]
    refine ⟨?_, ?_, ?_, ?_, ?_, ?_, ?_, ?_⟩
    all_goals exact request_refused hready hunfit
  case lengths =>
    simp only [List.forall_mem_cons, List.not_mem_nil, false_implies, implies_true, and_true, OnlyRefused, exec, execNoticeMask,
      execTimeSet, execLayoutSet, execDockGet, execDockSetService, execCardGet, execCardDrop, execJournalRead,
      execJournalRelease, execOrderCancel, execFaultList, execFaultAck, execFaultClear, execTerminalGet, execTerminalEnable]
    refine ⟨?_, ?_, ?_, ?_, ?_, ?_, ?_, ?_, ?_, ?_, ?_, ?_, ?_, ?_, ?_⟩
    all_goals exact fun hlen => request_refused hready (fixed_unfit hlen)
  case cardPut =>
    simp only [OnlyRefused, exec, execCardPut]
    exact request_refused hready (optional_unfit hunfit)
  case orderAdd =>
    simp only [OnlyRefused, exec, execOrderAdd]
    exact request_refused hready (optional_unfit hunfit)
  case verdictLength =>
    simp only [OnlyRefused, exec, execCardVerdict]
    exact request_refused hready (cardVerdict_unfit hunfit)
  case verdictField =>
    simp only [OnlyRefused, exec, execCardVerdict]
    exact request_refused hready (cardVerdict_refused hlen hfield)
  case fields =>
    simp only [fieldsRefused, List.forall_mem_cons, List.not_mem_nil, false_implies, implies_true, and_true, OnlyRefused, exec,
      execLayoutSet, execDockGet, execDockSetService, execCardPut, execOrderAdd, execFaultList, execFaultAck, execFaultClear,
      execTerminalGet, execTerminalEnable]
    refine ⟨?layoutSet, ?dockGet, ?dockSetService, ?cardPut, ?orderAdd, ?faultList, ?faultAck, ?faultClear, ?terminalGet,
      ?terminalEnable⟩
    case layoutSet => exact fun ⟨hlen, h⟩ => request_refused hready (layoutSet_refused hlen h)
    case dockGet =>
      rintro ⟨hlen, h⟩
      have hnone : (s.taking (.dockGet tag body)).dock? (fieldAt body 0 1) = none := List.getElem?_eq_none h
      refine request_declined hready (fixed_fit hlen) ?_
      rw [hnone]
    case dockSetService =>
      rintro ⟨hlen, h⟩
      by_cases hlevel : 2 < fieldAt body 1 1
      case pos => exact request_refused hready (dockSetService_refused hlen hlevel)
      case neg =>
        obtain ⟨l, hl⟩ := dockSetService_ok hlen hlevel
        have hbeyond : s.dockCount ≤ fieldAt body 0 1 := h.resolve_right hlevel
        exact request_declined hready hl (if_neg (Nat.not_lt.mpr hbeyond))
    case cardPut => exact fun ⟨_, hfit, h⟩ => request_refused hready (cardPut_refused hfit h)
    case orderAdd => exact fun ⟨_, hfit, h⟩ => request_refused hready (orderAdd_refused hfit h)
    case faultList => exact fun ⟨hlen, h⟩ => request_refused hready (faultList_refused hlen h)
    case faultAck => exact fun ⟨hlen, h⟩ => request_refused hready (faultName_refused hlen h)
    case faultClear => exact fun ⟨hlen, h⟩ => request_refused hready (faultName_refused hlen h)
    case terminalGet => exact fun ⟨hlen, h⟩ => request_refused hready (terminal_refused hlen h)
    case terminalEnable => exact fun ⟨hlen, h⟩ => request_refused hready (terminal_refused hlen h)

end Sys2Proof.Machine
end


section
/-! Proofs. Samples of the supply (R168 to R174): a sample changes the power state at most once, and shuts the part down after that
change. -/

namespace Sys2Proof.Machine

/-! ### A change of the power state (R172) -/

theorem changePower_same {s : State} {p : PowerState} (h : p = s.supply.power) : s.changePower p = s := if_pos h

theorem changePower_inFlight (s : State) (p : PowerState) : (s.changePower p).inFlight = s.inFlight ++ powerTold s p := by
  unfold State.changePower powerTold
  by_cases h : p = s.supply.power
  case pos => simp [h]
  case neg =>
    rw [if_neg h, if_neg (Ne.symm h)]
    dsimp only
    by_cases hreserve : s.supply.power = .reserve
    case pos =>
      rw [if_pos hreserve, if_pos hreserve, postPass_eq]
      simp only [State.post, State.join, State.onHost, State.onSupply, List.append_assoc]
      rfl
    case neg =>
      rw [if_neg hreserve, if_neg hreserve]
      simp only [State.post, State.join, State.onHost, State.onSupply, List.append_assoc]
      rfl

theorem changePower_host {s : State} {p : PowerState} (h : p ≠ s.supply.power) :
    (s.changePower p).host = s.host.join .powerChanged := by
  unfold State.changePower
  rw [if_neg h]
  dsimp only
  split
  case isTrue =>
    rw [postPass_eq]
    rfl
  case isFalse => rfl

/-! ### What one sample settles (R169 to R171) -/

/-- The part once the sample has been read, before the power state is looked at. -/
def State.sampled (s : State) (mains : Bool) (level : Byte) : State :=
  (s.tick.onSupply (·.sample mains level)).onSupply fun m => { m with decided := m.decided || m.debounced.isSome }

/-- The power state that the sample leaves, and the shutdown it may begin. -/
def State.settled (s : State) (p : PowerState × Bool) : State :=
  if p.2 = true then (s.changePower p.1).shutDown else s.changePower p.1

theorem changePower_settings (s : State) (p : PowerState) : (s.changePower p).settings = s.settings := by
  obtain ⟨-, -, -, -, hstore⟩ := changePower_keepsSupply s p
  exact congrArg Store.live hstore

theorem changePower_power (s : State) (p : PowerState) : (s.changePower p).supply.power = p := by
  rw [changePower_supply]

/-- R171, second step, as the table that `poweredBy` reads. -/
def levelRead (x : Settings) (p : PowerState) (level : Nat) : PowerState × Bool :=
  match p with
  | .mains => (.mains, false)
  | .battery =>
    if level < x.supplyCutoff then (.battery, true) else if level < x.supplyLow then (.reserve, false) else (.battery, false)
  | .reserve =>
    if level < x.supplyCutoff then (.reserve, true)
    else if level < x.supplyLow + x.supplyHysteresis then (.reserve, false) else (.battery, false)

theorem testLevel_eq (s : State) (level : Nat) : s.testLevel level = s.settled (levelRead s.settings s.supply.power level) := by
  unfold State.testLevel levelRead State.settled
  cases hp : s.supply.power with
  | mains => simp only [Bool.false_eq_true, if_false, changePower_same hp.symm]
  | battery =>
    dsimp only
    by_cases hcut : level < s.settings.supplyCutoff
    case pos => simp only [hcut, if_true, changePower_same hp.symm]
    case neg =>
      by_cases hlow : level < s.settings.supplyLow
      case pos => simp only [hcut, hlow, if_true, if_false, Bool.false_eq_true]
      case neg => simp only [hcut, hlow, if_false, Bool.false_eq_true, changePower_same hp.symm]
  | reserve =>
    dsimp only
    by_cases hcut : level < s.settings.supplyCutoff
    case pos => simp only [hcut, if_true, changePower_same hp.symm]
    case neg =>
      by_cases hhigh : s.settings.supplyLow + s.settings.supplyHysteresis ≤ level
      case pos => simp only [hcut, hhigh, if_true, if_false, Bool.false_eq_true, Nat.not_lt.mpr hhigh]
      case neg =>
        simp only [hcut, hhigh, if_true, if_false, Bool.false_eq_true, Nat.lt_of_not_le hhigh, changePower_same hp.symm]

/-- A power state that mains and level call for is not changed again by the level. -/
theorem levelRead_powerFor (x : Settings) (mains : Bool) (level : Nat) :
    (levelRead x (x.powerFor mains level) level).1 = x.powerFor mains level := by
  unfold Settings.powerFor levelRead
  cases mains with
  | true => rfl
  | false =>
    by_cases hlow : level < x.supplyLow
    case pos =>
      have hbelow : level < x.supplyLow + x.supplyHysteresis := by omega
      simp only [hlow, hbelow, if_true, Bool.false_eq_true, if_false]
      split <;> rfl
    case neg =>
      simp only [hlow, Bool.false_eq_true, if_false]
      split <;> rfl

theorem settled_changePower {s : State} {p : PowerState} {q : PowerState × Bool} (h : q.1 = p) :
    (s.changePower p).settled q = s.settled q := by
  unfold State.settled
  rw [changePower_same (s := s.changePower p) (by rw [changePower_power, h]), h]

theorem poweredBy_decided {s : State} {after : Option Bool} {level : Nat} (h : s.supply.decided = true) :
    poweredBy s after level = levelRead s.store.live (match after with
      | none => s.supply.power
      | some mains => if s.supply.debounced = after then s.supply.power else s.store.live.powerFor mains level) level := by
  unfold poweredBy levelRead Settings.powerFor
  exact if_neg (by simp [h])

theorem poweredBy_undecided {s : State} {mains : Bool} {level : Nat} (h : s.supply.decided = false) :
    poweredBy s (some mains) level =
      (s.store.live.powerFor mains level, !mains && decide (level < s.store.live.supplyCutoff)) := by
  unfold poweredBy Settings.powerFor
  rw [if_pos h]

theorem sampled_of_settled {s : State} {mains : Bool} {level : Byte}
    (h : (s.supply.decided || (s.supply.sample mains level).debounced.isSome) = s.supply.decided) :
    s.sampled mains level = s.tick.onSupply (·.sample mains level) := by
  show (s.tick.onSupply (·.sample mains level)).onSupply _ = _
  refine congrArg (fun m : SupplyMonitor => { s.tick with supply := m }) ?_
  show { s.supply.sample mains level with
    decided := s.supply.decided || (s.supply.sample mains level).debounced.isSome } = s.supply.sample mains level
  rw [h]
  rfl

/-- One sample of a running part: it is read, and then the power state changes at most once, before a shutdown. -/
theorem takeSample_eq (s : State) (mains : Bool) (level : Byte) :
    s.takeSample mains level =
      (s.sampled mains level).settled (poweredBy s (s.sampled mains level).supply.debounced level.toNat) := by
  unfold State.takeSample
  dsimp only
  by_cases hdecided : s.supply.decided = true
  case pos =>
    rw [if_pos hdecided, ← sampled_of_settled (by rw [hdecided, Bool.true_or]), poweredBy_decided hdecided, State.followPower]
    cases hdeb : (s.sampled mains level).supply.debounced with
    | none => exact testLevel_eq _ _
    | some after =>
      dsimp only
      by_cases hsame : s.supply.debounced = some after
      case pos =>
        rw [if_pos hsame, if_pos hsame]
        exact testLevel_eq _ _
      case neg =>
        rw [if_neg hsame, if_neg hsame, testLevel_eq, changePower_settings, changePower_power]
        exact settled_changePower (levelRead_powerFor _ _ _)
  case neg =>
    have hopen : s.supply.decided = false := Bool.eq_false_iff.mpr hdecided
    rw [if_neg hdecided, State.decidePower]
    have hdeb : (s.sampled mains level).supply.debounced = (s.tick.onSupply (·.sample mains level)).supply.debounced := rfl
    rw [hdeb]
    cases hsome : (s.tick.onSupply (·.sample mains level)).supply.debounced with
    | none =>
      have hnone : (s.supply.sample mains level).debounced = none := hsome
      rw [sampled_of_settled (by rw [hnone]; exact Bool.or_false _)]
      have hkept : poweredBy s none level.toNat = (s.supply.power, false) := by
        unfold poweredBy
        rw [if_pos hopen]
      rw [hkept]
      exact (changePower_same rfl).symm
    | some after =>
      have hread : s.sampled mains level = (s.tick.onSupply (·.sample mains level)).onSupply fun m => { m with decided := true } := by
        have hafter : (s.supply.sample mains level).debounced = some after := hsome
        refine congrArg (fun m : SupplyMonitor => { s.tick with supply := m }) ?_
        show { s.supply.sample mains level with
          decided := s.supply.decided || (s.supply.sample mains level).debounced.isSome } = _
        rw [hafter, Option.isSome_some, Bool.or_true]
        rfl
      rw [poweredBy_undecided hopen, hread, State.settled]
      dsimp only
      have hmains : s.store.live.powerFor after level.toNat ≠ .mains ↔ after = false := by
        unfold Settings.powerFor
        cases after with
        | true => simp
        | false => simp only [Bool.false_eq_true, if_false, iff_true]; split <;> decide
      by_cases hcut : s.store.live.powerFor after level.toNat ≠ .mains ∧ level.toNat < s.store.live.supplyCutoff
      case pos =>
        rw [if_pos (by exact hcut), if_pos (by simp [hmains.mp hcut.1, hcut.2])]
        rfl
      case neg =>
        rw [if_neg (by exact hcut), if_neg]
        · rfl
        · simpa [hmains] using hcut

theorem settled_supply (s : State) (q : PowerState × Bool) : (s.settled q).supply = { s.supply with power := q.1 } := by
  unfold State.settled
  split
  case isTrue => exact changePower_supply s q.1
  case isFalse => exact changePower_supply s q.1

theorem settled_of_on {s : State} {q : PowerState × Bool} (h : q.2 = false) : s.settled q = s.changePower q.1 :=
  if_neg (by rw [h]; decide)

theorem settled_of_down {s : State} {q : PowerState × Bool} (h : q.2 = true) : s.settled q = (s.changePower q.1).shutDown :=
  if_pos h

theorem exec_supplySample {s : State} (mains : Bool) (level : Byte) (h : s.phase = .running) :
    exec (.supplySample mains level) s = .next
      (((s.taking (.supplySample mains level)).takeSample mains level).onHost HostLink.beginSending) := by
  simp only [exec, execSupplySample, h]
  exact act_running h

theorem takeSample_supply (s : State) (mains : Bool) (level : Byte) :
    (s.takeSample mains level).supply = { (s.sampled mains level).supply with
      power := (poweredBy s (s.sampled mains level).supply.debounced level.toNat).1 } := by
  rw [takeSample_eq, settled_supply]

/-- A last NOTICE stands at the end of the outgoing order once shutdown has begun sending (R173). -/
theorem shutDown_last (s : State) :
    ∃ content, (s.shutDown.onHost HostLink.beginSending).host.outgoing.getLast? = some (.notice content) :=
  beginSending_last_notice { s.shutDown.host with outgoing := [] } (s.host.outgoing.filter fun f => f != .notice none)

theorem shutDown_notice (s : State) : NoticeKind.powerChanged.inSet s.shutDown.host.noticeSet = true := inSet_or _ _

/-! ### A sample in supply reset (R174) -/

theorem restart_store (s : State) {cause : ResetCause} (h : cause ≠ .cold) :
    (s.restart cause).store.resetCause = cause ∧ (s.restart cause).store.warm = s.store.checkAgrees := by
  unfold State.restart
  split
  case isTrue hwarm =>
    obtain ⟨-, -, -, -, -, -, ⟨q, hstore⟩, -⟩ := warmStart_facts s cause
    rw [hstore]
    exact ⟨rfl, hwarm.1.symm⟩
  case isFalse hcold =>
    refine ⟨rfl, ?_⟩
    have hinvalid : s.store.checkAgrees = false := Bool.eq_false_iff.mpr fun hvalid => hcold ⟨hvalid, h⟩
    rw [hinvalid]
    rfl

/-- A reset while the line is low ends held in reset; the store is that of the reset all the same. -/
theorem restartUnlessHeld_facts (s : State) (cause : ResetCause) :
    (s.restartUnlessHeld cause).phase = (if s.resetLow = true then .lineLow else .running)
      ∧ (s.restartUnlessHeld cause).store = (s.restart cause).store := by
  cases hlow : s.resetLow with
  | true =>
    rw [restartUnlessHeld_low hlow]
    exact ⟨rfl, rfl⟩
  | false =>
    rw [restartUnlessHeld_high hlow]
    exact ⟨restart_phase s cause, rfl⟩

theorem recovered_iff (s : State) (mains : Bool) (level : Byte) :
    (s.tick.onSupply (·.sample mains level)).recovered = true ↔
      (mains = true ∧ (if s.supply.run.any (fun r => r.1 == mains) then min 3 ((s.supply.run.map Prod.snd).getD 0 + 1) else 1) = 3)
        ∨ s.store.live.supplyCutoff + s.store.live.supplyHysteresis ≤ level.toNat := by
  have hrun := sample_facts s.supply mains level
  have hlevel : (s.tick.onSupply (·.sample mains level)).supply.level = some level := rfl
  unfold State.recovered
  rw [Bool.or_eq_true, hlevel, Option.any_some, decide_eq_true_iff]
  refine or_congr ?_ Iff.rfl
  rw [beq_iff_eq]
  refine (Eq.congr_left hrun).trans ?_
  rw [Option.some.injEq, Prod.mk.injEq]

theorem sample_debounced (m : SupplyMonitor) (mains : Bool) (level : Byte) :
    (m.sample mains level).debounced =
      if (if m.run.any (fun r => r.1 == mains) then min 3 ((m.run.map Prod.snd).getD 0 + 1) else 1) = 3 then some mains
      else m.debounced := by
  have hrun : enterRun m.run mains = _ := Option.some.inj (sample_facts m mains level)
  show (if (enterRun m.run mains).2 = 3 then some (enterRun m.run mains).1 else m.debounced) = _
  rw [hrun]

/-- Settles O18: in a running part the sample is read and settled by the table; in supply reset the reading decides about the reset. -/
theorem supplyIsSampled : Obligations.SupplyIsSampled := by
  refine ⟨fun s mains level hrun => ?read, fun s mains level hready => ?settles, fun s mains level hphase run recovered hrun
    hrecovered => ?inReset⟩
  case read =>
    have hexec := exec_supplySample mains level hrun
    have hsupply := takeSample_supply (s.taking (.supplySample mains level)) mains level
    obtain ⟨-, -, -, hnow, hstore⟩ := takeSample_keepsSupply (s.taking (.supplySample mains level)) mains level
    have hdebounced := congrArg SupplyMonitor.debounced hsupply
    refine ⟨_, _, hexec, rfl, ?run, ?level, ?debounced, hnow, hstore, ?decided, ?power, ?only⟩
    case run => exact (congrArg SupplyMonitor.run hsupply).trans (sample_facts s.supply mains level)
    case level => exact congrArg SupplyMonitor.level hsupply
    case debounced => exact hdebounced.trans (sample_debounced s.supply mains level)
    case decided =>
      refine (congrArg SupplyMonitor.decided hsupply).trans ?_
      exact congrArg (fun x : Option Bool => s.supply.decided || x.isSome) hdebounced.symm
    case power =>
      refine (congrArg SupplyMonitor.power hsupply).trans ?_
      exact congrArg (fun x => (poweredBy s x level.toNat).1) hdebounced.symm
    case only => simp
  case settles =>
    have hexec := exec_supplySample mains level hready.1
    have hsupply := takeSample_supply (s.taking (.supplySample mains level)) mains level
    have hdebounced : (((s.taking (.supplySample mains level)).takeSample mains level).onHost
        HostLink.beginSending).supply.debounced = ((s.taking (.supplySample mains level)).sampled mains level).supply.debounced := by
      have hread := congrArg SupplyMonitor.debounced hsupply
      exact hread
    have hsample := takeSample_eq (s.taking (.supplySample mains level)) mains level
    refine ⟨_, hexec, ?_⟩
    rw [hdebounced]
    refine ⟨fun hon => ?on, fun hdown => ?down⟩
    case on =>
      rw [hsample, settled_of_on (by exact hon)]
      generalize hp : (poweredBy (s.taking (.supplySample mains level)) _ level.toNat).1 = p
      have hpower := changePower_power ((s.taking (.supplySample mains level)).sampled mains level) p
      have honly : Only [.supply, .host, .inFlight] ((s.taking (.supplySample mains level)).sampled mains level)
        (((s.taking (.supplySample mains level)).sampled mains level).changePower p) := by simp
      have hread : Only [.now, .inFlight, .supply, .store] s ((s.taking (.supplySample mains level)).sampled mains level) := by
        simp [State.sampled]
      have hphase : (((s.taking (.supplySample mains level)).sampled mains level).changePower p).phase = s.phase :=
        honly .phase (by decide)
      refine ⟨hphase.trans hready.1, ?work, fun hchanged => ⟨?notice, ?changed⟩, fun hsame => ?same⟩
      case work =>
        have hwork := changePower_inFlight ((s.taking (.supplySample mains level)).sampled mains level) p
        refine hwork.trans ?_
        exact congrArg (fun x => s.inFlight.erase (.supplySample mains level) ++ powerTold s x) hpower.symm
      case notice =>
        have hne : p ≠ s.supply.power := fun h => hchanged (hpower.trans h)
        have hhost := changePower_host (s := (s.taking (.supplySample mains level)).sampled mains level) hne
        rw [onHost_host, beginSending_noticeSet, hhost, join_noticeSet]
        exact inSet_or _ _
      case changed => simp [State.sampled]
      case same =>
        have heq : p = s.supply.power := hpower.symm.trans hsame
        rw [changePower_same (by exact heq), onHost_beginSending (by exact hready.2)]
        exact hread
    case down =>
      rw [hsample, settled_of_down (by exact hdown)]
      generalize hp : (poweredBy (s.taking (.supplySample mains level)) _ level.toNat).1 = p
      have honly : Only [.supply, .host, .inFlight] ((s.taking (.supplySample mains level)).sampled mains level)
        (((s.taking (.supplySample mains level)).sampled mains level).changePower p) := by simp
      have hdock := honly .dock (by decide)
      refine ⟨rfl, ?notice, congrArg (fun u : DockUnit => { u with poll := none }) hdock, rfl, ?waiting, shutDown_last _⟩
      case notice =>
        rw [onHost_host, beginSending_noticeSet]
        exact shutDown_notice _
      case waiting => exact beginSending_waiting _
  case inReset =>
    have hexec : exec (.supplySample mains level) s = .next (s.sampleInReset mains level) := by
      simp only [exec, execSupplySample, hphase]
    have hiff := recovered_iff s mains level
    rw [← hrun] at hiff
    refine ⟨_, hexec, fun hrec => ?recovered, fun hnot => ?not⟩
    case recovered =>
      rw [hrecovered] at hrec
      have hstart : s.sampleInReset mains level = (s.tick.onSupply (·.sample mains level)).restartUnlessHeld .supply :=
        if_pos (hiff.mpr hrec)
      obtain ⟨hp, hstore⟩ := restartUnlessHeld_facts (s.tick.onSupply (·.sample mains level)) .supply
      obtain ⟨hcause, hwarm⟩ := restart_store (s.tick.onSupply (·.sample mains level)) (cause := .supply) (by decide)
      rw [hstart, hstore]
      exact ⟨hp, hcause, hwarm⟩
    case not =>
      rw [hrecovered] at hnot
      have hstays : s.sampleInReset mains level = s.tick.onSupply (·.sample mains level) :=
        if_neg (mt hiff.mp hnot)
      rw [hstays]
      refine ⟨hphase, ?_, rfl, rfl, rfl, ?_⟩
      · exact (sample_facts s.supply mains level).trans (by rw [hrun])
      · simp

end Sys2Proof.Machine
end


section
/-! Proofs. Resets (R2, R71, R96, R130, R153, R175, R176, R179): what a warm start writes into the journal and the fault table, and the
slots it takes. -/

namespace Sys2Proof.Machine

/-! ### The tables of R29 and R43 -/

theorem level_eq_table (caps : DockCaps) (r : DockRecord) : r.level caps = levelByTable caps r := by
  unfold levelByTable DockRecord.level DockCaps.cap DockRecord.holdCap
  cases hset : r.hostSetting <;> cases hstation : caps.station <;> cases hpower : caps.power <;> grind [Level.lowest, Level.rank]

/-! ### Steps that touch the slots alone -/

/-- A dock record without its slot's command, its admission and its lamp. -/
def DockRecord.slotless (r : DockRecord) : DockRecord := { r with commanded := .shut, withheld := false, lamp := .off }

/-- From `s` to `t` no more of the docks changed than slots, admissions and lamps, and the claims stand. -/
structure SlotsOnly (s t : State) : Prop where
  table : t.dock.table.map DockRecord.slotless = s.dock.table.map DockRecord.slotless
  caps : t.dock.caps = s.dock.caps
  counter : t.dock.insertionCounter = s.dock.insertionCounter
  release : t.release = s.release

theorem SlotsOnly.refl (s : State) : SlotsOnly s s := ⟨rfl, rfl, rfl, rfl⟩

theorem SlotsOnly.trans {s t u : State} (h : SlotsOnly s t) (k : SlotsOnly t u) : SlotsOnly s u :=
  ⟨k.table.trans h.table, k.caps.trans h.caps, k.counter.trans h.counter, k.release.trans h.release⟩

theorem slotsOnly_of_same {s t : State} (hdock : t.dock = s.dock) (hrelease : t.release = s.release) : SlotsOnly s t :=
  ⟨by rw [hdock], by rw [hdock], by rw [hdock], hrelease⟩

theorem slotsOnly_onDock (s : State) (d : DockNo) {f : DockRecord → DockRecord} (h : ∀ r, (f r).slotless = r.slotless) :
    SlotsOnly s (s.onDock d f) := ⟨map_modify_same h, rfl, rfl, rfl⟩

theorem slotsOnly_postPass (s : State) : SlotsOnly s s.postPass := by
  rw [postPass_eq]
  exact slotsOnly_of_same rfl rfl

theorem slotsOnly_post (s : State) (i : Instr) : SlotsOnly s (s.post i) := slotsOnly_of_same rfl rfl

theorem slotsOnly_relamp (s : State) (d : DockNo) : SlotsOnly s (s.relamp d) := slotsOnly_onDock s d fun _ => rfl

theorem slotsOnly_changeSlot (s : State) (d : DockNo) {f : DockRecord → DockRecord} (h : ∀ r, (f r).slotless = r.slotless) :
    SlotsOnly s (s.changeSlot d f) := by
  unfold State.changeSlot
  split
  · exact SlotsOnly.refl s
  · dsimp only
    split
    · exact slotsOnly_onDock s d h
    · exact ((slotsOnly_onDock s d h).trans (slotsOnly_post _ _)).trans (slotsOnly_postPass _)

theorem slotsOnly_takeSlot (s : State) (d : DockNo) : SlotsOnly s (s.takeSlot d) := by
  have hwithheld : ∀ b i, SlotsOnly s ((s.onDock d fun r => { r with withheld := b }).post i) := fun b i =>
    (slotsOnly_onDock s d (f := fun r => { r with withheld := b }) fun _ => rfl).trans (slotsOnly_post _ i)
  have hshut : ∀ u : State, SlotsOnly u (u.changeSlot d fun r => { r with commanded := .shut }) := fun u =>
    slotsOnly_changeSlot u d fun _ => rfl
  have hopened : ∀ u : State, SlotsOnly u (u.changeSlot d fun r => { r with commanded := .opened }) := fun u =>
    slotsOnly_changeSlot u d fun _ => rfl
  unfold State.takeSlot
  split
  · exact SlotsOnly.refl s
  next r hr =>
    split
    · split
      · exact SlotsOnly.refl s
      · split
        · exact hopened s
        · exact hwithheld true _
    · dsimp only
      split
      · split
        · exact (hwithheld false _).trans (hshut _)
        · exact hshut s
      · split
        · exact hwithheld false _
        · exact SlotsOnly.refl s

theorem slotsOnly_onJournal (s : State) (f : Journal → Journal) : SlotsOnly s (s.onJournal f) := slotsOnly_of_same rfl rfl

theorem slotsOnly_admitDock (s : State) (d : DockNo) : SlotsOnly s (s.admitDock d) := by
  have hopened : ∀ u : State, SlotsOnly u (u.onDock d fun r => { r with commanded := .opened, withheld := false }) := fun u =>
    slotsOnly_onDock u d fun _ => rfl
  have hlisted := slotsOnly_onJournal s fun j => { j with withheld := j.withheld.erase d }
  unfold State.admitDock
  dsimp only
  split
  · exact (((hlisted.trans (hopened _)).trans (slotsOnly_onJournal _ _)).trans (slotsOnly_relamp _ d)).trans
      (slotsOnly_postPass _)
  · exact hlisted

theorem slotless_at {s t : State} (h : SlotsOnly s t) (d : DockNo) :
    (t.dock? d).map DockRecord.slotless = (s.dock? d).map DockRecord.slotless := by
  have hat := congrArg (·[d]?) h.table
  simpa only [List.getElem?_map, State.dock?] using hat

theorem wantsOpen_of_slotsOnly {s t : State} (h : SlotsOnly s t) (d : DockNo) : t.wantsOpen d = s.wantsOpen d := by
  have hat := slotless_at h d
  have hbooked : t.bookedAt d = s.bookedAt d := by simp only [State.bookedAt, State.claimOn, h.release]
  unfold State.wantsOpen
  rw [h.caps, hbooked]
  cases hs : s.dock? d with
  | none => rw [Option.map_eq_none_iff.mp (hat.trans (by rw [hs]; rfl))]
  | some r =>
    rw [hs] at hat
    obtain ⟨q, hq, hqr⟩ := Option.map_eq_some_iff.mp hat
    rw [hq]
    have hlevel : q.level s.dock.caps = r.level s.dock.caps := by
      have hcaps := congrArg (DockRecord.level s.dock.caps) hqr
      exact hcaps
    have hoccupancy : q.occupancy = r.occupancy := by
      have hread := congrArg DockRecord.occupancy hqr
      exact hread
    simp only [hlevel, hoccupancy]

/-! ### The slot of one dock -/

/-- R37: a slot that is not wanted OPEN is commanded SHUT and waits for no admission. -/
def ShutUnlessWanted (s : State) (d : DockNo) : Prop :=
  s.wantsOpen d = false → ∀ r, s.dock? d = some r → r.commanded = .shut ∧ r.withheld = false

/-- A slot that is wanted OPEN is commanded so. -/
def OpenIfWanted (s : State) (d : DockNo) : Prop :=
  s.wantsOpen d = true → ∀ r, s.dock? d = some r → r.commanded = .opened

theorem shutUnlessWanted_congr {s t : State} {d : DockNo} (h : SlotsOnly s t) (hd : t.dock? d = s.dock? d)
    (hs : ShutUnlessWanted s d) : ShutUnlessWanted t d := by
  unfold ShutUnlessWanted
  rw [wantsOpen_of_slotsOnly h d, hd]
  exact hs

theorem openIfWanted_congr {s t : State} {d : DockNo} (h : SlotsOnly s t) (hd : t.dock? d = s.dock? d)
    (hs : OpenIfWanted s d) : OpenIfWanted t d := by
  unfold OpenIfWanted
  rw [wantsOpen_of_slotsOnly h d, hd]
  exact hs

theorem relamp_at {s : State} {d : DockNo} {r : DockRecord} (h : (s.relamp d).dock? d = some r) :
    ∃ q, s.dock? d = some q ∧ r.commanded = q.commanded ∧ r.withheld = q.withheld := by
  rw [State.relamp, dock?_onDock_self] at h
  obtain ⟨q, hq, rfl⟩ := Option.map_eq_some_iff.mp h
  exact ⟨q, hq, rfl, rfl⟩

/-- The step of `State.retakeDocks`. -/
def State.retake (s : State) (d : DockNo) : State := (s.takeSlot d).relamp d

theorem slotsOnly_retake (s : State) (d : DockNo) : SlotsOnly s (s.retake d) :=
  (slotsOnly_takeSlot s d).trans (slotsOnly_relamp _ d)

theorem retake_other (s : State) {d e : DockNo} (h : e ≠ d) : (s.retake d).dock? e = s.dock? e := by
  obtain ⟨_, _, taken⟩ := acts_takeSlot s d
  obtain ⟨_, lamp⟩ := acts_relamp (s.takeSlot d) d
  exact (lamp.oth.2 e h).trans (taken.oth.2 e h)

theorem shutUnlessWanted_retake (s : State) (d : DockNo) : ShutUnlessWanted (s.retake d) d := by
  intro hwants r hr
  obtain ⟨q, hq, hcommanded, hwithheld⟩ := relamp_at hr
  rw [wantsOpen_of_slotsOnly (slotsOnly_retake s d) d] at hwants
  rw [hcommanded, hwithheld]
  exact takeSlot_shuts hwants hq

theorem takeSlot_of_opened {s : State} {d : DockNo} {r : DockRecord} (hr : s.dock? d = some r) (hwants : s.wantsOpen d = true)
    (hopen : r.commanded = .opened) : s.takeSlot d = s := by
  unfold State.takeSlot
  rw [hr]
  simp only [hwants, if_true, hopen, true_or]

theorem openIfWanted_retake {s : State} {d : DockNo} (h : OpenIfWanted s d) : OpenIfWanted (s.retake d) d := by
  intro hwants r hr
  rw [wantsOpen_of_slotsOnly (slotsOnly_retake s d) d] at hwants
  obtain ⟨q, hq, hcommanded, -⟩ := relamp_at hr
  rw [hcommanded]
  cases hs : s.dock? d with
  | none =>
    obtain ⟨_, _, taken⟩ := acts_takeSlot s d
    rw [taken.at_, hs] at hq
    cases hq
  | some p =>
    have hopen := h hwants p hs
    rw [takeSlot_of_opened hs hwants hopen, hs] at hq
    cases hq
    exact hopen

/-- What the retake of a dock establishes stands when other docks are taken, and when it is taken again. -/
theorem shutUnlessWanted_foldl (l : List DockNo) {s : State} {d : DockNo} (h : d ∈ l ∨ ShutUnlessWanted s d) :
    ShutUnlessWanted (l.foldl State.retake s) d := by
  induction l generalizing s with
  | nil => exact h.resolve_left (List.not_mem_nil)
  | cons e l ih =>
    by_cases he : d = e
    case pos => exact ih (Or.inr (he ▸ shutUnlessWanted_retake s e))
    case neg =>
      refine ih ?_
      rcases h with hmem | hs
      · exact Or.inl ((List.mem_cons.mp hmem).resolve_left he)
      · exact Or.inr (shutUnlessWanted_congr (slotsOnly_retake s e) (retake_other s he) hs)

theorem openIfWanted_foldl (l : List DockNo) {s : State} {d : DockNo} (h : OpenIfWanted s d) :
    OpenIfWanted (l.foldl State.retake s) d := by
  induction l generalizing s with
  | nil => exact h
  | cons e l ih =>
    refine ih ?_
    by_cases he : d = e
    case pos => exact he ▸ openIfWanted_retake (he ▸ h)
    case neg => exact openIfWanted_congr (slotsOnly_retake s e) (retake_other s he) h

theorem slotsOnly_foldl {α : Type} {f : State → α → State} (h : ∀ t a, SlotsOnly t (f t a)) (l : List α) (s : State) :
    SlotsOnly s (l.foldl f s) := by
  induction l generalizing s with
  | nil => exact SlotsOnly.refl s
  | cons a l ih => exact (h s a).trans (ih (f s a))

theorem slotsOnly_retakeDocks (s : State) : SlotsOnly s s.retakeDocks := slotsOnly_foldl slotsOnly_retake _ s

/-! ### Admissions (R124) -/

/-- An admission changes a dock that waits for it, and commands its slot OPEN. -/
theorem admitDock_self {s : State} {d : DockNo} {r : DockRecord} (h : (s.admitDock d).dock? d = some r) :
    ∃ q, s.dock? d = some q ∧ (q.withheld = false → r = q) ∧ (q.commanded = .opened → r.commanded = .opened) := by
  unfold State.admitDock at h
  dsimp only at h
  split at h
  case isTrue hwithheld =>
    rw [postPass_eq] at h
    obtain ⟨p, hp, hcommanded, -⟩ := relamp_at h
    change ((s.onJournal _).onDock d _).dock? d = some p at hp
    rw [dock?_onDock_self] at hp
    obtain ⟨q, hq, rfl⟩ := Option.map_eq_some_iff.mp hp
    refine ⟨q, hq, fun hfree => ?_, fun _ => hcommanded⟩
    change s.dock? d = some q at hq
    rw [hq, Option.any_some, hfree] at hwithheld
    cases hwithheld
  case isFalse => exact ⟨r, h, fun _ => rfl, id⟩

theorem shutUnlessWanted_admitDock {s : State} {d : DockNo} (e : DockNo) (h : ShutUnlessWanted s d) :
    ShutUnlessWanted (s.admitDock e) d := by
  by_cases he : d = e
  case neg => exact shutUnlessWanted_congr (slotsOnly_admitDock s e) ((otherDocks_admitDock s e).2 d he) h
  case pos =>
    subst he
    intro hwants r hr
    rw [wantsOpen_of_slotsOnly (slotsOnly_admitDock s d) d] at hwants
    obtain ⟨q, hq, hsame, -⟩ := admitDock_self hr
    obtain ⟨hshut, hfree⟩ := h hwants q hq
    rw [hsame hfree]
    exact ⟨hshut, hfree⟩

theorem openIfWanted_admitDock {s : State} {d : DockNo} (e : DockNo) (h : OpenIfWanted s d) :
    OpenIfWanted (s.admitDock e) d := by
  by_cases he : d = e
  case neg => exact openIfWanted_congr (slotsOnly_admitDock s e) ((otherDocks_admitDock s e).2 d he) h
  case pos =>
    subst he
    intro hwants r hr
    rw [wantsOpen_of_slotsOnly (slotsOnly_admitDock s d) d] at hwants
    obtain ⟨q, hq, -, hopen⟩ := admitDock_self hr
    exact hopen (h hwants q hq)

theorem admitDock_entries (s : State) (d : DockNo) : (s.admitDock d).journal.entries = s.journal.entries := by
  unfold State.admitDock
  dsimp only
  split
  · rw [postPass_eq]
    rfl
  · rfl

/-- What every admission keeps is kept by the admissions of an arrival. -/
theorem admitUpTo_keeps {P : State → Prop} (h : ∀ s d, P s → P (s.admitDock d)) (n : Nat) {s : State} (hs : P s) :
    P (s.admitUpTo n) := by
  induction n generalizing s with
  | zero => exact hs
  | succ n ih =>
    unfold State.admitUpTo
    split
    · exact hs
    · split
      · exact ih (h s _ hs)
      · exact hs

end Sys2Proof.Machine
end


section
/-! Proofs. The commands that end a stop by a reset, and what the reset leaves (R175, R176, R179). -/

namespace Sys2Proof.Machine

/-! ### The work of a warm start -/

theorem closeForRestart_of_none {s : State} (h : s.order.session = none) : s.closeForRestart = s := by
  unfold State.closeForRestart
  rw [h]

theorem closeForRestart_of_some {s : State} {v : VanSession} {o : Order} (h : s.order.session = some v)
    (ho : s.orderOf v.order = some o) :
    s.closeForRestart = (s.writeRequested (.orderClosed v.order .restart o.done o.quantity)).onOrders fun u =>
      { queue := u.queue.filter fun x => x.id != v.order, session := none } := by
  unfold State.closeForRestart
  rw [h]
  dsimp only
  rw [ho]

theorem map_filter_eq_filterMap {α β : Type} (p : α → Bool) (f : α → β) (l : List α) :
    (l.filter p).map f = l.filterMap fun a => if p a = true then some (f a) else none := by
  induction l with
  | nil => rfl
  | cons a l ih => by_cases h : p a = true <;> simp [h, ih]

/-- What a resolution makes of one fault record: an ACKED one leaves (R160). -/
def resolution (x : FaultSubject) (k : FaultKind) (r : FaultRecord) : Option FaultRecord :=
  if r.subject = x ∧ r.kind = k then (if r.report = .acked then none else some { r with condition := .resolved }) else some r

theorem resolveRecord_table (s : State) (x : FaultSubject) (k : FaultKind) :
    (s.resolveRecord x k).fault.table = s.fault.table.filterMap (resolution x k) := by
  show (s.fault.table.filter _).map _ = _
  rw [map_filter_eq_filterMap]
  refine List.filterMap_congr fun r _ => ?_
  unfold resolution
  by_cases hx : r.subject = x <;> by_cases hk : r.kind = k <;> by_cases hr : r.report = .acked <;> simp [hx, hk, hr]

/-- R96: every LINE_FAILED record is resolved, and the ACKED ones leave. -/
theorem resolveLines_table (s : State) :
    s.resolveLines.fault.table = (s.fault.table.filter fun y => !(lineFault y && y.report == .acked)).map fun y =>
      if lineFault y = true then { y with condition := .resolved } else y := by
  rw [map_filter_eq_filterMap]
  simp only [State.resolveLines, terminals, List.foldl, resolveRecord_table, List.filterMap_filterMap]
  refine List.filterMap_congr fun r _ => ?_
  by_cases hk : r.kind = .lineFailed
  case neg => simp [resolution, lineFault, hk]
  case pos =>
    by_cases hr : r.report = .acked
    case pos => cases hx : r.subject with
      | terminal t => cases t <;> simp [resolution, lineFault, hk, hr, hx]
      | dock d => simp [resolution, lineFault, hk, hx]
      | bike b => simp [resolution, lineFault, hk, hx]
    case neg => cases hx : r.subject with
      | terminal t => cases t <;> simp [resolution, lineFault, hk, hr, hx]
      | dock d => simp [resolution, lineFault, hk, hx]
      | bike b => simp [resolution, lineFault, hk, hx]

/-! ### A warm start -/

/-- The part before the docks are taken at a warm start. -/
def State.warmReady (s : State) (cause : ResetCause) : State := (s.warmBlocks cause).closeForRestart.resolveLines

/-- The part after its admissions at a warm start, before the host link starts afresh. -/
def State.warmDone (s : State) (cause : ResetCause) : State := (s.warmReady cause).retakeDocks.recountJournal.admitWithheld

theorem warmStart_eq (s : State) (cause : ResetCause) : s.warmStart cause =
    { s.warmDone cause with inFlight := [], host := HostLink.afterReset s.straps s.settings.silenceLimit } := rfl

theorem warmReady_only (s : State) (cause : ResetCause) :
    Only [.journal, .store, .release, .inFlight, .order, .fault] (s.warmBlocks cause) (s.warmReady cause) :=
  ((closeForRestart_only _).mono (by decide)).trans ((resolveLines_only _).mono (by decide))

theorem warmReady_resolves (s : State) (cause : ResetCause) :
    Only [.fault] (s.warmBlocks cause).closeForRestart (s.warmReady cause) := resolveLines_only _

theorem warmDone_only (s : State) (cause : ResetCause) :
    Only [.dock, .inFlight, .journal] (s.warmReady cause) (s.warmDone cause) := by
  rw [State.warmDone, only_admitWithheld _ _ _ (by decide) (by decide) (by decide)]
  exact ((retakeDocks_only _).mono (by decide)).trans ((recountJournal_only _).mono (by decide))

theorem slotsOnly_warmDone (s : State) (cause : ResetCause) : SlotsOnly (s.warmReady cause) (s.warmDone cause) := by
  have hrecount : SlotsOnly (s.warmReady cause).retakeDocks (s.warmReady cause).retakeDocks.recountJournal :=
    slotsOnly_of_same (recountJournal_only _ .dock (by decide)) (recountJournal_only _ .release (by decide))
  exact admitUpTo_keeps (fun t d ht => ht.trans (slotsOnly_admitDock t d)) _ ((slotsOnly_retakeDocks _).trans hrecount)

theorem warmDone_entries (s : State) (cause : ResetCause) :
    (s.warmDone cause).journal.entries = (s.warmReady cause).journal.entries := by
  refine admitUpTo_keeps (P := fun t => t.journal.entries = (s.warmReady cause).journal.entries)
    (fun t d ht => (admitDock_entries t d).trans ht) _ ?_
  have hentries := congrArg Journal.entries (retakeDocks_only (s.warmReady cause) .journal (by decide))
  exact hentries

theorem warmReady_release (s : State) (cause : ResetCause) : (s.warmReady cause).release = s.release.warm := by
  have hresolved : (s.warmReady cause).release = (s.warmBlocks cause).closeForRestart.release :=
    warmReady_resolves s cause .release (by decide)
  exact hresolved.trans (closeForRestart_release _)

theorem warmReady_dock (s : State) (cause : ResetCause) :
    (s.warmReady cause).dock = s.dock.warm s.store.station s.settings.silenceAction := warmReady_only s cause .dock (by decide)

theorem warmDone_shut (s : State) (cause : ResetCause) (d : DockNo) : ShutUnlessWanted (s.warmDone cause) d := by
  have hretaken : ShutUnlessWanted (s.warmReady cause).retakeDocks d := by
    by_cases hd : d < (s.warmReady cause).dockCount
    case pos => exact shutUnlessWanted_foldl _ (Or.inl (List.mem_range.mpr hd))
    case neg =>
      intro _ r hr
      have hlen := congrArg List.length (slotsOnly_retakeDocks (s.warmReady cause)).table
      rw [List.length_map, List.length_map] at hlen
      obtain ⟨hlt, -⟩ := List.getElem?_eq_some_iff.mp hr
      rw [hlen] at hlt
      exact absurd hlt hd
  exact admitUpTo_keeps (P := fun t => ShutUnlessWanted t d) (fun t e ht => shutUnlessWanted_admitDock e ht) _ hretaken

theorem warmDone_open {s : State} {cause : ResetCause} {d : DockNo} (h : OpenIfWanted (s.warmReady cause) d) :
    OpenIfWanted (s.warmDone cause) d :=
  admitUpTo_keeps (P := fun t => OpenIfWanted t d) (fun _ e ht => openIfWanted_admitDock e ht) _ (openIfWanted_foldl _ h)

theorem afterReset_eq (straps : BitVec 2) (limit : Nat) : HostLink.afterReset straps limit =
    { rate := straps, deadline := some limit, noticeSet := 0x0003, outgoing := [.notice (some 0x0003)] } := by
  simp [HostLink.afterReset, HostLink.fresh, HostLink.join, NoticeKind.inSet, NoticeKind.bit, HostLink.queueNotice,
    HostLink.send, HostLink.beginSending, Code.notice, OutFrame.isNotice]

/-! ### The commands that end a stop -/

/-- A reset with the line high, or by its release. -/
theorem exec_resets {s : State} {x : Instr × Phase × ResetCause} (hx : x ∈ resets) (hphase : s.phase = x.2.1)
    (hout : s.host.outgoing = []) (hhigh : x.1 = .resetLineRelease ∨ s.resetLow = false) :
    exec x.1 s = .next (State.restart { s with resetLow := false }
      (if x.1 = .powerUp ∧ s.store.checkAgrees = false then .cold else x.2.2)) := by
  have hsame : s.resetLow = false → { s with resetLow := false } = s := fun h => by rw [← h]
  simp only [resets, List.mem_cons, List.not_mem_nil, or_false] at hx
  rcases hx with rfl | rfl | rfl
  · have hlow : s.resetLow = false := hhigh.resolve_left (by decide)
    simp only [exec, execRequestReset]
    rw [if_pos ⟨hphase, hout⟩, restartUnlessHeld_high hlow, if_neg (by simp), hsame hlow]
  · simp only [exec, execResetLineRelease]
    rw [if_pos hphase, if_neg (by simp)]
  · have hlow : s.resetLow = false := hhigh.resolve_left (by decide)
    simp only [exec, execPowerUp]
    rw [if_pos hphase, restartUnlessHeld_high hlow, hsame hlow]
    cases s.store.checkAgrees <;> simp

theorem exec_resets_held {s : State} {x : Instr × Phase × ResetCause} (hx : x ∈ resets) (hphase : s.phase = x.2.1)
    (hout : s.host.outgoing = []) (hx1 : x.1 ≠ .resetLineRelease) :
    exec x.1 s = .next (s.restartUnlessHeld (if x.1 = .powerUp ∧ s.store.checkAgrees = false then .cold else x.2.2)) := by
  simp only [resets, List.mem_cons, List.not_mem_nil, or_false] at hx
  rcases hx with rfl | rfl | rfl
  · simp only [exec, execRequestReset]
    rw [if_pos ⟨hphase, hout⟩, if_neg (by simp)]
  · exact absurd rfl hx1
  · simp only [exec, execPowerUp]
    rw [if_pos hphase]
    cases s.store.checkAgrees <;> simp

theorem resets_cause {x : Instr × Phase × ResetCause} (hx : x ∈ resets) : x.2.2 ≠ .cold := by
  simp only [resets, List.mem_cons, List.not_mem_nil, or_false] at hx
  rcases hx with rfl | rfl | rfl <;> decide

/-- Every part of a warm start that is not of the docks alone. -/
theorem warmStart_parts (s : State) (cause : ResetCause) :
    (s.warmStart cause).store = (s.warmBlocks cause).closeForRestart.store
      ∧ (s.warmStart cause).order = (s.warmBlocks cause).closeForRestart.order
      ∧ (s.warmStart cause).journal.entries = (s.warmBlocks cause).closeForRestart.journal.entries
      ∧ (s.warmStart cause).fault.table = (s.warmReady cause).fault.table ∧ (s.warmStart cause).now = 0 := by
  have hstore : (s.warmDone cause).store = (s.warmReady cause).store := warmDone_only s cause .store (by decide)
  have hstore' : (s.warmReady cause).store = (s.warmBlocks cause).closeForRestart.store :=
    warmReady_resolves s cause .store (by decide)
  have horder : (s.warmDone cause).order = (s.warmReady cause).order := warmDone_only s cause .order (by decide)
  have horder' : (s.warmReady cause).order = (s.warmBlocks cause).closeForRestart.order :=
    warmReady_resolves s cause .order (by decide)
  have hjournal : (s.warmReady cause).journal = (s.warmBlocks cause).closeForRestart.journal :=
    warmReady_resolves s cause .journal (by decide)
  have hfault : (s.warmDone cause).fault = (s.warmReady cause).fault := warmDone_only s cause .fault (by decide)
  have hnow : (s.warmDone cause).now = (s.warmReady cause).now := warmDone_only s cause .now (by decide)
  have hnow' : (s.warmReady cause).now = (s.warmBlocks cause).now := warmReady_only s cause .now (by decide)
  rw [warmStart_eq]
  refine ⟨?_, ?_, ?_, ?_, ?_⟩
  · rw [hstore, hstore']
  · rw [horder, horder']
  · rw [warmDone_entries, hjournal]
  · rw [hfault]
  · rw [hnow, hnow']
    rfl

end Sys2Proof.Machine
end


section
/-! Proofs. A reset is a warm start, a cold start, or ends held (R175, R176, R179). -/

namespace Sys2Proof.Machine

/-- The fields of a dock record that a warm start leaves as its table of R2 gives them. -/
theorem warmStart_records (s : State) (cause : ResetCause) {α : Type} (f : DockRecord → α) (h : ∀ r, f r.slotless = f r) :
    (s.warmStart cause).dock.table.map f = s.dock.table.map fun r => f r.warm := by
  have htable : (s.warmStart cause).dock.table.map DockRecord.slotless = (s.dock.table.map DockRecord.warm).map DockRecord.slotless := by
    have hdone := (slotsOnly_warmDone s cause).table
    rw [warmReady_dock] at hdone
    exact hdone
  have hf : f = f ∘ DockRecord.slotless := funext fun r => (h r).symm
  rw [hf, ← List.map_map, htable, List.map_map, List.map_map]
  rfl

/-- The docks and the claims are those before the host link starts afresh. -/
theorem warmStart_docks (s : State) (cause : ResetCause) (d : DockNo) :
    (s.warmStart cause).dock? d = (s.warmDone cause).dock? d
      ∧ (s.warmStart cause).wantsOpen d = (s.warmDone cause).wantsOpen d := by
  rw [warmStart_eq]
  generalize s.warmDone cause = t
  exact ⟨rfl, rfl⟩

/-- R37, R44: the slots after a warm start. -/
theorem warmStart_slot {s : State} {cause : ResetCause} {d : DockNo} {r r' : DockRecord} (hr : s.dock? d = some r)
    (hr' : (s.warmStart cause).dock? d = some r') :
    ((s.warmStart cause).wantsOpen d = false → r'.commanded = .shut ∧ r'.withheld = false)
      ∧ ((s.warmStart cause).wantsOpen d = true → r.commanded = .opened → r'.commanded = .opened) := by
  obtain ⟨hdock, hwantsOpen⟩ := warmStart_docks s cause d
  rw [hdock] at hr'
  rw [hwantsOpen]
  refine ⟨fun hwants => warmDone_shut s cause d hwants r' hr', fun hwants hopen => ?_⟩
  refine warmDone_open (s := s) (cause := cause) (fun _ q hq => ?_) hwants r' hr'
  have hdock : (s.warmReady cause).dock? d = (s.dock? d).map DockRecord.warm := by
    unfold State.dock?
    rw [warmReady_dock]
    exact List.getElem?_map
  rw [hdock, hr] at hq
  cases hq
  exact hopen

theorem warmStart_wants {s : State} {cause : ResetCause} {d : DockNo} {r r' : DockRecord} (hr : s.dock? d = some r)
    (hr' : (s.warmStart cause).dock? d = some r') :
    (s.warmStart cause).wantsOpen d = (decide ((s.warmStart cause).dock.caps.station = .serving)
      && decide (levelByTable (s.warmStart cause).dock.caps r ≠ .closed)
      && (decide (r.occupancy = .empty) || (s.warmStart cause).bookedAt d)) := by
  have hkept := congrArg (·[d]?) (warmStart_records s cause (fun r => (r.occupancy, r.hostSetting, r.dockHolds, r.bikeHolds))
    fun _ => rfl)
  simp only [List.getElem?_map] at hkept
  change Option.map _ ((s.warmStart cause).dock? d) = Option.map _ (s.dock? d) at hkept
  rw [hr, hr', Option.map_some, Option.map_some] at hkept
  obtain ⟨hoccupancy, hset, hdock, hbike⟩ : r'.occupancy = r.occupancy ∧ r'.hostSetting = r.hostSetting
      ∧ r'.dockHolds = r.dockHolds ∧ r'.bikeHolds = r.bikeHolds := by
    simpa only [Option.some.injEq, Prod.mk.injEq, DockRecord.warm] using hkept
  unfold State.wantsOpen
  rw [hr']
  dsimp only
  rw [level_eq_table]
  unfold levelByTable
  rw [hset, hdock, hbike, hoccupancy]
  simp only [beq_eq_decide, bne, decide_not]

theorem warmStart_caps (s : State) (cause : ResetCause) : (s.warmStart cause).dock.caps =
    { station := s.store.station, power := .battery, hostLost := false, action := s.store.live.silenceAction } := by
  have hcaps : (s.warmDone cause).dock.caps = (s.warmReady cause).dock.caps := (slotsOnly_warmDone s cause).caps
  rw [warmReady_dock] at hcaps
  exact hcaps

theorem warmStart_counter (s : State) (cause : ResetCause) :
    (s.warmStart cause).dock.insertionCounter = s.dock.insertionCounter := by
  have hcounter : (s.warmDone cause).dock.insertionCounter = (s.warmReady cause).dock.insertionCounter :=
    (slotsOnly_warmDone s cause).counter
  rw [warmReady_dock] at hcounter
  exact hcounter

theorem warmStart_faults (s : State) (cause : ResetCause) :
    (s.warmStart cause).fault.table = (s.fault.table.filter fun y => !(lineFault y && y.report == .acked)).map fun y =>
      if lineFault y = true then { y with condition := .resolved } else y := by
  obtain ⟨-, -, -, hfault, -⟩ := warmStart_parts s cause
  have hclosed : (s.warmBlocks cause).closeForRestart.fault = (s.warmBlocks cause).fault :=
    closeForRestart_only _ .fault (by decide)
  rw [hfault, State.warmReady, resolveLines_table, hclosed]
  rfl

/-- R153: the entry that closes the session of a warm start. -/
theorem warmStart_closes {s : State} {cause : ResetCause} {v : VanSession} {o : Order} (hv : s.order.session = some v)
    (ho : s.orderOf v.order = some o) :
    (∃ e, (s.warmStart cause).journal.entries = s.journal.entries ++ [e] ∧ e.kind = .orderClosed ∧ e.seq = s.store.nextSeq
      ∧ e.reference = some (v.order.setWidth 32) ∧ e.outcome = some .restart ∧ e.done = some o.done
      ∧ e.quantity = some o.quantity)
    ∧ (s.warmStart cause).store.nextSeq = (if s.store.nextSeq = 0xFFFFFFFF then 1 else s.store.nextSeq + 1)
    ∧ (s.warmStart cause).order.queue = s.order.queue.filter (fun y => y.id != v.order) := by
  obtain ⟨hstore, horder, hentries, -, -⟩ := warmStart_parts s cause
  have hclosed := closeForRestart_of_some (s := s.warmBlocks cause) hv ho
  rw [hstore, horder, hentries, hclosed]
  exact ⟨⟨_, rfl, rfl, rfl, rfl, rfl, rfl, rfl⟩, rfl, rfl⟩

theorem warmStart_unclosed {s : State} {cause : ResetCause} (hv : s.order.session = none) :
    (s.warmStart cause).journal.entries = s.journal.entries ∧ (s.warmStart cause).store.nextSeq = s.store.nextSeq
      ∧ (s.warmStart cause).order.queue = s.order.queue := by
  obtain ⟨hstore, horder, hentries, -, -⟩ := warmStart_parts s cause
  have hclosed := closeForRestart_of_none (s := s.warmBlocks cause) hv
  rw [hstore, horder, hentries, hclosed]
  exact ⟨rfl, rfl, rfl⟩

/-- Settles O17: the store's check word decides between the two starts, and the level of the line whether the reset ends held. -/
theorem restartIsWarmOrCold : Obligations.RestartIsWarmOrCold := by
  refine ⟨fun s x hx hphase hout hvalid hhigh => ?warm, fun s x hx hphase hout hinvalid hhigh => ?cold,
    fun s x hx hphase hout hx1 hlow => ?held⟩
  case warm =>
    have hexec := exec_resets hx hphase hout hhigh
    have hwarm : State.restart { s with resetLow := false } (if x.1 = .powerUp ∧ s.store.checkAgrees = false then .cold else x.2.2)
        = State.warmStart { s with resetLow := false } x.2.2 := by
      rw [if_neg (by simp [hvalid])]
      exact if_pos ⟨hvalid, resets_cause hx⟩
    rw [hwarm] at hexec
    generalize hu : ({ s with resetLow := false } : State) = u at hexec
    obtain ⟨hrelease, hcard, hsupply, hterm, hsession, hlost, ⟨q, hstore⟩, -, hhost, hwork⟩ := warmStart_facts u x.2.2
    obtain ⟨-, -, -, -, hnow⟩ := warmStart_parts u x.2.2
    have hrecords := warmStart_records u x.2.2 (fun r =>
      ((r.link, r.command, r.checkPending), (r.occupancy, r.bike, r.dockHolds, r.bikeHolds),
        (r.acknowledged, r.baseline, r.hostSetting, r.insertionOrder), (r.returnEntry, r.unrecorded, r.lock, r.battery),
        r.lastTap, r.lastSense)) fun _ => rfl
    have hcaps := warmStart_caps u x.2.2
    have hcounter := warmStart_counter u x.2.2
    have hfaults := warmStart_faults u x.2.2
    have hcloses := @warmStart_closes u x.2.2
    have hunclosed := @warmStart_unclosed u x.2.2
    have hslot := @warmStart_slot u x.2.2
    have hwants := @warmStart_wants u x.2.2
    rw [afterReset_eq] at hhost
    refine ⟨u.warmStart x.2.2, hexec, warmStart_phase _ _, hnow, hwork, ?_⟩
    generalize u.warmStart x.2.2 = t at *
    subst hu
    refine ⟨by rw [hstore], by rw [hstore], by rw [hstore], by rw [hstore], by rw [hstore], by rw [hstore], by rw [hstore],
      by rw [hstore], hsupply, by rw [hcard]; rfl, by rw [hcard]; rfl, by rw [hcard]; rfl, by rw [hcard]; rfl,
      by rw [hrelease]; rfl, by rw [hrelease]; rfl, by rw [hrelease]; rfl, hlost, hfaults, hsession,
      fun v o hv ho => hcloses hv ho, fun hv => hunclosed hv, hcounter, ?records, ?slots, hcaps, hhost, hterm⟩
    case records => exact hrecords
    case slots =>
      intro d r r' wanted hr hr' hwanted
      have hwant := hwants hr hr'
      rw [show t.dock.caps.station = s.store.station from congrArg DockCaps.station hcaps, ← hwanted] at hwant
      obtain ⟨hshut, hopen⟩ := hslot hr hr'
      rw [hwant] at hshut hopen
      exact ⟨hshut, hopen⟩
  case cold =>
    rw [exec_resets hx hphase hout hhigh]
    have hcold : ∀ cause, State.restart { s with resetLow := false } cause = State.coldStart { s with resetLow := false } cause :=
      fun cause => if_neg fun h => absurd (hinvalid.symm.trans h.1) (by decide)
    rw [hcold, coldStart_eq]
    simp only [hinvalid, and_true]
    rfl
  case held =>
    refine ⟨_, exec_resets_held hx hphase hout hx1, ?_⟩
    generalize hcause : (if x.1 = .powerUp ∧ s.store.checkAgrees = false then ResetCause.cold else x.2.2) = cause
    have hwarm : (s.restart cause).store.warm = s.store.checkAgrees ∧ (s.restart cause).store.resetCause = cause := by
      by_cases hc : cause = .cold
      case neg => exact (restart_store s hc).symm
      case pos =>
        have hinvalid : s.store.checkAgrees = false := by
          by_contra hvalid
          rw [if_neg fun h => hvalid h.2] at hcause
          exact resets_cause hx (hcause.trans hc)
        have hcold : s.restart cause = s.coldStart cause := if_neg fun h => h.2 hc
        rw [hcold, hinvalid]
        exact ⟨rfl, rfl⟩
    rw [restartUnlessHeld_low hlow]
    refine ⟨rfl, ?_, rfl, rfl, hwarm.1, hwarm.2⟩
    exact (restart_resetLow s cause).trans hlow

end Sys2Proof.Machine
end


section
/-! Proofs. The choice of a poll, and a poll that is missed (R3, R4, R7, R43). -/

namespace Sys2Proof.Machine

/-! ### The order of urgent polls (R4) -/

theorem urgentOrder_pairwise (n : Nat) (pos : Option DockNo) :
    (urgentOrder n pos).Pairwise fun a b => urgentKey pos n a < urgentKey pos n b := by
  cases pos with
  | none => exact List.pairwise_lt_range
  | some p =>
    have hdrop : ∀ e ∈ (List.range n).drop (p + 1), p < e ∧ e < n := fun e he => by
      obtain ⟨i, hi, rfl⟩ := List.mem_drop_iff_getElem.mp he
      have hlt : i + (p + 1) < n := by simpa using hi
      rw [List.getElem_range]
      have hp : (p : Nat) + 1 + i < n := Nat.add_comm i (p + 1) ▸ hlt
      exact ⟨Nat.lt_of_lt_of_le (Nat.lt_succ_self p) (Nat.le_add_right _ _), hp⟩
    have htake : ∀ e ∈ (List.range n).take (p + 1), e ≤ p := fun e he => by
      obtain ⟨i, hi, rfl⟩ := List.mem_take_iff_getElem.mp he
      rw [List.getElem_range]
      omega
    have hafter : ∀ e, p < e → urgentKey (some p) n e = e := fun e he => if_pos he
    have hbefore : ∀ e, e ≤ p → urgentKey (some p) n e = e + n := fun e he => if_neg (Nat.not_lt.mpr he)
    rw [urgentOrder, List.pairwise_append]
    refine ⟨?_, ?_, fun a ha b hb => ?_⟩
    · refine (List.pairwise_lt_range.drop).imp_of_mem fun {a b} ha hb hlt => ?_
      rwa [hafter a (hdrop a ha).1, hafter b (hdrop b hb).1]
    · refine (List.pairwise_lt_range.take).imp_of_mem fun {a b} ha hb hlt => ?_
      rw [hbefore a (htake a ha), hbefore b (htake b hb)]
      omega
    · rw [hafter a (hdrop a ha).1, hbefore b (htake b hb)]
      have := (hdrop a ha).2
      omega

theorem mem_urgentOrder {n d : Nat} (pos : Option DockNo) : d ∈ urgentOrder n pos ↔ d < n := by
  cases pos with
  | none => exact List.mem_range
  | some p =>
    rw [urgentOrder, List.mem_append, or_comm, ← List.mem_append, List.take_append_drop, List.mem_range]

/-- The first that is found comes before every other that would be found. -/
theorem find?_first {α : Type} {l : List α} {p : α → Bool} {f : α → Nat} {a b : α} (h : l.Pairwise fun x y => f x < f y)
    (ha : l.find? p = some a) (hb : b ∈ l) (hpb : p b = true) : a = b ∨ f a < f b := by
  obtain ⟨-, before, after, rfl, hbefore⟩ := List.find?_eq_some_iff_append.mp ha
  rcases List.mem_append.mp hb with hmem | hmem
  · exact absurd hpb (by simpa using hbefore b hmem)
  · rcases List.mem_cons.mp hmem with rfl | hlater
    · exact Or.inl rfl
    · exact Or.inr ((List.pairwise_cons.mp (List.pairwise_append.mp h).2.1).1 b hlater)

theorem urgentDock_of_first {u : DockUnit} {d : DockNo} {r : DockRecord} (hr : u.table[d]? = some r) (hurgent : r.urgent = true)
    (hfirst : ∀ e x, u.table[e]? = some x → x.urgent = true →
      urgentKey u.urgentPos u.table.length d ≤ urgentKey u.urgentPos u.table.length e) : u.urgentDock = some d := by
  obtain ⟨hd, -⟩ := List.getElem?_eq_some_iff.mp hr
  have hmem : d ∈ urgentOrder u.table.length u.urgentPos := (mem_urgentOrder _).mpr hd
  have hfound : (u.table[d]?).any DockRecord.urgent = true := by rw [hr]; exact hurgent
  unfold DockUnit.urgentDock
  cases he : (urgentOrder u.table.length u.urgentPos).find? fun d => u.table[d]?.any DockRecord.urgent with
  | none => exact absurd hfound (List.find?_eq_none.mp he d hmem)
  | some e =>
    have hany : (u.table[e]?).any DockRecord.urgent = true :=
      List.find?_some (p := fun d => (u.table[d]?).any DockRecord.urgent) he
    obtain ⟨x, hx, hxurgent⟩ := (Option.any_eq_true _ _).mp hany
    rcases find?_first (urgentOrder_pairwise _ _) he hmem hfound with rfl | hlt
    · rfl
    · exact absurd hlt (Nat.not_lt.mpr (hfirst e x hx hxurgent))

theorem urgentDock_none {u : DockUnit} (h : ∀ x ∈ u.table, x.urgent = false) : u.urgentDock = none := by
  refine List.find?_eq_none.mpr fun e _ hany => ?_
  obtain ⟨x, hx, hurgent⟩ := (Option.any_eq_true _ _).mp hany
  obtain ⟨hlt, rfl⟩ := List.getElem?_eq_some_iff.mp hx
  exact absurd hurgent (by simp [h _ (List.getElem_mem hlt)])

theorem exec_dockPoll {s : State} (h : s.ready) (hpoll : s.dock.poll = none) :
    exec .dockPoll s = .next ((s.taking .dockPoll).onDocks fun u =>
      { u.choose.2 with poll := u.table[u.choose.1]?.map fun r => r.poll u.choose.1 }) := by
  simp only [exec, execDockPoll]
  refine ready_next h _ ?_ rfl
  rw [if_neg]
  rw [show (s.taking .dockPoll).dock.poll = none from hpoll]
  exact Bool.false_ne_true

/-- Settles O19: the urgent order is that of the keys, so the first urgent dock in it has the least key. -/
theorem pollChoosesItsDock : Obligations.PollChoosesItsDock := by
  intro s d r hready hpoll hr
  refine ⟨fun hrun hurgent hfirst => ?urgent, fun hidle hd => ?rotation⟩
  case urgent =>
    have hchoose : s.dock.choose = (d, { s.dock with urgentPos := some d, urgentRun := s.dock.urgentRun + 1 }) := by
      unfold DockUnit.choose
      rw [if_pos hrun, urgentDock_of_first hr hurgent hfirst]
    rw [exec_dockPoll hready hpoll]
    simp only [State.onDocks, State.taking, hchoose, hr, Option.map_some]
    rfl
  case rotation =>
    have hchoose : s.dock.choose = (d, { s.dock with
        rotation := if d + 1 < s.dockCount then d + 1 else 0, urgentRun := 0 }) := by
      have hnone : (if s.dock.urgentRun < 2 then s.dock.urgentDock else none) = none := by
        rcases hidle with hrun | hcalm
        · rw [if_neg (Nat.not_lt.mpr hrun)]
        · rw [urgentDock_none hcalm, ite_self]
      unfold DockUnit.choose
      rw [hnone, hd]
      rfl
    rw [exec_dockPoll hready hpoll]
    simp only [State.onDocks, State.taking, hchoose, hr, Option.map_some]
    rfl

/-! ### The end of a poll (R43, R142) -/

theorem lampOf_eq_table (s : State) (d : DockNo) (r : DockRecord) :
    s.lampOf d r = lampByTable s.dock.caps (s.claimOn d) r := by
  have hreleased : (s.claimOn d).any (fun c => c.state == .released) = true ↔ ∃ c, s.claimOn d = some c ∧ c.state = .released := by
    simp [Option.any_eq_true]
  have hreserved : (s.claimOn d).any (fun c => c.kind == .van && c.state == .reserved) = true ↔
      ∃ c, s.claimOn d = some c ∧ c.kind = .van ∧ c.state = .reserved := by
    simp [Option.any_eq_true]
  unfold State.lampOf lampByTable
  simp only [hreleased, hreserved, level_eq_table, Option.isNone_iff_eq_none, Option.isSome_iff_ne_none]

/-- The lamp does not enter the table it is read from. -/
theorem lampByTable_lamp (caps : DockCaps) (c : Option Claim) (r : DockRecord) (l : Lamp) :
    lampByTable caps c { r with lamp := l } = lampByTable caps c r := rfl

theorem endPoll_at {s : State} {d : DockNo} {before r : DockRecord} (h : s.dock? d = some r) :
    (s.endPoll d before).dock? d = some { r with lamp := lampByTable s.dock.caps (s.claimOn d) r } := by
  have hlamp : (s.relamp d).dock? d = some { r with lamp := lampByTable s.dock.caps (s.claimOn d) r } := by
    rw [State.relamp, dock?_onDock_self, h, Option.map_some, lampOf_eq_table]
  unfold State.endPoll
  dsimp only
  split
  · exact hlamp
  · rw [postPass_eq]
    exact hlamp

theorem endPoll_work (s : State) (d : DockNo) (before : DockRecord) :
    ∃ rest, (s.endPoll d before).inFlight = s.inFlight ++ rest ∧ ∀ i ∈ rest, i = .placementPass := by
  unfold State.endPoll
  dsimp only
  split
  · exact ⟨[], (List.append_nil _).symm, fun i hi => absurd hi List.not_mem_nil⟩
  · rw [postPass_eq]
    refine ⟨_, rfl, fun i hi => ?_⟩
    unfold passDue at hi
    split at hi
    · exact List.mem_singleton.mp hi
    · exact absurd hi List.not_mem_nil

theorem endPoll_others (s : State) (d : DockNo) (before : DockRecord) : OtherDocksSame d s (s.endPoll d before) := by
  obtain ⟨_, acts⟩ := acts_endPoll s d before
  exact acts.oth

/-! ### A missed poll (R3, R7) -/

/-- The state of a missed poll before the poll ends. -/
def State.missedPoll (s : State) (d : DockNo) (r : DockRecord) : State :=
  (s.onDock d fun x => { x with link := (r.link.missed r.misses).1, misses := (r.link.missed r.misses).2 }).postIf
    (r.link.lossRaised r.misses) (.faultRaise (.dock d) .linkLoss (some d) .nothing)

theorem missPoll_eq (s : State) (d : DockNo) (r : DockRecord) : s.missPoll d r = (s.missedPoll d r).endPoll d r := rfl

theorem postIf_dock (s : State) (b : Bool) (i : Instr) : (s.postIf b i).dock = s.dock := by
  unfold State.postIf
  split <;> rfl

theorem postIf_release (s : State) (b : Bool) (i : Instr) : (s.postIf b i).release = s.release := by
  unfold State.postIf
  split <;> rfl

theorem lossRaised_iff (l : LinkState) (n : Nat) : l.lossRaised n = true ↔ (l = .silent ∨ l = .stale) ∧ 2 ≤ n := by
  cases l <;> simp [LinkState.lossRaised]

theorem exec_missed {s : State} {p : Poll} {r : DockRecord} {b : List Byte} (h : s.phase = .running) (hp : s.dock.poll = some p)
    (hr : s.dock? p.dock = some r) (hb : ∀ q, readReport b = some q → q.dock ≠ p.dock) :
    ∀ c ∈ [Instr.dockPollMissed, .dockReport b],
      exec c s = .next (((s.taking c).missPoll p.dock r).onHost HostLink.beginSending) := by
  have hpolled : ∀ c, (s.taking c).polled = some (p, r) := fun c => by
    have hat : (s.taking c).dock? p.dock = some r := hr
    unfold State.polled
    rw [show (s.taking c).dock.poll = some p from hp]
    simp only [hat, Option.map_some]
  have hanswer : ∀ u : State, u.takeAnswer p r (readReport b) = u.missPoll p.dock r := fun u => by
    unfold State.takeAnswer
    cases hq : readReport b with
    | none => rfl
    | some q => exact if_neg (hb q hq)
  intro c hc
  simp only [List.mem_cons, List.not_mem_nil, or_false] at hc
  rcases hc with rfl | rfl
  · simp only [exec, execDockPollMissed]
    rw [act_running h, hpolled]
  · simp only [exec, execDockReport]
    rw [act_running h, hpolled]
    dsimp only
    rw [hanswer]

/-- Settles O23: the record takes its link and its miss count, and the end of the poll its lamp. -/
theorem missedPollIsCounted : Obligations.MissedPollIsCounted := by
  intro s p r b hrun hp hr hb c hc
  have hexec := exec_missed hrun hp hr hb c hc
  have hdock : ((s.taking c).missedPoll p.dock r).dock? p.dock =
      some { r with link := (r.link.missed r.misses).1, misses := (r.link.missed r.misses).2 } := by
    have hat : (s.taking c).dock? p.dock = some r := hr
    unfold State.missedPoll State.dock?
    rw [postIf_dock]
    change ((s.taking c).onDock p.dock _).dock? p.dock = _
    rw [dock?_onDock_self, hat]
    rfl
  have hcaps : ((s.taking c).missedPoll p.dock r).dock.caps = s.dock.caps := by
    unfold State.missedPoll
    rw [postIf_dock]
    rfl
  have hclaim : ((s.taking c).missedPoll p.dock r).claimOn p.dock = s.claimOn p.dock := by
    unfold State.missedPoll State.claimOn
    rw [postIf_release]
    rfl
  have hothers : OtherDocksSame p.dock s (((s.taking c).missPoll p.dock r).onHost HostLink.beginSending) := by
    obtain ⟨f, hmissed⟩ : ∃ f, Acts p.dock (s.taking c) ((s.taking c).missPoll p.dock r) f :=
      ⟨_, ((acts_onDock _ _ _).trans (acts_postIf _ _ _ _)).trans (acts_endPoll _ _ _).choose_spec⟩
    exact hmissed.oth
  obtain ⟨rest, hrest, hpass⟩ := endPoll_work ((s.taking c).missedPoll p.dock r) p.dock r
  refine ⟨_, r.link.missed r.misses, rest, hexec, poll_endPoll _ _ _, ?after, ?record, ?work, hpass, ?others, ?only⟩
  case after =>
    unfold LinkState.missed
    cases r.link with
    | joining origin => cases origin <;> rfl
    | absent | lost | stale | silent | online => rfl
  case record =>
    have hlamp := endPoll_at (before := r) hdock
    rw [hcaps, hclaim] at hlamp
    exact hlamp
  case work =>
    rw [HandedOn, show (((s.taking c).missPoll p.dock r).onHost HostLink.beginSending).inFlight =
      ((s.taking c).missPoll p.dock r).inFlight from rfl, missPoll_eq, hrest, State.missedPoll, postIf_inFlight,
      List.append_assoc]
    simp only [lossRaised_iff]
    rfl
  case others => exact hothers
  case only =>
    refine (exec_only _ _ _ hexec).mono ?_
    intro p hp
    rcases (by simpa using hc : c = .dockPollMissed ∨ c = .dockReport b) with rfl | rfl
    · exact List.Sublist.subset (by simp [parts]) hp
    · exact List.Sublist.subset (by simp [parts]) hp

end Sys2Proof.Machine
end


section
/-! Proofs. What each step of an answered report (R5) makes of the record of its dock, exactly, and that all it hands on stays
handed on to the end of the report. -/

namespace Sys2Proof.Machine

/-! ### From one step of a report to the next -/

/-- What the Dock Controller keeps beside its records, as far as a report reads it. -/
def State.desk (s : State) : DockCaps × Word := (s.dock.caps, s.dock.insertionCounter)

/-- From `s` to `t` a report has turned the record of dock `d` into `r`, and taken `n` insertion orders. -/
structure Turns (d : DockNo) (s t : State) (r : DockRecord) (n : Word) : Prop where
  record : t.dock? d = some r
  adds : Adds s t
  others : OtherDocksSame d s t
  release : t.release = s.release
  caps : t.dock.caps = s.dock.caps
  counter : t.dock.insertionCounter = s.dock.insertionCounter + n
  only : Only [.dock, .inFlight] s t

theorem Turns.trans {d : DockNo} {s t u : State} {r r' : DockRecord} {n m : Word} (h : Turns d s t r n) (k : Turns d t u r' m) :
    Turns d s u r' (n + m) where
  record := k.record
  adds := h.adds.trans k.adds
  others := ⟨k.others.1.trans h.others.1, fun e he => (k.others.2 e he).trans (h.others.2 e he)⟩
  release := k.release.trans h.release
  caps := k.caps.trans h.caps
  counter := by rw [k.counter, h.counter, add_assoc]
  only := h.only.trans k.only

theorem Turns.then {d : DockNo} {s t u : State} {r r' : DockRecord} {n : Word} (h : Turns d s t r n) (k : Turns d t u r' 0) :
    Turns d s u r' n := by
  have hboth := h.trans k
  rwa [add_zero] at hboth

theorem turns_of_acts {d : DockNo} {s t : State} {r : DockRecord} {g : DockRecord → DockRecord} (hr : s.dock? d = some r)
    (h : Acts d s t g) (honly : Only [.dock, .inFlight] s t) (hdesk : t.desk = s.desk) : Turns d s t (g r) 0 where
  record := by rw [h.at_, hr]; rfl
  adds := by
    obtain ⟨l, hl⟩ := h.grow
    exact ⟨l, hl.symm⟩
  others := h.oth
  release := h.rel
  caps := congrArg Prod.fst hdesk
  counter := (congrArg Prod.snd hdesk).trans (add_zero _).symm
  only := honly

theorem Turns.claimOn {d : DockNo} {s t : State} {r : DockRecord} {n : Word} (h : Turns d s t r n) (e : DockNo) :
    t.claimOn e = s.claimOn e := by
  unfold State.claimOn
  rw [h.release]

theorem Turns.store {d : DockNo} {s t : State} {r : DockRecord} {n : Word} (h : Turns d s t r n) : t.store = s.store :=
  h.only .store (by decide)

theorem Turns.now {d : DockNo} {s t : State} {r : DockRecord} {n : Word} (h : Turns d s t r n) : t.now = s.now :=
  h.only .now (by decide)

theorem Turns.settings {d : DockNo} {s t : State} {r : DockRecord} {n : Word} (h : Turns d s t r n) : t.settings = s.settings :=
  congrArg Store.live h.store

/-! ### The caps and the counter -/

@[simp] theorem desk_onDock (s : State) (d : DockNo) (f : DockRecord → DockRecord) : (s.onDock d f).desk = s.desk := rfl
@[simp] theorem desk_post (s : State) (i : Instr) : (s.post i).desk = s.desk := rfl
@[simp] theorem desk_raise (s : State) (x : FaultSubject) (k : FaultKind) (d : Option DockNo) (c : Carried) :
    (s.raise x k d c).desk = s.desk := rfl

@[simp] theorem desk_postIf (s : State) (b : Bool) (i : Instr) : (s.postIf b i).desk = s.desk := by
  rw [State.desk, postIf_dock, State.desk]

@[simp] theorem desk_changeSlot (s : State) (d : DockNo) (f : DockRecord → DockRecord) : (s.changeSlot d f).desk = s.desk := by
  unfold State.changeSlot
  split
  · rfl
  · dsimp only
    split
    · rfl
    · rw [postPass_eq]
      rfl

@[simp] theorem desk_takeSlot (s : State) (d : DockNo) : (s.takeSlot d).desk = s.desk := by
  have h := slotsOnly_takeSlot s d
  rw [State.desk, h.caps, h.counter, State.desk]

@[simp] theorem desk_stepLock (s : State) (d : DockNo) (l : LockState) : (s.stepLock d l).desk = s.desk := by
  unfold State.stepLock
  split
  · rfl
  · exact desk_postIf _ _ _

@[simp] theorem desk_settleEntry (s : State) (d : DockNo) (b : Option BikeId) : (s.settleEntry d b).desk = s.desk := by
  unfold State.settleEntry
  split <;> rfl

@[simp] theorem desk_noteChatter (s : State) (d : DockNo) : (s.noteChatter d).desk = s.desk := by
  unfold State.noteChatter
  dsimp only
  split <;> rfl

@[simp] theorem desk_testSensor (s : State) (d : DockNo) : (s.testSensor d).desk = s.desk := by
  unfold State.testSensor
  split <;> rfl

@[simp] theorem desk_openReportWindow (s : State) (d : DockNo) : (s.openReportWindow d).desk = s.desk := by
  unfold State.openReportWindow
  split <;> rfl

@[simp] theorem desk_tellRemoval (s : State) (d : DockNo) (b : Option BikeId) : (s.tellRemoval d b).desk = s.desk := by
  unfold State.tellRemoval
  split
  · rfl
  · dsimp only
    split <;> rfl

@[simp] theorem desk_removal (s : State) (d : DockNo) (r : DockRecord) : (s.removal d r).desk = s.desk := by
  unfold State.removal
  simp

@[simp] theorem desk_stepTap (s : State) (d : DockNo) (tap : Option CardId) : (s.stepTap d tap).desk = s.desk := by
  unfold State.stepTap
  split
  · rfl
  · dsimp only
    split
    · rfl
    · split <;> rfl

@[simp] theorem desk_stepPress (s : State) (d : DockNo) (n : Nat) : (s.stepPress d n).desk = s.desk := by
  unfold State.stepPress
  split
  · rfl
  · split
    · rfl
    · split <;> rfl

@[simp] theorem desk_stepBattery (s : State) (d : DockNo) (n : Option Nat) : (s.stepBattery d n).desk = s.desk := by
  unfold State.stepBattery
  dsimp only
  split
  · split
    · rfl
    · split
      · split <;> rfl
      · split <;> rfl
  · rfl

@[simp] theorem desk_stepJoin (s : State) (d : DockNo) (b : Bool) : (s.stepJoin d b).desk = s.desk := by
  unfold State.stepJoin
  split <;> rfl

@[simp] theorem desk_endPoll (s : State) (d : DockNo) (r : DockRecord) : (s.endPoll d r).desk = s.desk := by
  unfold State.endPoll
  dsimp only
  split
  · rfl
  · rw [postPass_eq]
    rfl

@[simp] theorem desk_stepTag (s : State) (d : DockNo) (tag : Option Bike) : (s.stepTag d tag).desk = s.desk := by
  unfold State.stepTag
  split
  · rfl
  · split
    · cases tag with
      | none =>
        dsimp only
        unfold State.missTag
        split
        · rfl
        · rw [desk_settleEntry]
          rfl
      | some b =>
        dsimp only
        unfold State.takeTag
        dsimp only
        split
        · rw [desk_settleEntry]
          rfl
        · rw [desk_post, desk_post, desk_settleEntry]
          rfl
    · rfl

/-! ### Steps 1 to 3 -/

/-- The state after the first three steps of a report. -/
def State.heardBy (s : State) (p : Poll) (q : DockReport) : State :=
  ((s.onDock p.dock fun r => r.heard p q.emptyRef).stepLock p.dock q.lockSeen).stepSlot p.dock q.slotSeen

theorem turns_heardBy {s : State} {p : Poll} {r : DockRecord} (q : DockReport) (hr : s.dock? p.dock = some r) :
    Turns p.dock s (s.heardBy p q) (afterHeard q r p) 0 :=
  turns_of_acts hr (((acts_onDock s p.dock fun r => r.heard p q.emptyRef).trans (acts_stepLock _ p.dock q.lockSeen)).trans
    (acts_stepSlot _ p.dock q.slotSeen)) (by simp) (by simp [State.stepSlot])

/-! ### Steps 6 to 9 -/

/-- The record once the tap of a report is taken (R25). -/
def DockRecord.tapped (r : DockRecord) (s : State) (tap : Option CardId) : DockRecord :=
  { r with
    lastTap := tapAfter s tap r.lastTap
    readerResult := if tap.isSome = true ∧ (r.link ≠ .online ∨ r.checkPending = true) then some (.deny .busy) else r.readerResult
    checkPending := r.checkPending || (tap.isSome && decide (r.link = .online)) }

theorem turns_stepTap {s : State} {d : DockNo} {r : DockRecord} (tap : Option CardId) (hr : s.dock? d = some r) :
    Turns d s (s.stepTap d tap) (r.tapped s tap) 0 := by
  obtain ⟨c, x, hacts⟩ := acts_tap s d tap
  have hturns := turns_of_acts hr hacts (by simp) (desk_stepTap s d tap)
  have hrecord : (s.stepTap d tap).dock? d = some (r.tapped s tap) := by
    unfold State.stepTap DockRecord.tapped
    cases tap with
    | none => simpa [tapAfter] using hr
    | some card =>
      simp only [hr]
      split
      case isTrue h =>
        obtain ⟨hlink, hfree⟩ := h
        have hcheck : r.checkPending = false := by simpa using hfree
        change ((s.onDock d _).onDock d _).dock? d = _
        simp [hr, hlink, hcheck, tapAfter]
      case isFalse h =>
        have hbusy : r.link ≠ .online ∨ r.checkPending = true := by
          by_cases hlink : r.link = .online
          · exact Or.inr (by simpa [hlink] using h)
          · exact Or.inl hlink
        have hpending : (r.checkPending || decide (r.link = .online)) = r.checkPending := by
          cases hcheck : r.checkPending
          · simp [hbusy.resolve_right (by simp [hcheck])]
          · rfl
        change ((s.onDock d _).onDock d _).dock? d = _
        simp [hr, hbusy, hpending, tapAfter]
  exact { hturns with record := hrecord }

/-- A tap at an ONLINE dock without a pending check goes to the Card Unit (R25). -/
theorem stepTap_check {s : State} {d : DockNo} {r : DockRecord} (card : CardId) (hr : s.dock? d = some r) (hlink : r.link = .online)
    (hfree : r.checkPending = false) : .cardCheck card (.reader d) ∈ (s.stepTap d (some card)).inFlight := by
  unfold State.stepTap
  simp only [hr]
  rw [if_pos ⟨hlink, by simp [hfree]⟩]
  exact List.mem_append_right _ (List.mem_singleton.mpr rfl)

theorem turns_stepPress {s : State} {d : DockNo} {r : DockRecord} (n : Nat) (hr : s.dock? d = some r) :
    Turns d s (s.stepPress d n) r 0 := turns_of_acts hr (acts_press s d n) (by simp) (desk_stepPress s d n)

theorem stepPress_report {s : State} {d : DockNo} {r : DockRecord} {k : Bike} {w : Elapsed} {n : Nat} (hr : s.dock? d = some r)
    (hbike : r.bike = some k) (hwindow : r.reportWindow = some w) (hn : 0 < n) :
    .faultRaise (.bike k.id) .riderReport (some d) .nothing ∈ (s.stepPress d n).inFlight := by
  unfold State.stepPress
  simp only [hr, hbike]
  rw [if_pos ⟨hn, by rw [hwindow]; rfl⟩]
  exact List.mem_append_right _ (List.mem_singleton.mpr rfl)

theorem turns_stepBattery {s : State} {d : DockNo} {r : DockRecord} (n : Option Nat) (hr : s.dock? d = some r) :
    Turns d s (s.stepBattery d n) { r with battery := n } 0 :=
  turns_of_acts hr (acts_battery s d n) (by simp) (desk_stepBattery s d n)

theorem stepBattery_low {s : State} {d : DockNo} {r : DockRecord} {k : Bike} {n : Nat} (hr : s.dock? d = some r)
    (hbike : r.bike = some k) (hlow : n < s.store.live.batteryLow) (hfree : r.bikeHolds.batteryLow = false) :
    .faultRaise (.bike k.id) .batteryLow (some d) .nothing ∈ (s.stepBattery d (some n)).inFlight := by
  unfold State.stepBattery
  simp only [hr, hbike]
  rw [if_pos (show n < s.settings.batteryLow from hlow), if_neg (by simp [hfree])]
  exact List.mem_append_right _ (List.mem_singleton.mpr rfl)

theorem stepBattery_good {s : State} {d : DockNo} {r : DockRecord} {k : Bike} {n : Nat} (hr : s.dock? d = some r)
    (hbike : r.bike = some k) (hgood : s.store.live.batteryLow + 10 ≤ n) (hheld : r.bikeHolds.batteryLow = true) :
    .faultResolution (.bike k.id) .batteryLow (some d) ∈ (s.stepBattery d (some n)).inFlight := by
  have hnot : ¬ n < s.settings.batteryLow := Nat.not_lt.mpr (Nat.le_of_add_right_le hgood)
  unfold State.stepBattery
  simp only [hr, hbike]
  rw [if_neg hnot, if_pos ⟨hgood, hheld⟩]
  exact List.mem_append_right _ (List.mem_singleton.mpr rfl)

theorem turns_stepJoin {s : State} {d : DockNo} {r : DockRecord} (b : Bool) (hr : s.dock? d = some r) :
    Turns d s (s.stepJoin d b) r 0 := turns_of_acts hr (acts_join s d b) (by simp) (desk_stepJoin s d b)

theorem stepJoin_completes {s : State} {d : DockNo} {r : DockRecord} (hr : s.dock? d = some r) :
    .faultResolution (.dock d) .linkLoss none ∈ (s.stepJoin d true).inFlight
      ∧ .orphanReconcile d r.occupancy r.lock ∈ (s.stepJoin d true).inFlight := by
  unfold State.stepJoin
  simp only [hr]
  exact ⟨List.mem_append_left _ (List.mem_append_right _ (List.mem_singleton.mpr rfl)),
    List.mem_append_right _ (List.mem_singleton.mpr rfl)⟩

theorem turns_endPoll {s : State} {d : DockNo} {r : DockRecord} (before : DockRecord) (hr : s.dock? d = some r) :
    Turns d s (s.endPoll d before) { r with lamp := lampByTable s.dock.caps (s.claimOn d) r } 0 := by
  obtain ⟨f, hacts⟩ := acts_endPoll s d before
  exact { turns_of_acts hr hacts (by simp) (desk_endPoll s d before) with record := endPoll_at hr }

/-- The last four steps of a report and its end. -/
def State.tailOf (s : State) (d : DockNo) (q : DockReport) (before : DockRecord) : State :=
  ((((s.stepTap d q.tap).stepPress d q.presses).stepBattery d q.battery).stepJoin d before.link.completes).endPoll d before

/-- The record as the last four steps leave it, but for its lamp. -/
def DockRecord.tailed (r : DockRecord) (s : State) (q : DockReport) : DockRecord := { r.tapped s q.tap with battery := q.battery }

section tail
variable {s : State} {d : DockNo} {r : DockRecord} (q : DockReport) (before : DockRecord) (hr : s.dock? d = some r)
include hr

/-- The states between the last steps, each with its record. -/
theorem turns_tail_steps :
    Turns d s (s.stepTap d q.tap) (r.tapped s q.tap) 0
    ∧ Turns d (s.stepTap d q.tap) ((s.stepTap d q.tap).stepPress d q.presses) (r.tapped s q.tap) 0
    ∧ Turns d ((s.stepTap d q.tap).stepPress d q.presses) (((s.stepTap d q.tap).stepPress d q.presses).stepBattery d q.battery)
        (r.tailed s q) 0
    ∧ Turns d (((s.stepTap d q.tap).stepPress d q.presses).stepBattery d q.battery)
        ((((s.stepTap d q.tap).stepPress d q.presses).stepBattery d q.battery).stepJoin d before.link.completes) (r.tailed s q) 0
    ∧ Turns d ((((s.stepTap d q.tap).stepPress d q.presses).stepBattery d q.battery).stepJoin d before.link.completes)
        (s.tailOf d q before) { r.tailed s q with lamp := lampByTable s.dock.caps (s.claimOn d) (r.tailed s q) } 0 := by
  have htap := turns_stepTap q.tap hr
  have hpress := turns_stepPress q.presses htap.record
  have hbattery := turns_stepBattery q.battery hpress.record
  have hjoin := turns_stepJoin before.link.completes hbattery.record
  have hend := turns_endPoll before hjoin.record
  have hall := ((htap.then hpress).then hbattery).then hjoin
  rw [hall.caps, hall.claimOn] at hend
  exact ⟨htap, hpress, hbattery, hjoin, hend⟩

theorem turns_tailOf : Turns d s (s.tailOf d q before)
    { r.tailed s q with lamp := lampByTable s.dock.caps (s.claimOn d) (r.tailed s q) } 0 := by
  obtain ⟨htap, hpress, hbattery, hjoin, hend⟩ := turns_tail_steps q before hr
  exact (((htap.then hpress).then hbattery).then hjoin).then hend

theorem tailOf_check {card : CardId} (htap : q.tap = some card) (hlink : r.link = .online) (hfree : r.checkPending = false) :
    .cardCheck card (.reader d) ∈ (s.tailOf d q before).inFlight := by
  obtain ⟨-, hpress, hbattery, hjoin, hend⟩ := turns_tail_steps q before hr
  refine (((hpress.then hbattery).then hjoin).then hend).adds.mem ?_
  rw [htap]
  exact stepTap_check card hr hlink hfree

theorem tailOf_report {k : Bike} {w : Elapsed} (hbike : r.bike = some k) (hwindow : r.reportWindow = some w)
    (hn : 0 < q.presses) : .faultRaise (.bike k.id) .riderReport (some d) .nothing ∈ (s.tailOf d q before).inFlight := by
  obtain ⟨htap, -, hbattery, hjoin, hend⟩ := turns_tail_steps q before hr
  exact ((hbattery.then hjoin).then hend).adds.mem (stepPress_report htap.record hbike hwindow hn)

theorem tailOf_low {k : Bike} {n : Nat} (hbattery : q.battery = some n) (hbike : r.bike = some k)
    (hlow : n < s.store.live.batteryLow) (hfree : r.bikeHolds.batteryLow = false) :
    .faultRaise (.bike k.id) .batteryLow (some d) .nothing ∈ (s.tailOf d q before).inFlight := by
  obtain ⟨htap, hpress, -, hjoin, hend⟩ := turns_tail_steps q before hr
  refine (hjoin.then hend).adds.mem ?_
  rw [hbattery]
  refine stepBattery_low hpress.record hbike ?_ hfree
  rwa [(htap.then hpress).store]

theorem tailOf_good {k : Bike} {n : Nat} (hbattery : q.battery = some n) (hbike : r.bike = some k)
    (hgood : s.store.live.batteryLow + 10 ≤ n) (hheld : r.bikeHolds.batteryLow = true) :
    .faultResolution (.bike k.id) .batteryLow (some d) ∈ (s.tailOf d q before).inFlight := by
  obtain ⟨htap, hpress, -, hjoin, hend⟩ := turns_tail_steps q before hr
  refine (hjoin.then hend).adds.mem ?_
  rw [hbattery]
  refine stepBattery_good hpress.record hbike ?_ hheld
  rwa [(htap.then hpress).store]

theorem tailOf_join (hjoins : before.link.completes = true) :
    .faultResolution (.dock d) .linkLoss none ∈ (s.tailOf d q before).inFlight
      ∧ .orphanReconcile d r.occupancy r.lock ∈ (s.tailOf d q before).inFlight := by
  obtain ⟨-, -, hbattery, -, hend⟩ := turns_tail_steps q before hr
  rw [hjoins] at hend
  obtain ⟨hloss, horphan⟩ := stepJoin_completes hbattery.record
  exact ⟨hend.adds.mem hloss, hend.adds.mem horphan⟩

end tail

end Sys2Proof.Machine
end


section
/-! Proofs. The tag step and the presence step of an answered report (R13 to R24), and with them the report as a whole. -/

namespace Sys2Proof.Machine

/-! ### Step 4: the tag (R21, R22) -/

theorem heldElsewhere_iff {s : State} {d : DockNo} {b : BikeId} : s.heldElsewhere d b = true ↔
    ∃ e x y, e ≠ d ∧ s.dock? e = some x ∧ x.bike = some y ∧ y.id = b := by
  unfold State.heldElsewhere State.dock?
  rw [List.any_eq_true]
  constructor
  case mp =>
    rintro ⟨⟨x, e⟩, hmem, hheld⟩
    obtain ⟨hother, hbike⟩ := Bool.and_eq_true_iff.mp hheld
    obtain ⟨y, hy, hid⟩ := (Option.any_eq_true _ _).mp hbike
    exact ⟨e, x, y, by simpa using hother, List.mem_zipIdx_iff_getElem?.mp hmem, hy, by simpa using hid⟩
  case mpr =>
    rintro ⟨e, x, y, hother, hx, hy, hid⟩
    refine ⟨(x, e), List.mem_zipIdx_iff_getElem?.mpr hx, ?_⟩
    simp [hother, hy, hid]

theorem heldElsewhere_of_others {d : DockNo} {s t : State} (h : OtherDocksSame d s t) (b : BikeId) :
    t.heldElsewhere d b = s.heldElsewhere d b := by
  refine Bool.eq_iff_iff.mpr ?_
  rw [heldElsewhere_iff, heldElsewhere_iff]
  constructor
  case mp =>
    rintro ⟨e, x, y, hother, hx, hy⟩
    exact ⟨e, x, y, hother, (h.2 e hother).symm.trans hx, hy⟩
  case mpr =>
    rintro ⟨e, x, y, hother, hx, hy⟩
    exact ⟨e, x, y, hother, (h.2 e hother).trans hx, hy⟩

theorem turns_settleEntry {s : State} {d : DockNo} {r : DockRecord} (b : Option BikeId) (hr : s.dock? d = some r) :
    Turns d s (s.settleEntry d b) { r with returnEntry := none } 0 :=
  turns_of_acts hr (acts_settle s d b) (by simp) (desk_settleEntry s d b)

theorem settleEntry_writes {s : State} {d : DockNo} {r : DockRecord} {e : ReturnEntry} (b : Option BikeId) (hr : s.dock? d = some r)
    (he : r.returnEntry = some e) : .journalEntryWrite (.pendingReturn d b e.late e.crew) ∈ (s.settleEntry d b).inFlight := by
  unfold State.settleEntry
  simp only [hr, Option.bind_some, he]
  exact List.mem_append_right _ (List.mem_singleton.mpr rfl)

theorem turns_onDock {s : State} {d : DockNo} {r : DockRecord} (f : DockRecord → DockRecord) (hr : s.dock? d = some r) :
    Turns d s (s.onDock d f) (f r) 0 := turns_of_acts hr (acts_onDock s d f) (by simp) rfl

theorem turns_post {s : State} {d : DockNo} {r : DockRecord} (i : Instr) (hr : s.dock? d = some r) :
    Turns d s (s.post i) r 0 := turns_of_acts hr (acts_post s d i) (by simp) rfl

theorem mem_post (s : State) (i : Instr) : i ∈ (s.post i).inFlight := List.mem_append_right _ (List.mem_singleton.mpr rfl)

section tag
variable {s : State} {d : DockNo} {r : DockRecord} (hr : s.dock? d = some r)
include hr

/-- The tag step as a whole: it may change the bike, the pending entry and the wait, and only where a tag is wanted. -/
theorem turns_stepTag (tag : Option Bike) : ∃ b e w, Turns d s (s.stepTag d tag) { r with bike := b, returnEntry := e, tagWait := w } 0
    ∧ (r.wantsTag = false → b = r.bike ∧ e = r.returnEntry ∧ w = r.tagWait) := by
  obtain ⟨b, e, w, hacts, hkept⟩ := acts_stepTag s d tag
  exact ⟨b r, e r, w r, turns_of_acts hr hacts (by simp) (desk_stepTag s d tag), hkept r hr⟩

theorem stepTag_unwanted (tag : Option Bike) (hw : r.wantsTag = false) : s.stepTag d tag = s := by
  unfold State.stepTag
  simp only [hr, hw, Bool.false_eq_true, if_false]

theorem stepTag_taken {k : Bike} (hw : r.wantsTag = true) (hfree : s.heldElsewhere d k.id = false) :
    Turns d s (s.stepTag d (some k)) { r with tagWait := 0, bike := some k, returnEntry := none } 0
      ∧ (∀ e, r.returnEntry = some e → .journalEntryWrite (.pendingReturn d (some k.id) e.late e.crew) ∈ (s.stepTag d (some k)).inFlight)
      ∧ .bikeArrivalNotice d k.id ∈ (s.stepTag d (some k)).inFlight
      ∧ .bikeTakenNotice k.id r.returnEntry.isSome ∈ (s.stepTag d (some k)).inFlight := by
  have heq : s.stepTag d (some k) = ((((s.onDock d fun r => { r with tagWait := 0 }).onDock d fun r => { r with bike := some k }).settleEntry d
      (some k.id)).post (.bikeArrivalNotice d k.id)).post (.bikeTakenNotice k.id r.returnEntry.isSome) := by
    unfold State.stepTag State.takeTag
    simp only [hr, hw, if_true, hfree, Bool.false_eq_true, if_false]
  rw [heq]
  have hrecord := (turns_onDock (fun r => { r with tagWait := 0 }) hr).then (turns_onDock (fun r => { r with bike := some k })
    (turns_onDock (fun r => { r with tagWait := 0 }) hr).record)
  have hsettled := turns_settleEntry (some k.id) hrecord.record
  have harrival := turns_post (.bikeArrivalNotice d k.id) hsettled.record
  have htaken := turns_post (.bikeTakenNotice k.id r.returnEntry.isSome) harrival.record
  refine ⟨((hrecord.then hsettled).then harrival).then htaken, fun e he => ?_, htaken.adds.mem (mem_post _ _), mem_post _ _⟩
  exact (harrival.then htaken).adds.mem (settleEntry_writes _ hrecord.record he)

/-- A raise that settles the pending entry without a bike: TAG_CONFLICT and TAG_UNREAD. -/
theorem turns_settled_raise (k : FaultKind) (c : Carried) (t : State)
    (ht : t = ((s.onDock d fun r => { r with tagWait := 0 }).raise (.dock d) k (some d) c).settleEntry d none) :
    Turns d s t { r with tagWait := 0, returnEntry := none } 0
      ∧ (∀ e, r.returnEntry = some e → .journalEntryWrite (.pendingReturn d none e.late e.crew) ∈ t.inFlight)
      ∧ .faultRaise (.dock d) k (some d) c ∈ t.inFlight := by
  subst ht
  have hwait := turns_onDock (fun r => { r with tagWait := 0 }) hr
  have hraise := turns_post (.faultRaise (.dock d) k (some d) c) hwait.record
  have hsettled := turns_settleEntry none hraise.record
  exact ⟨(hwait.then hraise).then hsettled, fun e he => settleEntry_writes _ hraise.record he, hsettled.adds.mem (mem_post _ _)⟩

theorem stepTag_conflict {k : Bike} (hw : r.wantsTag = true) (hheld : s.heldElsewhere d k.id = true) :
    s.stepTag d (some k) = ((s.onDock d fun r => { r with tagWait := 0 }).raise (.dock d) .tagConflict (some d) (.tag k.id)).settleEntry d
      none := by
  unfold State.stepTag State.takeTag
  simp only [hr, hw, if_true, hheld]

theorem stepTag_unread (hw : r.wantsTag = true) (hwait : 2 ≤ r.tagWait) :
    s.stepTag d none = ((s.onDock d fun r => { r with tagWait := 0 }).raise (.dock d) .tagUnread (some d)).settleEntry d none := by
  unfold State.stepTag State.missTag
  simp only [hr, hw, if_true]
  exact if_neg (by omega)

theorem stepTag_missed (hw : r.wantsTag = true) (hwait : r.tagWait < 2) :
    s.stepTag d none = s.onDock d fun r => { r with tagWait := r.tagWait + 1 } := by
  unfold State.stepTag State.missTag
  simp only [hr, hw, if_true]
  exact if_pos (by omega)

end tag

/-! ### Step 5: what follows a decision (R17 to R20, R23) -/

theorem turns_noteChatter {s : State} {d : DockNo} {r : DockRecord} (hr : s.dock? d = some r) :
    Turns d s (s.noteChatter d) { r with chatter := chatterAfter r.chatter s.now } 0
      ∧ (7 ≤ (chatterAfter r.chatter s.now).length →
          .faultRaise (.dock d) .chatter (some d) .nothing ∈ (s.noteChatter d).inFlight) := by
  have hnoted := turns_onDock (fun r => { r with chatter := chatterAfter r.chatter s.now }) hr
  unfold State.noteChatter
  simp only [hnoted.record, Option.any_some]
  split
  case isTrue h => exact ⟨hnoted.then (turns_post _ hnoted.record), fun _ => mem_post _ _⟩
  case isFalse h => exact ⟨hnoted, fun hseven => absurd (decide_eq_true hseven) h⟩

/-- The record with this slot command. -/
def DockRecord.slotted (r : DockRecord) (m : SlotMode) (w : Bool) : DockRecord := { r with commanded := m, withheld := w }

theorem turns_takeSlot {s : State} {d : DockNo} {r : DockRecord} (hr : s.dock? d = some r) :
    ∃ m w, Turns d s (s.takeSlot d) (r.slotted m w) 0 := by
  obtain ⟨m, w, hacts⟩ := acts_takeSlot s d
  exact ⟨m r, w r, turns_of_acts hr hacts (by simp) (desk_takeSlot s d)⟩

theorem turns_takeOrder {s : State} {d : DockNo} {r : DockRecord} (hr : s.dock? d = some r) :
    Turns d s (s.takeOrder d) { r with insertionOrder := s.dock.insertionCounter } 1 := by
  have hturned := turns_onDock (fun r => { r with insertionOrder := s.dock.insertionCounter }) hr
  exact { record := hturned.record, adds := hturned.adds, others := hturned.others, release := hturned.release,
          caps := hturned.caps, counter := rfl, only := by simp }

/-- The record of an insertion but for its report window (R18, R19). -/
def DockRecord.inserted (r : DockRecord) (counter : Word) (late : Bool) : DockRecord :=
  if r.effOpen = true then
    { r with occupancy := .occupied, unrecorded := false, tagWait := 0, returnEntry := some ⟨late, r.crewWindow.map (·.order)⟩
             crewWindow := none, insertionOrder := counter }
  else { r with occupancy := .occupied, unrecorded := true, insertionOrder := counter }

/-- The report window an insertion leaves (R18). -/
def State.windowAfter (s : State) (r : DockRecord) : Option Elapsed :=
  if s.settings.reportWindow = 0 then r.reportWindow else some (s.now + s.settings.reportWindow)

/-- The record as a decision leaves it, but for its slot (R18 to R20, R23). -/
def DockRecord.decided (r : DockRecord) (s : State) (late : Bool) : Decision → DockRecord
  | .nothing => r
  | .insertion =>
    { r.inserted s.dock.insertionCounter late with reportWindow := s.windowAfter r, chatter := chatterAfter r.chatter s.now }
  | .removal => { r with returnEntry := none, occupancy := .empty, bike := none, battery := none, unrecorded := false, tagWait := 0
                         reportWindow := none, chatter := chatterAfter r.chatter s.now }
  | .firstOccupied => { r with occupancy := .occupied, returnEntry := none, unrecorded := false
                               insertionOrder := s.dock.insertionCounter }
  | .firstEmpty => { r with occupancy := .empty }

/-- The insertion orders that a decision takes (R18, R20). -/
def Decision.orders : Decision → Word
  | .insertion => 1
  | .firstOccupied => 1
  | .nothing => 0
  | .removal => 0
  | .firstEmpty => 0

/-- What a decision hands on, whatever else it does (R17 to R20, R23). -/
def State.decisionTold (s : State) (d : DockNo) (r : DockRecord) : Decision → List Instr
  | .nothing => []
  | .insertion =>
    if r.effOpen = true then
      [.journalCountNotice d .inserted]
        ++ (if (s.claimOn d).isSome = true then [.claimInsertion d (r.crewWindow.map (·.order))] else [])
        ++ (if ((s.claimOn d).any (fun c => c.kind == .van) || (r.crewWindow.map (·.order)).isSome) = true then
            [.crewInsertionNotice d (.inserted (r.crewWindow.map (·.order)))] else [])
    else
      [.journalCountNotice d (.occupancy .occupied)] ++ (if (s.claimOn d).isSome = true then [.claimInsertion d none] else [])
        ++ [.faultRaise (.dock d) .sensor (some d) .nothing]
  | .removal =>
    (match r.returnEntry with
      | some e => [.journalEntryWrite (.pendingReturn d none e.late e.crew)]
      | none => [])
      ++ (match s.claimOn d with
        | none => [.faultRaise (.dock d) .forcedRemoval (some d) .nothing]
        | some c => .claimRemoval d (r.bike.map (·.id)) :: if c.state = .reserved ∨ c.state = .releaseSent then
            [.faultRaise (.dock d) .forcedRemoval (some d) .nothing] else [])
      ++ [.faultRemovalNotice d (r.bike.map (·.id)), .journalCountNotice d (.occupancy .empty)]
  | .firstOccupied => [.journalCountNotice d (.occupancy .occupied)]
  | .firstEmpty => [.journalCountNotice d (.occupancy .empty)]

theorem openReportWindow_inFlight (s : State) (d : DockNo) : (s.openReportWindow d).inFlight = s.inFlight := by
  unfold State.openReportWindow
  split <;> rfl

theorem countedInsertion_inFlight {s : State} {d : DockNo} {r : DockRecord} (late : Bool) (h : r.effOpen = true) :
    (s.countedInsertion d r late).inFlight = s.inFlight ++ s.decisionTold d r .insertion := by
  unfold State.countedInsertion State.decisionTold
  simp only [postIf_inFlight, post_inFlight, openReportWindow_inFlight, h, if_true, List.append_assoc]
  rfl

theorem uncountedInsertion_inFlight {s : State} {d : DockNo} {r : DockRecord} (h : ¬ r.effOpen = true) :
    (s.uncountedInsertion d).inFlight = s.inFlight ++ s.decisionTold d r .insertion := by
  unfold State.uncountedInsertion State.decisionTold
  simp only [raise_inFlight, postIf_inFlight, post_inFlight, openReportWindow_inFlight, if_neg h, List.append_assoc]
  rfl

theorem tellRemoval_inFlight (s : State) (d : DockNo) (b : Option BikeId) : (s.tellRemoval d b).inFlight = s.inFlight ++
    (match s.claimOn d with
      | none => [.faultRaise (.dock d) .forcedRemoval (some d) .nothing]
      | some c => .claimRemoval d b :: if c.state = .reserved ∨ c.state = .releaseSent then
          [.faultRaise (.dock d) .forcedRemoval (some d) .nothing] else []) := by
  unfold State.tellRemoval
  cases s.claimOn d with
  | none => rfl
  | some c =>
    dsimp only
    split
    · rw [raise_inFlight, post_inFlight, List.append_assoc]
      rfl
    · rfl

theorem removal_inFlight {s : State} {d : DockNo} {r : DockRecord} (hr : s.dock? d = some r) :
    (s.removal d r).inFlight = s.inFlight ++ s.decisionTold d r .removal := by
  have hsettled : (s.settleEntry d none).inFlight = s.inFlight ++ (match r.returnEntry with
      | some e => [.journalEntryWrite (.pendingReturn d none e.late e.crew)]
      | none => []) := by
    unfold State.settleEntry
    simp only [hr, Option.bind_some]
    cases r.returnEntry with
    | none => exact (List.append_nil _).symm
    | some e => rfl
  have hclaim : (s.settleEntry d none).claimOn d = s.claimOn d := (turns_settleEntry none hr).claimOn d
  unfold State.removal State.decisionTold
  simp only [post_inFlight, onDock_inFlight, tellRemoval_inFlight, hsettled, hclaim, List.append_assoc] <;> rfl

theorem mem_right {i : Instr} {l : List Instr} {t : State} {s : State} (h : t.inFlight = s.inFlight ++ l) (hi : i ∈ l) :
    i ∈ t.inFlight := h ▸ List.mem_append_right _ hi

theorem turns_openReport {s : State} {d : DockNo} {r : DockRecord} (hr : s.dock? d = some r) :
    Turns d s (s.openReportWindow d) { r with reportWindow := s.windowAfter r } 0 :=
  turns_of_acts hr (acts_openReport s d) (by simp) (desk_openReportWindow s d)

theorem turns_postIf {s : State} {d : DockNo} {r : DockRecord} (b : Bool) (i : Instr) (hr : s.dock? d = some r) :
    Turns d s (s.postIf b i) r 0 := turns_of_acts hr (acts_postIf s d b i) (by simp) (desk_postIf s b i)

/-- An inserted bike takes an insertion order, and its report window opens (R18, R19). -/
theorem turns_ordered {s : State} {d : DockNo} {r : DockRecord} {f : DockRecord → DockRecord} (hr : s.dock? d = some r)
    (hwindow : (f r).reportWindow = r.reportWindow) :
    Turns d s (((s.onDock d f).takeOrder d).openReportWindow d)
      { f r with insertionOrder := s.dock.insertionCounter, reportWindow := s.windowAfter r } 1 := by
  have hset := turns_onDock f hr
  have hordered := turns_takeOrder hset.record
  have hopened := turns_openReport hordered.record
  have hall := hset.trans (hordered.then hopened)
  have hnow : State.windowAfter ((s.onDock d f).takeOrder d)
      { f r with insertionOrder := (s.onDock d f).dock.insertionCounter } = s.windowAfter r := by
    unfold State.windowAfter
    simp only [hwindow] <;> rfl
  rw [zero_add, hnow] at hall
  exact hall

/-- An insertion, counted or not, before it joins the chatter history (R18, R19). -/
theorem turns_insertion {s : State} {d : DockNo} {r : DockRecord} (late : Bool) (hr : s.dock? d = some r) :
    Turns d s (if r.effOpen then s.countedInsertion d r late else s.uncountedInsertion d)
      { r.inserted s.dock.insertionCounter late with reportWindow := s.windowAfter r } 1 := by
  unfold DockRecord.inserted
  by_cases h : r.effOpen = true
  case pos =>
    have hbase := turns_ordered (f := fun x => { x with occupancy := .occupied, unrecorded := false, tagWait := 0
                                                        returnEntry := some ⟨late, r.crewWindow.map (·.order)⟩
                                                        crewWindow := none }) hr rfl
    simp only [if_pos h]
    unfold State.countedInsertion
    have hpost := turns_post (.journalCountNotice d .inserted) hbase.record
    have hclaim := turns_postIf (s.claimOn d).isSome (.claimInsertion d (r.crewWindow.map (·.order))) hpost.record
    exact ((hbase.then hpost).then hclaim).then (turns_postIf _ _ hclaim.record)
  case neg =>
    have hbase := turns_ordered (f := fun x => { x with occupancy := .occupied, unrecorded := true }) hr rfl
    simp only [if_neg h]
    unfold State.uncountedInsertion
    have hpost := turns_post (.journalCountNotice d (.occupancy .occupied)) hbase.record
    have hclaim := turns_postIf (s.claimOn d).isSome (.claimInsertion d none) hpost.record
    exact ((hbase.then hpost).then hclaim).then (turns_post _ hclaim.record)

/-- What follows an insertion and a removal: the chatter history, then the slot. -/
theorem turns_noted {s t : State} {d : DockNo} {r : DockRecord} {n : Word} (h : Turns d s t r n) :
    ∃ m w, Turns d s ((t.noteChatter d).takeSlot d)
        (({ r with chatter := chatterAfter r.chatter s.now } : DockRecord).slotted m w) n
      ∧ Adds t ((t.noteChatter d).takeSlot d)
      ∧ (7 ≤ (chatterAfter r.chatter s.now).length →
          .faultRaise (.dock d) .chatter (some d) .nothing ∈ ((t.noteChatter d).takeSlot d).inFlight) := by
  obtain ⟨hnoted, hraised⟩ := turns_noteChatter h.record
  obtain ⟨m, w, htaken⟩ := turns_takeSlot hnoted.record
  rw [h.now] at hnoted htaken hraised
  exact ⟨m, w, (h.then hnoted).then htaken, hnoted.adds.trans htaken.adds, fun hseven => htaken.adds.mem (hraised hseven)⟩

/-- A decision of the detector at work. -/
theorem turns_applyDecision {s : State} {d : DockNo} {r : DockRecord} (late : Bool) (q : Decision) (hr : s.dock? d = some r) :
    ∃ m w, Turns d s (s.applyDecision d late q) ((r.decided s late q).slotted m w) q.orders
      ∧ (∀ i ∈ s.decisionTold d r q, i ∈ (s.applyDecision d late q).inFlight)
      ∧ (q = .insertion ∨ q = .removal → 7 ≤ (chatterAfter r.chatter s.now).length →
          .faultRaise (.dock d) .chatter (some d) .nothing ∈ (s.applyDecision d late q).inFlight) := by
  unfold State.applyDecision
  simp only [hr]
  cases q with
  | nothing =>
    exact ⟨r.commanded, r.withheld, ⟨hr, Adds.refl s, ⟨rfl, fun _ _ => rfl⟩, rfl, rfl, (add_zero _).symm, Only.refl _ s⟩,
      fun i hi => absurd hi List.not_mem_nil, fun h => absurd h (by simp)⟩
  | insertion =>
    have hinserted := turns_insertion late hr
    have hchatter : (r.inserted s.dock.insertionCounter late).chatter = r.chatter := by
      unfold DockRecord.inserted
      split <;> rfl
    have htold : (if r.effOpen then s.countedInsertion d r late else s.uncountedInsertion d).inFlight =
        s.inFlight ++ s.decisionTold d r .insertion := by
      by_cases h : r.effOpen = true
      · rw [if_pos h, countedInsertion_inFlight late h]
      · rw [if_neg h, uncountedInsertion_inFlight h]
    obtain ⟨m, w, hnoted, hadds, hraised⟩ := turns_noted hinserted
    simp only [hchatter] at hnoted hraised
    exact ⟨m, w, hnoted, fun i hi => hadds.mem (mem_right htold hi), fun _ => hraised⟩
  | removal =>
    have hremoved := turns_of_acts hr (acts_removal s d r) (by simp) (desk_removal s d r)
    obtain ⟨m, w, hnoted, hadds, hraised⟩ := turns_noted hremoved
    exact ⟨m, w, hnoted, fun i hi => hadds.mem (mem_right (removal_inFlight hr) hi), fun _ => hraised⟩
  | firstOccupied =>
    have hset := turns_onDock (fun r => { r with occupancy := .occupied, returnEntry := none, unrecorded := false }) hr
    have hordered := turns_takeOrder hset.record
    have hposted := turns_post (.journalCountNotice d (.occupancy .occupied)) hordered.record
    obtain ⟨m, w, htaken⟩ := turns_takeSlot hposted.record
    have hall := hset.trans ((hordered.then hposted).then htaken)
    rw [zero_add] at hall
    refine ⟨m, w, hall, fun i hi => htaken.adds.mem ?_, fun h => absurd h (by simp)⟩
    obtain rfl := List.mem_singleton.mp hi
    exact mem_post _ _
  | firstEmpty =>
    have hset := turns_onDock (fun r => { r with occupancy := .empty }) hr
    have hposted := turns_post (.journalCountNotice d (.occupancy .empty)) hset.record
    obtain ⟨m, w, htaken⟩ := turns_takeSlot hposted.record
    refine ⟨m, w, (hset.then hposted).then htaken, fun i hi => htaken.adds.mem ?_, fun h => absurd h (by simp)⟩
    obtain rfl := List.mem_singleton.mp hi
    exact mem_post _ _

theorem turns_testSensor {s : State} {d : DockNo} {r : DockRecord} (hr : s.dock? d = some r) :
    Turns d s (s.testSensor d) r 0
      ∧ (r.sensorFails = true → .faultRaise (.dock d) .sensor (some d) .nothing ∈ (s.testSensor d).inFlight) := by
  refine ⟨turns_of_acts hr (acts_testSensor s d) (by simp) (desk_testSensor s d), fun h => ?_⟩
  unfold State.testSensor
  rw [if_pos (by rw [hr]; exact h)]
  exact mem_post _ _

/-- The record and the decision that a reading makes of a record. -/
def DockRecord.reading (r : DockRecord) (s : State) (x : Nat) : DockRecord × Decision :=
  r.sensed x s.settings.threshold s.settings.hysteresis

/-- The record as the presence step leaves it, but for its slot (R13 to R23). -/
def DockRecord.presented (r : DockRecord) (s : State) (late : Bool) (x : Nat) : DockRecord :=
  (r.reading s x).1.decided s late (r.reading s x).2

/-- The presence step. -/
theorem turns_stepPresence {s : State} {d : DockNo} {r : DockRecord} (x : Nat) (late : Bool) (hr : s.dock? d = some r) :
    ∃ m w, Turns d s (s.stepPresence d x late)
        ((r.presented s late x).slotted m w) (r.reading s x).2.orders
      ∧ (∀ i ∈ s.decisionTold d (r.reading s x).1 (r.reading s x).2, i ∈ (s.stepPresence d x late).inFlight)
      ∧ ((r.reading s x).2 = .insertion ∨ (r.reading s x).2 = .removal →
          7 ≤ (chatterAfter (r.reading s x).1.chatter s.now).length →
          .faultRaise (.dock d) .chatter (some d) .nothing ∈ (s.stepPresence d x late).inFlight)
      ∧ (((r.presented s late x).slotted m w).sensorFails = true →
          .faultRaise (.dock d) .sensor (some d) .nothing ∈ (s.stepPresence d x late).inFlight) := by
  have hread := turns_onDock (fun _ => (r.reading s x).1) hr
  obtain ⟨m, w, hdecided, htold, hchatter⟩ := turns_applyDecision late (r.reading s x).2 hread.record
  obtain ⟨htested, hraised⟩ := turns_testSensor hdecided.record
  have hall := hread.trans (hdecided.then htested)
  rw [zero_add] at hall
  have heq : s.stepPresence d x late = ((s.onDock d fun _ => (r.reading s x).1).applyDecision d late (r.reading s x).2).testSensor d := by
    unfold State.stepPresence
    simp only [hr]
    rfl
  rw [heq]
  exact ⟨m, w, hall, fun i hi => htested.adds.mem (htold i hi), fun h hseven => htested.adds.mem (hchatter h hseven), hraised⟩

/-! ### The report as a whole -/

theorem exec_reported {s : State} {d : DockNo} {p : Poll} {r : DockRecord} {b : List Byte} {q : DockReport} (hrun : s.phase = .running)
    (h : reported s d p r b q) :
    exec (.dockReport b) s = .next (((((s.taking (.dockReport b)).heardBy p q).stepTag d q.tag).stepPresence d q.sense
      r.link.lateJoin).tailOf d q r |>.onHost HostLink.beginSending) := by
  obtain ⟨hp, rfl, hr, hb, hq⟩ := h
  have hpolled : (s.taking (.dockReport b)).polled = some (p, r) := by
    have hat : (s.taking (.dockReport b)).dock? p.dock = some r := hr
    unfold State.polled
    rw [show (s.taking (.dockReport b)).dock.poll = some p from hp]
    simp only [hat, Option.map_some]
  simp only [exec, execDockReport]
  rw [act_running hrun, hpolled]
  dsimp only
  rw [hb, State.takeAnswer, if_pos hq]
  rfl

end Sys2Proof.Machine
end


section
/-! Proofs. What an answered report leaves in its dock's record, the detector, and insertions and removals (R5 to R27). -/

namespace Sys2Proof.Machine

/-! ### From the tag step to the end of a report -/

/-- The record as the last steps of a report leave it (R25, R27, R43). -/
def DockRecord.closed (r : DockRecord) (s : State) (d : DockNo) (q : DockReport) : DockRecord :=
  { r.tailed s q with lamp := lampByTable s.dock.caps (s.claimOn d) (r.tailed s q) }

section rest
variable {d : DockNo} {s t : State} {r : DockRecord} (h : Turns d s t r 0)
include h

theorem Turns.reading (a : DockRecord) (x : Nat) : a.reading t x = a.reading s x := by
  rw [DockRecord.reading, h.settings, DockRecord.reading]

theorem Turns.presented (a : DockRecord) (late : Bool) (x : Nat) : a.presented t late x = a.presented s late x := by
  have hdecided : ∀ (y : DockRecord) (q : Decision), y.decided t late q = y.decided s late q := fun y q => by
    cases q <;> simp [DockRecord.decided, State.windowAfter, h.now, h.settings, h.counter]
  rw [DockRecord.presented, h.reading, hdecided, DockRecord.presented]

theorem Turns.decisionTold (a : DockRecord) (q : Decision) : t.decisionTold d a q = s.decisionTold d a q := by
  cases q <;> simp [State.decisionTold, h.claimOn]

/-- The presence step, told by the state at the beginning of the report. -/
theorem turns_presence (x : Nat) (late : Bool) : ∃ m w,
    Turns d s (t.stepPresence d x late) ((r.presented s late x).slotted m w) (r.reading s x).2.orders
      ∧ (∀ i ∈ s.decisionTold d (r.reading s x).1 (r.reading s x).2, i ∈ (t.stepPresence d x late).inFlight)
      ∧ ((r.reading s x).2 = .insertion ∨ (r.reading s x).2 = .removal →
          7 ≤ (chatterAfter (r.reading s x).1.chatter s.now).length →
          .faultRaise (.dock d) .chatter (some d) .nothing ∈ (t.stepPresence d x late).inFlight)
      ∧ (((r.presented s late x).slotted m w).sensorFails = true →
          .faultRaise (.dock d) .sensor (some d) .nothing ∈ (t.stepPresence d x late).inFlight)
      ∧ Adds t (t.stepPresence d x late) := by
  obtain ⟨m, w, hpresence, htold, hchatter, hsensor⟩ := turns_stepPresence x late h.record
  simp only [h.presented, h.reading, h.decisionTold, h.now] at hpresence htold hchatter hsensor
  have hall := h.trans hpresence
  rw [zero_add] at hall
  exact ⟨m, w, hall, htold, hchatter, hsensor, hpresence.adds⟩

end rest

/-- The end of a report, told by the state at its beginning. -/
theorem turns_closed {d : DockNo} {s t : State} {r : DockRecord} {n : Word} (h : Turns d s t r n) (q : DockReport)
    (before : DockRecord) : Turns d s (t.tailOf d q before) (r.closed s d q) n := by
  have htail := turns_tailOf q before h.record
  have htailed : r.tailed t q = r.tailed s q := by
    simp [DockRecord.tailed, DockRecord.tapped, tapAfter, h.store]
  rw [h.caps, h.claimOn, htailed] at htail
  exact h.then htail

/-- The steps behind the tag step: the record, and what is handed on. -/
theorem turns_rest {d : DockNo} {s t : State} {r : DockRecord} (h : Turns d s t r 0) (late : Bool) (q : DockReport)
    (before : DockRecord) : ∃ m w,
      Turns d s ((t.stepPresence d q.sense late).tailOf d q before)
        (((r.presented s late q.sense).slotted m w).closed s d q) (r.reading s q.sense).2.orders
      ∧ (∀ i ∈ t.inFlight, i ∈ ((t.stepPresence d q.sense late).tailOf d q before).inFlight)
      ∧ (∀ i ∈ s.decisionTold d (r.reading s q.sense).1 (r.reading s q.sense).2,
          i ∈ ((t.stepPresence d q.sense late).tailOf d q before).inFlight)
      ∧ ((r.reading s q.sense).2 = .insertion ∨ (r.reading s q.sense).2 = .removal →
          7 ≤ (chatterAfter (r.reading s q.sense).1.chatter s.now).length →
          .faultRaise (.dock d) .chatter (some d) .nothing ∈ ((t.stepPresence d q.sense late).tailOf d q before).inFlight) := by
  obtain ⟨m, w, hpresence, htold, hchatter, -, hadds⟩ := turns_presence h q.sense late
  have htail := turns_tailOf q before hpresence.record
  exact ⟨m, w, turns_closed hpresence q before, fun i hi => htail.adds.mem (hadds.mem hi), fun i hi => htail.adds.mem (htold i hi),
    fun hdecision hseven => htail.adds.mem (hchatter hdecision hseven)⟩

/-! ### What the tag and the presence step leave alone -/

/-- Of a dock record, what the tag step and the presence step do not touch. -/
def DockRecord.untouched (r : DockRecord) : DockRecord where
  link := r.link
  misses := r.misses
  lock := r.lock
  acknowledged := r.acknowledged
  command := r.command
  lastTap := r.lastTap
  readerResult := r.readerResult
  checkPending := r.checkPending
  dockHolds := r.dockHolds
  bikeHolds := r.bikeHolds

theorem reading_untouched (r : DockRecord) (s : State) (x : Nat) : (r.reading s x).1.untouched = r.untouched := by
  unfold DockRecord.reading DockRecord.sensed
  dsimp only
  split <;> rfl

theorem presented_untouched (r : DockRecord) (s : State) (late : Bool) (x : Nat) :
    (r.presented s late x).untouched = r.untouched := by
  have hdecided : ∀ (y : DockRecord) (q : Decision), (y.decided s late q).untouched = y.untouched := fun y q => by
    cases q with
    | insertion =>
      unfold DockRecord.decided DockRecord.inserted
      dsimp only
      split <;> rfl
    | nothing | removal | firstOccupied | firstEmpty => rfl
  rw [DockRecord.presented, hdecided, reading_untouched]

theorem link_answered (l : LinkState) : l.answered = (match l with
    | .absent => .joining .absent
    | .lost => .joining .lost
    | .stale => .joining .stale
    | .joining _ => .online
    | .silent => .online
    | .online => .online) := by
  cases l <;> rfl

theorem completedBy_iff (c : LockCommand) (l : LockState) :
    c.completedBy l = true ↔ (c = .release ∧ l = .opened) ∨ (c = .relock ∧ l = .locked) := by
  simp [LockCommand.completedBy]

theorem sensorFails_iff (r : DockRecord) : r.sensorFails = true ↔ r.dockHolds.sensor = false ∧
    (3 ≤ r.saturation ∨ ∃ n, r.baseline = some n ∧ (n < 100 ∨ 3000 < n)) := by
  simp only [DockRecord.sensorFails, Bool.and_eq_true, Bool.or_eq_true, Bool.not_eq_true', Option.any_eq_true, decide_eq_true_eq]
  exact Iff.rfl

/-- Settles O20: each step of the report, with what the later steps leave of it. -/
theorem answeredReportIsRecorded : Obligations.AnsweredReportIsRecorded := by
  intro s d p r b q hrun hreported
  have hexec := exec_reported hrun hreported
  obtain ⟨hp, rfl, hr, hb, hq⟩ := hreported
  have hheard := turns_heardBy (s := s.taking (.dockReport b)) q hr
  obtain ⟨bike, entry, wait, htag, -⟩ := turns_stepTag hheard.record q.tag
  have hfour := hheard.then htag
  generalize hr4 : ({ afterHeard q r p with bike := bike, returnEntry := entry, tagWait := wait } : DockRecord) = r4 at hfour
  obtain ⟨m, w, hfive, -, -, hsensor, -⟩ := turns_presence hfour q.sense r.link.lateJoin
  have huntouched : ((r4.presented (s.taking (.dockReport b)) r.link.lateJoin q.sense).slotted m w).untouched = (afterHeard q r p).untouched := by
    rw [← hr4]
    exact presented_untouched _ _ _ _
  generalize ((r4.presented (s.taking (.dockReport b)) r.link.lateJoin q.sense).slotted m w) = r5 at hfive huntouched hsensor
  have hlink : r5.link = r.link.answered := congrArg DockRecord.link huntouched
  have hlock : r5.lock = q.lockSeen := congrArg DockRecord.lock huntouched
  have hholds : r5.dockHolds = r.dockHolds := by
    have hkept := congrArg DockRecord.dockHolds huntouched
    exact hkept
  have hbikeHolds : r5.bikeHolds = r.bikeHolds := by
    have hkept := congrArg DockRecord.bikeHolds huntouched
    exact hkept
  have hpending : r5.checkPending = r.checkPending := by
    have hkept := congrArg DockRecord.checkPending huntouched
    exact hkept
  have hresult : r5.readerResult = if p.result.isSome = true ∧ p.superseded = false then none else r.readerResult := by
    have hkept := congrArg DockRecord.readerResult huntouched
    refine Eq.trans hkept ?_
    simp [DockRecord.untouched, afterHeard, DockRecord.heard]
  have hall := turns_closed hfive q r
  have hcommand : r5.command = if r.command.completedBy q.lockSeen then .none else r.command := congrArg DockRecord.command huntouched
  refine ⟨_, r5.closed (s.taking (.dockReport b)) p.dock q, hexec, poll_endPoll _ _ _, hall.record,
    congrArg DockRecord.misses huntouched, hlink.trans (link_answered _), hlock, congrArg DockRecord.acknowledged huntouched,
    ?command, rfl, ?lastTap, ?result, ?pending, ?check, ?press, ?battery, ?sensor, ?join, ?lamp, ?others, ?only⟩
  case command =>
    refine hcommand.trans ?_
    rw [show (r5.closed (s.taking (.dockReport b)) p.dock q).lock = q.lockSeen from hlock]
    simp only [completedBy_iff]
  case lastTap =>
    have htap : r5.lastTap = r.lastTap := by
      have hkept := congrArg DockRecord.lastTap huntouched
      exact hkept
    change tapAfter (s.taking (.dockReport b)) q.tap r5.lastTap = _
    rw [htap]
    rfl
  case result =>
    change (if q.tap.isSome = true ∧ (r5.link ≠ .online ∨ r5.checkPending = true) then _ else r5.readerResult) = _
    rw [hpending, hresult]
    rfl
  case pending =>
    change (r5.checkPending || (q.tap.isSome && decide (r5.link = .online))) = _
    rw [hpending]
    rfl
  case check => exact fun card htap honline hfree => tailOf_check q r hfive.record htap honline (hpending.trans hfree)
  case press => exact fun k x hbike hwindow hn => tailOf_report q r hfive.record hbike hwindow hn
  case battery =>
    have hstore : ∀ n, n = s.store.live.batteryLow → n = (State.stepPresence _ p.dock q.sense r.link.lateJoin).store.live.batteryLow :=
      fun n hn => hn.trans (congrArg (fun x : Store => x.live.batteryLow) hfive.store).symm
    refine fun k n hbike hn => ⟨fun hlow hfree => ?_, fun hgood hheld => ?_⟩
    · exact tailOf_low q r hfive.record hn hbike (hstore _ rfl ▸ hlow) ((congrArg BikeHolds.batteryLow hbikeHolds).trans hfree)
    · exact tailOf_good q r hfive.record hn hbike (hstore _ rfl ▸ hgood) ((congrArg BikeHolds.batteryLow hbikeHolds).trans hheld)
  case sensor =>
    intro hfree hfails
    refine (turns_tailOf q r hfive.record).adds.mem (hsensor ((sensorFails_iff r5).mpr ⟨?_, ?_⟩))
    · exact (congrArg DockHolds.sensor hholds).trans hfree
    · exact hfails.imp_left fun h => Nat.le_of_eq h.symm
  case join =>
    intro origin horigin
    have hjoins : r.link.completes = true := by rw [horigin]; rfl
    obtain ⟨hloss, horphan⟩ := tailOf_join q r hfive.record hjoins
    exact ⟨hloss, horphan⟩
  case lamp => rfl
  case others => exact hall.others
  case only => exact (exec_only _ _ _ hexec).mono (by simp [parts])

end Sys2Proof.Machine
end


section
/-! Proofs. The detector, and insertions and removals (R13 to R24). -/

namespace Sys2Proof.Machine

/-! ### The reading and its decision -/

/-- Of a dock record, what the reading alone moves. -/
def DockRecord.sampled (r : DockRecord) : Option Nat × Nat × Option Nat × Option Side :=
  (r.lastSense, r.saturation, r.baseline, r.candidate)

theorem decided_sampled (r : DockRecord) (s : State) (late : Bool) (q : Decision) : (r.decided s late q).sampled = r.sampled := by
  cases q with
  | insertion =>
    unfold DockRecord.decided DockRecord.inserted
    dsimp only
    split <;> rfl
  | nothing | removal | firstOccupied | firstEmpty => rfl

theorem decided_occupancy (r : DockRecord) (s : State) (late : Bool) (q : Decision) :
    (r.decided s late q).occupancy = occOf q r.occupancy := by
  cases q with
  | insertion =>
    unfold DockRecord.decided DockRecord.inserted
    dsimp only
    split <;> rfl
  | nothing | removal | firstOccupied | firstEmpty => rfl

theorem closed_sampled (r : DockRecord) (s : State) (d : DockNo) (q : DockReport) (late : Bool) (m : SlotMode) (w : Bool) :
    (((r.presented s late q.sense).slotted m w).closed s d q).sampled = (r.reading s q.sense).1.sampled :=
  decided_sampled (r.reading s q.sense).1 s late (r.reading s q.sense).2

theorem closed_occupancy (r : DockRecord) (s : State) (d : DockNo) (q : DockReport) (late : Bool) (m : SlotMode) (w : Bool) :
    (((r.presented s late q.sense).slotted m w).closed s d q).occupancy =
      occOf (r.reading s q.sense).2 (r.reading s q.sense).1.occupancy :=
  decided_occupancy (r.reading s q.sense).1 s late (r.reading s q.sense).2

/-- An answered report as a whole: the record before the presence step is `r` but for what steps 1 to 4 change. -/
theorem report_turns {s : State} {d : DockNo} {p : Poll} {r : DockRecord} {b : List Byte} {q : DockReport} (hrun : s.phase = .running)
    (h : reported s d p r b q) : ∃ t bike entry wait r4 m w, exec (.dockReport b) s = .next t
      ∧ r4 = ({ afterHeard q r p with bike := bike, returnEntry := entry, tagWait := wait } : DockRecord)
      ∧ (r.wantsTag = false → bike = r.bike ∧ entry = r.returnEntry ∧ wait = r.tagWait)
      ∧ t.dock? d = some (((r4.presented s r.link.lateJoin q.sense).slotted m w).closed s d q)
      ∧ t.dock.insertionCounter = s.dock.insertionCounter + (r4.reading s q.sense).2.orders
      ∧ (∀ i ∈ (((s.taking (.dockReport b)).heardBy p q).stepTag d q.tag).inFlight, i ∈ t.inFlight)
      ∧ (∀ i ∈ s.decisionTold d (r4.reading s q.sense).1 (r4.reading s q.sense).2, i ∈ t.inFlight)
      ∧ ((r4.reading s q.sense).2 = .insertion ∨ (r4.reading s q.sense).2 = .removal →
          7 ≤ (chatterAfter (r4.reading s q.sense).1.chatter s.now).length →
          .faultRaise (.dock d) .chatter (some d) .nothing ∈ t.inFlight) := by
  have hexec := exec_reported hrun h
  obtain ⟨hp, rfl, hr, hb, hq⟩ := h
  have hheard := turns_heardBy (s := s.taking (.dockReport b)) q hr
  obtain ⟨bike, entry, wait, htag, hkept⟩ := turns_stepTag hheard.record q.tag
  obtain ⟨m, w, hall, hgrown, htold, hchatter⟩ := turns_rest (hheard.then htag) r.link.lateJoin q r
  exact ⟨_, bike, entry, wait, _, m, w, hexec, rfl, hkept, hall.record, hall.counter, hgrown, htold, hchatter⟩

/-- Settles O21: the reading by the table of the detector, the decision by the occupancy it leaves. -/
theorem presenceDetectorDecides : Obligations.PresenceDetectorDecides := by
  intro s d p r b q hrun hreported
  obtain ⟨t, bike, entry, wait, r4, m, w, hexec, hr4, -, hrecord, -⟩ := report_turns hrun hreported
  obtain ⟨hsense, hsaturated, hsound⟩ := sensed_facts r4 q.sense s.settings.threshold s.settings.hysteresis
  have hbase : r4.baseline = some (r.baseline.getD q.emptyRef) := by rw [hr4]; rfl
  have hoccupancy : r4.occupancy = r.occupancy := by rw [hr4]; rfl
  have hcandidate : r4.candidate = r.candidate := by rw [hr4]; rfl
  have hsaturation : r4.saturation = r.saturation := by rw [hr4]; rfl
  have hsampled := closed_sampled r4 s d q r.link.lateJoin m w
  have hafter := closed_occupancy r4 s d q r.link.lateJoin m w
  generalize ((r4.presented s r.link.lateJoin q.sense).slotted m w).closed s d q = r' at hrecord hsampled hafter
  simp only [DockRecord.sampled, Prod.mk.injEq] at hsampled
  obtain ⟨hs1, hs2, hs3, hs4⟩ := hsampled
  have hgetD : r4.baseline.getD 0 = r.baseline.getD q.emptyRef := by rw [hbase]; rfl
  refine ⟨t, r', r.baseline.getD q.emptyRef, _, _, hexec, hrecord, hs1.trans hsense, rfl, rfl, rfl, fun hx => ?_, fun hx => ?_⟩
  case _ =>
    obtain ⟨h1, h2, h3, h4, h5⟩ := hsaturated hx
    refine ⟨hs2.trans (h1.trans (by rw [hsaturation])), hs3.trans (h2.trans hbase), hs4.trans h3, ?_⟩
    rw [hafter, show (r4.reading s q.sense).2 = .nothing from h4, show (r4.reading s q.sense).1.occupancy = r4.occupancy from h5,
      hoccupancy]
    rfl
  case _ =>
    obtain ⟨h1, h2, h3, h4⟩ := hsound hx
    rw [hgetD, hbase] at h3
    rw [hgetD, hoccupancy, hcandidate] at h4
    rw [hoccupancy] at h3
    refine ⟨hs2.trans h1, hs3.trans (h3.trans ?_), ?_⟩
    · rw [apply_ite some]
      rfl
    · refine Eq.trans ?_ (detect_table r.occupancy r.candidate q.sense _ _)
      rw [hafter, hs4, show (r4.reading s q.sense).1.occupancy = r.occupancy from h2.trans hoccupancy]
      exact congrArg (fun z => (occOf z.2 r.occupancy, z.1)) h4

end Sys2Proof.Machine
end


section
/-! Proofs. Insertions, removals and tags (R17 to R24). -/

namespace Sys2Proof.Machine

/-! ### A report by its decision -/

/-- The record once the reading is taken: only what the reading moves is left open. -/
def DockRecord.read (r : DockRecord) (x : Option Nat × Nat × Option Nat × Option Side) : DockRecord :=
  { r with lastSense := x.1, saturation := x.2.1, baseline := x.2.2.1, candidate := x.2.2.2 }

theorem reading_read (r : DockRecord) (s : State) (x : Nat) :
    (r.reading s x).1 = r.read (r.reading s x).1.sampled := by
  unfold DockRecord.reading DockRecord.sensed
  dsimp only
  split <;> rfl

theorem reading_decision {r : DockRecord} {s : State} {x : Nat} (hx : x ≠ 4095) : (r.reading s x).2 =
    (detect r.occupancy r.candidate x (r.baseline.getD 0 + s.store.live.threshold)
      (r.baseline.getD 0 + s.store.live.threshold - s.store.live.hysteresis)).2 := by
  obtain ⟨-, -, hsound⟩ := sensed_facts r x s.settings.threshold s.settings.hysteresis
  obtain ⟨-, -, -, hdetect⟩ := hsound hx
  exact congrArg Prod.snd hdetect

/-- An OCCUPIED dock decides nothing or a removal (R15). -/
theorem reading_occupied {r : DockRecord} (s : State) (x : Nat) (h : r.occupancy = .occupied) :
    (r.reading s x).2 = .nothing ∨ (r.reading s x).2 = .removal := by
  by_cases hx : x = 4095
  · obtain ⟨-, hsaturated, -⟩ := sensed_facts r x s.settings.threshold s.settings.hysteresis
    obtain ⟨-, -, -, hnothing, -⟩ := hsaturated hx
    exact Or.inl hnothing
  · rw [reading_decision hx, h]
    unfold detect
    dsimp only
    split
    · split
      · exact Or.inr rfl
      · exact Or.inl rfl
    · exact Or.inl rfl

/-- A dock record but for its slot and what the steps behind the presence step move. -/
def DockRecord.core (r : DockRecord) : DockRecord :=
  { r with commanded := .shut, withheld := false, lastTap := none, readerResult := none, checkPending := false, battery := none
           lamp := .off }

theorem closed_core (r : DockRecord) (s : State) (d : DockNo) (q : DockReport) (m : SlotMode) (w : Bool) :
    ((r.slotted m w).closed s d q).core = r.core := rfl

section report
variable {s : State} {d : DockNo} {p : Poll} {r : DockRecord} {b : List Byte} {q : DockReport}

/-- The state before the tag step of a report. -/
abbrev State.untagged (s : State) (p : Poll) (b : List Byte) (q : DockReport) : State := (s.taking (.dockReport b)).heardBy p q

theorem turns_untagged (h : reported s d p r b q) : Turns d (s.taking (.dockReport b)) (s.untagged p b q) (afterHeard q r p) 0 := by
  obtain ⟨hp, rfl, hr, hb, hq⟩ := h
  exact turns_heardBy (s := s.taking (.dockReport b)) q hr

/-- The rest of a report behind its tag step, by the record that the tag step leaves. -/
theorem report_rest {r4 : DockRecord} (hrun : s.phase = .running) (h : reported s d p r b q)
    (htag : Turns d (s.untagged p b q) ((s.untagged p b q).stepTag d q.tag) r4 0) : ∃ t r' x, exec (.dockReport b) s = .next t
      ∧ t.dock? d = some r' ∧ r'.core = ((r4.read x).decided s r.link.lateJoin (r4.reading s q.sense).2).core
      ∧ t.dock.insertionCounter = s.dock.insertionCounter + (r4.reading s q.sense).2.orders
      ∧ (∀ i ∈ ((s.untagged p b q).stepTag d q.tag).inFlight, i ∈ t.inFlight)
      ∧ (∀ i ∈ s.decisionTold d (r4.read x) (r4.reading s q.sense).2, i ∈ t.inFlight)
      ∧ ((r4.reading s q.sense).2 = .insertion ∨ (r4.reading s q.sense).2 = .removal →
          7 ≤ (chatterAfter r4.chatter s.now).length → .faultRaise (.dock d) .chatter (some d) .nothing ∈ t.inFlight) := by
  have hexec := exec_reported hrun h
  have hfour := (turns_untagged h).then htag
  obtain ⟨hp, rfl, hr, hb, hq⟩ := h
  obtain ⟨m, w, hall, hgrown, htold, hchatter⟩ := turns_rest hfour r.link.lateJoin q r
  have hread := reading_read r4 (s.taking (.dockReport b)) q.sense
  have hrecord := hall.record
  rw [DockRecord.presented, hread] at hrecord
  rw [hread] at htold hchatter
  exact ⟨_, _, _, hexec, hrecord, closed_core _ _ _ _ m w, hall.counter, hgrown, htold, hchatter⟩

theorem report_untouched_tag (h : reported s d p r b q) (hw : r.wantsTag = false) :
    Turns d (s.untagged p b q) ((s.untagged p b q).stepTag d q.tag) (afterHeard q r p) 0 := by
  have hheard := turns_untagged h
  rw [stepTag_unwanted hheard.record q.tag hw]
  exact ⟨hheard.record, Adds.refl _, ⟨rfl, fun _ _ => rfl⟩, rfl, rfl, (add_zero _).symm, Only.refl _ _⟩

theorem untagged_heldElsewhere (h : reported s d p r b q) (k : BikeId) :
    (s.untagged p b q).heldElsewhere d k = s.heldElsewhere d k := heldElsewhere_of_others (turns_untagged h).others k

/-- The tag step where a tag is wanted: the record it leaves, and the pending entry asked to be written (R21, R22). -/
theorem report_tag_taken {k : Bike} (h : reported s d p r b q) (hw : r.wantsTag = true) (hk : q.tag = some k)
    (hfree : s.heldElsewhere d k.id = false) :
    Turns d (s.untagged p b q) ((s.untagged p b q).stepTag d q.tag)
        { afterHeard q r p with tagWait := 0, bike := some k, returnEntry := none } 0
      ∧ (∀ e, r.returnEntry = some e → .journalEntryWrite (.pendingReturn d (some k.id) e.late e.crew) ∈
          ((s.untagged p b q).stepTag d q.tag).inFlight)
      ∧ .bikeArrivalNotice d k.id ∈ ((s.untagged p b q).stepTag d q.tag).inFlight
      ∧ .bikeTakenNotice k.id r.returnEntry.isSome ∈ ((s.untagged p b q).stepTag d q.tag).inFlight := by
  rw [hk]
  exact stepTag_taken (turns_untagged h).record hw ((untagged_heldElsewhere h k.id).trans hfree)

theorem report_tag_conflict {k : Bike} (h : reported s d p r b q) (hw : r.wantsTag = true) (hk : q.tag = some k)
    (hheld : s.heldElsewhere d k.id = true) :
    Turns d (s.untagged p b q) ((s.untagged p b q).stepTag d q.tag) { afterHeard q r p with tagWait := 0, returnEntry := none } 0
      ∧ (∀ e, r.returnEntry = some e → .journalEntryWrite (.pendingReturn d none e.late e.crew) ∈
          ((s.untagged p b q).stepTag d q.tag).inFlight)
      ∧ .faultRaise (.dock d) .tagConflict (some d) (.tag k.id) ∈ ((s.untagged p b q).stepTag d q.tag).inFlight := by
  have hrecord := (turns_untagged h).record
  rw [hk]
  exact turns_settled_raise hrecord _ _ _ (stepTag_conflict hrecord hw ((untagged_heldElsewhere h k.id).trans hheld))

theorem report_tag_unread (h : reported s d p r b q) (hw : r.wantsTag = true) (hk : q.tag = none) (hwait : 2 ≤ r.tagWait) :
    Turns d (s.untagged p b q) ((s.untagged p b q).stepTag d q.tag) { afterHeard q r p with tagWait := 0, returnEntry := none } 0
      ∧ (∀ e, r.returnEntry = some e → .journalEntryWrite (.pendingReturn d none e.late e.crew) ∈
          ((s.untagged p b q).stepTag d q.tag).inFlight)
      ∧ .faultRaise (.dock d) .tagUnread (some d) .nothing ∈ ((s.untagged p b q).stepTag d q.tag).inFlight := by
  have hrecord := (turns_untagged h).record
  rw [hk]
  exact turns_settled_raise hrecord _ _ _ (stepTag_unread hrecord hw hwait)

theorem report_tag_missed (h : reported s d p r b q) (hw : r.wantsTag = true) (hk : q.tag = none) (hwait : r.tagWait < 2) :
    Turns d (s.untagged p b q) ((s.untagged p b q).stepTag d q.tag) { afterHeard q r p with tagWait := r.tagWait + 1 } 0 := by
  have hrecord := (turns_untagged h).record
  rw [hk, stepTag_missed hrecord hw hwait]
  exact turns_onDock _ hrecord

end report

/-! ### The record of an insertion -/

theorem inserted_common (r : DockRecord) (c : Word) (late : Bool) :
    (r.inserted c late).insertionOrder = c ∧ (r.inserted c late).occupancy = .occupied := by
  unfold DockRecord.inserted
  split <;> exact ⟨rfl, rfl⟩

theorem lateJoin_iff (l : LinkState) : l.lateJoin = decide (l = .joining .lost ∨ l = .joining .stale) := by
  cases l with
  | joining origin => cases origin <;> rfl
  | absent | online | silent | lost | stale => rfl

/-- The chatter history keeps the newest seven of the changes within 20 s (R17). -/
theorem chatterAfter_eq {history kept : List Elapsed} {now : Elapsed}
    (h : kept = (history ++ [now]).filter fun x => now ≤ x + 20) :
    chatterAfter history now = kept.drop (kept.length - 7) ∧ (7 ≤ kept.length → 7 ≤ (chatterAfter history now).length) := by
  have heq : chatterAfter history now = kept.drop (kept.length - 7) := by rw [h]; rfl
  refine ⟨heq, fun hseven => ?_⟩
  rw [heq, List.length_drop]
  omega

/-- What an OCCUPIED dock is found to hold at the end of a report: what the tag step left, or nothing once the bike is gone. -/
theorem decided_occupied {r : DockRecord} (s : State) (late : Bool) {q : Decision} (hq : q = .nothing ∨ q = .removal) :
    ((r.decided s late q).bike = r.bike ∧ (r.decided s late q).returnEntry = r.returnEntry
        ∧ (r.decided s late q).tagWait = r.tagWait)
      ∨ ((r.decided s late q).occupancy = .empty ∧ (r.decided s late q).bike = none
        ∧ (r.decided s late q).returnEntry = none ∧ (r.decided s late q).tagWait = 0) := by
  rcases hq with rfl | rfl
  · exact Or.inl ⟨rfl, rfl, rfl⟩
  · exact Or.inr ⟨rfl, rfl, rfl, rfl⟩

end Sys2Proof.Machine
end


section
/-! Proofs. The statement on insertions, removals and tags (R17 to R24). -/

namespace Sys2Proof.Machine

section clauses
variable {s : State} {d : DockNo} {p : Poll} {r : DockRecord} {b : List Byte} {q : DockReport}

/-- A report of a decided dock, where no tag is wanted. -/
theorem report_decides {dec : Decision} (hrun : s.phase = .running) (h : reported s d p r b q) (hx : q.sense ≠ 4095)
    (hw : r.wantsTag = false)
    (hdec : (detect r.occupancy r.candidate q.sense (r.baseline.getD q.emptyRef + s.store.live.threshold)
      (r.baseline.getD q.emptyRef + s.store.live.threshold - s.store.live.hysteresis)).2 = dec) :
    ∃ t r' x, exec (.dockReport b) s = .next t
      ∧ t.dock? d = some r' ∧ r'.core = (((afterHeard q r p).read x).decided s r.link.lateJoin dec).core
      ∧ t.dock.insertionCounter = s.dock.insertionCounter + dec.orders
      ∧ (∀ i ∈ s.decisionTold d ((afterHeard q r p).read x) dec, i ∈ t.inFlight)
      ∧ (dec = .insertion ∨ dec = .removal →
          7 ≤ (chatterAfter r.chatter s.now).length → .faultRaise (.dock d) .chatter (some d) .nothing ∈ t.inFlight) := by
  obtain ⟨t, r', x, hexec, hrecord, hcore, hcounter, -, htold, hchatter⟩ := report_rest hrun h (report_untouched_tag h hw)
  rw [reading_decision (r := afterHeard q r p) (s := s) hx] at hcore hcounter htold hchatter
  rw [← hdec]
  exact ⟨t, r', x, hexec, hrecord, hcore, hcounter, htold, hchatter⟩

/-- A removal, whether a tag was wanted or not: `bike` is the bike it is told of. -/
theorem report_removes {bike : Option Bike} (hrun : s.phase = .running) (h : reported s d p r b q) (hx : q.sense ≠ 4095)
    (hocc : r.occupancy = .occupied) (hcand : r.candidate = some .empty)
    (hlow : q.sense < r.baseline.getD q.emptyRef + s.store.live.threshold - s.store.live.hysteresis)
    (hkept : r.bike.isSome = true ∨ r.dockHolds.tagUnread = true ∨ r.dockHolds.tagConflict = true → bike = r.bike)
    (htaken : r.bike = none → r.dockHolds.tagUnread = false → r.dockHolds.tagConflict = false →
      bike = q.tag.filter fun k => !s.heldElsewhere d k.id) :
    ∃ t r' r4 x, exec (.dockReport b) s = .next t
      ∧ t.dock? d = some r' ∧ r'.core = ((DockRecord.read r4 x).decided s r.link.lateJoin .removal).core
      ∧ r4.bike = bike ∧ r4.insertionOrder = r.insertionOrder ∧ r4.chatter = r.chatter
      ∧ (∀ e, r.returnEntry = some e →
          .journalEntryWrite (.pendingReturn d (if r.bike.isSome then none else bike.map (·.id)) e.late e.crew) ∈ t.inFlight)
      ∧ (∀ i ∈ s.decisionTold d (r4.read x) .removal, i ∈ t.inFlight)
      ∧ (7 ≤ (chatterAfter r.chatter s.now).length → .faultRaise (.dock d) .chatter (some d) .nothing ∈ t.inFlight) := by
  have hremoves : ∀ r4 : DockRecord, r4.occupancy = r.occupancy → r4.candidate = r.candidate →
      r4.baseline = some (r.baseline.getD q.emptyRef) → (r4.reading s q.sense).2 = .removal := fun r4 h1 h2 h3 => by
    rw [reading_decision hx, h1, h2, h3, hocc, hcand]
    simp [detect, hlow]
  suffices hfour : ∃ r4, Turns d (s.untagged p b q) ((s.untagged p b q).stepTag d q.tag) r4 0
      ∧ (r4.reading s q.sense).2 = .removal ∧ r4.bike = bike ∧ r4.insertionOrder = r.insertionOrder ∧ r4.chatter = r.chatter
      ∧ ∀ e, r.returnEntry = some e →
        .journalEntryWrite (.pendingReturn d (if r.bike.isSome then none else bike.map (·.id)) e.late e.crew) ∈
          ((s.untagged p b q).stepTag d q.tag).inFlight
        ∨ (r4.returnEntry = some e ∧ (if r.bike.isSome then none else bike.map (·.id)) = none) by
    obtain ⟨r4, htag, hdec, hbike, horder, hchatters, hentry⟩ := hfour
    obtain ⟨t, r', x, hexec, hrecord, hcore, -, hgrown, htold, hchatter⟩ := report_rest hrun h htag
    rw [hdec] at hcore htold hchatter
    rw [hchatters] at hchatter
    refine ⟨t, r', r4, x, hexec, hrecord, hcore, hbike, horder, hchatters, fun e he => ?_, htold, hchatter (Or.inr rfl)⟩
    rcases hentry e he with hwritten | ⟨hpending, hnone⟩
    · exact hgrown _ hwritten
    · rw [hnone]
      refine htold _ ?_
      have hstill : (r4.read x).returnEntry = some e := hpending
      simp [State.decisionTold, hstill]
  by_cases hw : r.wantsTag = true
  case neg =>
    have hsome : r.bike.isSome = true ∨ r.dockHolds.tagUnread = true ∨ r.dockHolds.tagConflict = true := by
      simp only [DockRecord.wantsTag, hocc] at hw
      cases hbike : r.bike with
      | some k => exact Or.inl rfl
      | none =>
        rw [hbike] at hw
        cases hunread : r.dockHolds.tagUnread with
        | true => exact Or.inr (Or.inl rfl)
        | false => exact Or.inr (Or.inr (by simpa [hunread] using hw))
    have hbike := hkept hsome
    refine ⟨_, report_untouched_tag h (by simpa using hw), hremoves _ rfl rfl rfl, hbike.symm, rfl, rfl,
      fun e he => Or.inr ⟨he, ?_⟩⟩
    rw [hbike]
    cases r.bike <;> rfl
  case pos =>
    obtain ⟨hnone, hunread, hconflict⟩ : r.bike = none ∧ r.dockHolds.tagUnread = false ∧ r.dockHolds.tagConflict = false := by
      simp only [DockRecord.wantsTag, Bool.and_eq_true, Bool.not_eq_true', Option.isNone_iff_eq_none] at hw
      exact ⟨hw.1.1.2, hw.1.2, hw.2⟩
    have hbike := htaken hnone hunread hconflict
    have hif : (if r.bike.isSome then none else bike.map (·.id)) = bike.map (·.id) := by rw [hnone]; rfl
    rw [hif]
    rcases Option.eq_none_or_eq_some q.tag with htag | ⟨k, htag⟩
    case inl =>
      rw [htag] at hbike
      have hk : bike = none := hbike
      by_cases hwait : r.tagWait < 2
      · refine ⟨_, report_tag_missed h hw htag hwait, hremoves _ rfl rfl rfl, (hk.trans hnone.symm).symm, rfl, rfl,
          fun e he => Or.inr ⟨he, by rw [hk]; rfl⟩⟩
      · obtain ⟨hturns, hentry, -⟩ := report_tag_unread h hw htag (Nat.not_lt.mp hwait)
        refine ⟨_, hturns, hremoves _ rfl rfl rfl, (hk.trans hnone.symm).symm, rfl, rfl, fun e he => Or.inl ?_⟩
        rw [hk]
        exact hentry e he
    case inr =>
      rw [htag] at hbike
      cases hheld : s.heldElsewhere d k.id with
      | false =>
        obtain ⟨hturns, hentry, -⟩ := report_tag_taken h hw htag hheld
        have hk : bike = some k := by rw [hbike]; simp [Option.filter, hheld]
        refine ⟨_, hturns, hremoves _ rfl rfl rfl, hk.symm, rfl, rfl, fun e he => Or.inl ?_⟩
        rw [hk]
        exact hentry e he
      | true =>
        obtain ⟨hturns, hentry, -⟩ := report_tag_conflict h hw htag hheld
        have hk : bike = none := by rw [hbike]; simp [Option.filter, hheld]
        refine ⟨_, hturns, hremoves _ rfl rfl rfl, (hk.trans hnone.symm).symm, rfl, rfl, fun e he => Or.inl ?_⟩
        rw [hk]
        exact hentry e he

end clauses

end Sys2Proof.Machine
end


section
/-! Proofs. Insertions, removals and tags, put together (R17 to R24). -/

namespace Sys2Proof.Machine

section clauses
variable {s : State} {d : DockNo} {p : Poll} {r : DockRecord} {b : List Byte} {q : DockReport}

/-- A report of an OCCUPIED dock by the record that its tag step leaves: that record, or an emptied one. -/
theorem report_occupied {r4 : DockRecord} (hrun : s.phase = .running) (h : reported s d p r b q)
    (htag : Turns d (s.untagged p b q) ((s.untagged p b q).stepTag d q.tag) r4 0) (hocc : r4.occupancy = .occupied) :
    ∃ t r', exec (.dockReport b) s = .next t ∧ t.dock? d = some r'
      ∧ (∀ i ∈ ((s.untagged p b q).stepTag d q.tag).inFlight, i ∈ t.inFlight)
      ∧ ((r'.bike = r4.bike ∧ r'.returnEntry = r4.returnEntry ∧ r'.tagWait = r4.tagWait)
        ∨ (r'.occupancy = .empty ∧ r'.bike = none ∧ r'.returnEntry = none ∧ r'.tagWait = 0)) := by
  obtain ⟨t, r', x, hexec, hrecord, hcore, -, hgrown, -⟩ := report_rest hrun h htag
  have hheld := decided_occupied (r := r4.read x) s r.link.lateJoin (reading_occupied s q.sense hocc)
  have hoccupancy := congrArg DockRecord.occupancy hcore
  have hbike := congrArg DockRecord.bike hcore
  have hentry := congrArg DockRecord.returnEntry hcore
  have hwait := congrArg DockRecord.tagWait hcore
  refine ⟨t, r', hexec, hrecord, hgrown, hheld.imp (fun k => ?_) fun k => ?_⟩
  · exact ⟨hbike.trans k.1, hentry.trans k.2.1, hwait.trans k.2.2⟩
  · exact ⟨hoccupancy.trans k.1, hbike.trans k.2.1, hentry.trans k.2.2.1, hwait.trans k.2.2.2⟩

/-- A tag that settles the pending entry without a bike: what is raised, and what is left of the dock. -/
theorem report_tagless {i : Instr} (hrun : s.phase = .running) (h : reported s d p r b q) (hocc : r.occupancy = .occupied)
    (hbike : r.bike = none)
    (htag : Turns d (s.untagged p b q) ((s.untagged p b q).stepTag d q.tag) { afterHeard q r p with tagWait := 0, returnEntry := none } 0
      ∧ (∀ e, r.returnEntry = some e → .journalEntryWrite (.pendingReturn d none e.late e.crew) ∈
          ((s.untagged p b q).stepTag d q.tag).inFlight)
      ∧ i ∈ ((s.untagged p b q).stepTag d q.tag).inFlight) :
    ∃ t r', exec (.dockReport b) s = .next t ∧ t.dock? d = some r' ∧ r'.tagWait = 0 ∧ r'.returnEntry = none ∧ r'.bike = none
      ∧ (∀ e, r.returnEntry = some e → .journalEntryWrite (.pendingReturn d none e.late e.crew) ∈ t.inFlight) ∧ i ∈ t.inFlight := by
  obtain ⟨hturns, hentry, hraised⟩ := htag
  obtain ⟨t, r', hexec, hrecord, hgrown, hheld⟩ := report_occupied hrun h hturns hocc
  refine ⟨t, r', hexec, hrecord, ?_, ?_, ?_, fun e he => hgrown _ (hentry e he), hgrown _ hraised⟩
  · exact hheld.elim (fun k => k.2.2) fun k => k.2.2.2
  · exact hheld.elim (fun k => k.2.1) fun k => k.2.2.1
  · exact hheld.elim (fun k => k.1.trans hbike) fun k => k.2.1

end clauses

theorem wantsTag_of_not_occupied {r : DockRecord} (h : r.occupancy ≠ .occupied) : r.wantsTag = false := by
  simp [DockRecord.wantsTag, h]

theorem decided_counted {r : DockRecord} (s : State) (late : Bool) (h : r.effOpen = true) :
    (r.decided s late .insertion).unrecorded = false ∧ (r.decided s late .insertion).tagWait = 0
      ∧ (r.decided s late .insertion).crewWindow = none
      ∧ (r.decided s late .insertion).returnEntry = some ⟨late, r.crewWindow.map (·.order)⟩ := by
  simp [DockRecord.decided, DockRecord.inserted, h]

theorem decided_uncounted {r : DockRecord} (s : State) (late : Bool) (h : ¬ r.effOpen = true) :
    (r.decided s late .insertion).unrecorded = true ∧ (r.decided s late .insertion).crewWindow = r.crewWindow
      ∧ (r.decided s late .insertion).returnEntry = r.returnEntry := by
  simp [DockRecord.decided, DockRecord.inserted, h]

theorem effOpen_heard (q : DockReport) (r : DockRecord) (p : Poll) (x : Option Nat × Nat × Option Nat × Option Side) :
    ((afterHeard q r p).read x).effOpen = (r.commanded == .opened || q.slotSeen == .opened) := rfl

theorem claimOn_isSome {s : State} {d : DockNo} (h : s.claimOn d ≠ none) : (s.claimOn d).isSome = true :=
  Option.isSome_iff_ne_none.mpr h

/-- Settles O22: a report by its decision, and the tag step by what the reader saw. -/
theorem insertionsAndRemovals : Obligations.InsertionsAndRemovals := by
  refine ⟨fun s d p r b q history bike hrun h hx hhistory => ⟨?insertion, ?removal, ?firstOccupied, ?firstEmpty⟩,
    fun s d p r b q hrun h hocc hbike hunread hconflict => ?tags⟩
  case insertion =>
    intro hempty hcand hup
    have hdec : (detect r.occupancy r.candidate q.sense (r.baseline.getD q.emptyRef + s.store.live.threshold)
        (r.baseline.getD q.emptyRef + s.store.live.threshold - s.store.live.hysteresis)).2 = .insertion := by
      simp [detect, hempty, hcand, hup]
    obtain ⟨t, r', x, hexec, hrecord, hcore, hcounter, htold, hchatter⟩ :=
      report_decides hrun h hx (wantsTag_of_not_occupied (by simp [hempty])) hdec
    obtain ⟨hkept, hseven⟩ := chatterAfter_eq hhistory
    obtain ⟨horder, hoccupied⟩ := inserted_common ((afterHeard q r p).read x) s.dock.insertionCounter r.link.lateJoin
    refine ⟨t, r', hexec, hrecord, (congrArg DockRecord.insertionOrder hcore :).trans horder, hcounter,
      (congrArg DockRecord.occupancy hcore :).trans hoccupied, (congrArg DockRecord.reportWindow hcore :),
      (congrArg DockRecord.chatter hcore :).trans hkept, fun hlen => hchatter (Or.inl rfl) (hseven hlen),
      fun hopen => ?counted, fun hshut hacknowledged => ?uncounted⟩
    case counted =>
      have heff : ((afterHeard q r p).read x).effOpen = true := by
        rw [effOpen_heard, DockReport.slotSeen]
        rcases hopen with hcommanded | ⟨hpower, hslot⟩
        · rw [hcommanded]
          rfl
        · rw [hpower, hslot, Bool.or_eq_true]
          exact Or.inr rfl
      obtain ⟨hunrecorded, hwait, hwindow, hentry⟩ := decided_counted s r.link.lateJoin heff
      refine ⟨(congrArg DockRecord.unrecorded hcore :).trans hunrecorded, (congrArg DockRecord.tagWait hcore :).trans hwait,
        (congrArg DockRecord.crewWindow hcore :).trans hwindow, (congrArg DockRecord.returnEntry hcore :).trans (hentry.trans ?_),
        htold _ ?_, fun hclaim => htold _ ?_, fun hvan => htold _ ?_⟩
      · rw [lateJoin_iff]
        rfl
      · simp [State.decisionTold, heff]
      · simp [State.decisionTold, heff, claimOn_isSome hclaim]
        rfl
      · have hcrew : (s.claimOn d).any (fun c => c.kind == .van) = true ∨ r.crewWindow.isSome = true := by
          rcases hvan with ⟨c, hc, hkind⟩ | hwindow
          · simp [hc, hkind]
          · exact Or.inr (Option.isSome_iff_ne_none.mpr hwindow)
        have hin : ((afterHeard q r p).read x).crewWindow = r.crewWindow := rfl
        simp [State.decisionTold, heff, hin, hcrew]
    case uncounted =>
      have heff : ¬ ((afterHeard q r p).read x).effOpen = true := by
        rw [effOpen_heard, DockReport.slotSeen, hshut]
        rcases hacknowledged with hpower | hslot
        · rw [hpower]
          exact Bool.false_ne_true
        · rw [hslot, ite_self]
          exact Bool.false_ne_true
      obtain ⟨hunrecorded, hwindow, hentry⟩ := decided_uncounted s r.link.lateJoin heff
      refine ⟨(congrArg DockRecord.unrecorded hcore :).trans hunrecorded, (congrArg DockRecord.crewWindow hcore :).trans hwindow,
        (congrArg DockRecord.returnEntry hcore :).trans hentry, htold _ ?_, fun hclaim => htold _ ?_, htold _ ?_⟩
      · simp [State.decisionTold, heff]
      · simp [State.decisionTold, heff, claimOn_isSome hclaim]
      · simp [State.decisionTold, heff]
  case removal =>
    intro hoccupied hcand hlow hheld htaken
    obtain ⟨t, r', r4, x, hexec, hrecord, hcore, hbike, horder, hchatters, hentry, htold, hchatter⟩ :=
      report_removes hrun h hx hoccupied hcand hlow hheld htaken
    obtain ⟨hkept, hseven⟩ := chatterAfter_eq hhistory
    refine ⟨t, r', hexec, hrecord, (congrArg DockRecord.occupancy hcore :), (congrArg DockRecord.bike hcore :),
      (congrArg DockRecord.unrecorded hcore :), (congrArg DockRecord.tagWait hcore :), (congrArg DockRecord.reportWindow hcore :),
      (congrArg DockRecord.returnEntry hcore :), (congrArg DockRecord.insertionOrder hcore :).trans horder, ?_,
      fun hlen => hchatter (hseven hlen), hentry, htold _ ?_, htold _ ?_, fun hforced => htold _ ?_, fun c hc => htold _ ?_⟩
    · refine (congrArg DockRecord.chatter hcore :).trans ?_
      rw [← hkept, ← hchatters]
      rfl
    · rw [← hbike]
      simp [State.decisionTold, DockRecord.read]
    · simp [State.decisionTold]
    · cases hclaim : s.claimOn d with
      | none => simp [State.decisionTold, hclaim]
      | some c => simp [State.decisionTold, hclaim, hforced c hclaim]
    · rw [← hbike]
      simp [State.decisionTold, hc, DockRecord.read]
  case firstOccupied =>
    intro hunknown hcand hup
    have hdec : (detect r.occupancy r.candidate q.sense (r.baseline.getD q.emptyRef + s.store.live.threshold)
        (r.baseline.getD q.emptyRef + s.store.live.threshold - s.store.live.hysteresis)).2 = .firstOccupied := by
      simp [detect, hunknown, hcand, hup]
    obtain ⟨t, r', x, hexec, hrecord, hcore, hcounter, htold, -⟩ :=
      report_decides hrun h hx (wantsTag_of_not_occupied (by simp [hunknown])) hdec
    exact ⟨t, r', hexec, hrecord, (congrArg DockRecord.occupancy hcore :), (congrArg DockRecord.insertionOrder hcore :), hcounter,
      (congrArg DockRecord.returnEntry hcore :), (congrArg DockRecord.unrecorded hcore :), (congrArg DockRecord.reportWindow hcore :),
      (congrArg DockRecord.bike hcore :), (congrArg DockRecord.chatter hcore :), (congrArg DockRecord.crewWindow hcore :),
      htold _ (List.mem_singleton.mpr rfl)⟩
  case firstEmpty =>
    intro hunknown hcand hlow
    have hnot : ¬ r.baseline.getD q.emptyRef + s.store.live.threshold ≤ q.sense := by omega
    have hdec : (detect r.occupancy r.candidate q.sense (r.baseline.getD q.emptyRef + s.store.live.threshold)
        (r.baseline.getD q.emptyRef + s.store.live.threshold - s.store.live.hysteresis)).2 = .firstEmpty := by
      simp [detect, hunknown, hcand, hlow, hnot]
    obtain ⟨t, r', x, hexec, hrecord, hcore, hcounter, htold, -⟩ :=
      report_decides hrun h hx (wantsTag_of_not_occupied (by simp [hunknown])) hdec
    exact ⟨t, r', hexec, hrecord, (congrArg DockRecord.occupancy hcore :), (congrArg DockRecord.insertionOrder hcore :),
      hcounter.trans (add_zero _), (congrArg DockRecord.returnEntry hcore :), (congrArg DockRecord.unrecorded hcore :),
      (congrArg DockRecord.reportWindow hcore :), (congrArg DockRecord.bike hcore :), (congrArg DockRecord.chatter hcore :),
      (congrArg DockRecord.crewWindow hcore :), htold _ (List.mem_singleton.mpr rfl)⟩
  case tags =>
    have hw : r.wantsTag = true := by simp [DockRecord.wantsTag, hocc, hbike, hunread, hconflict]
    refine ⟨fun k hk hfree => ?taken, fun k e x y hk hother hx hy hid => ?conflict, fun hk hwait => ?unread, fun hk hwait => ?missed⟩
    case taken =>
      have hnot : s.heldElsewhere d k.id = false := by
        refine Bool.eq_false_iff.mpr fun hheld => ?_
        obtain ⟨e, x, y, hother, hx, hy, hid⟩ := heldElsewhere_iff.mp hheld
        exact hfree e x y hother hx hy hid
      obtain ⟨hturns, hentry, harrival, htaken⟩ := report_tag_taken h hw hk hnot
      obtain ⟨t, r', hexec, hrecord, hgrown, hheld⟩ := report_occupied hrun h hturns hocc
      refine ⟨t, r', hexec, hrecord, hheld.elim (fun k => k.2.2) fun k => k.2.2.2, hheld.elim (fun k => k.2.1) fun k => k.2.2.1,
        fun hstill => ?_, fun e he => hgrown _ (hentry e he), hgrown _ harrival, hgrown _ htaken⟩
      rcases hheld with ⟨hkept, -⟩ | ⟨hempty, -⟩
      · exact hkept
      · exact absurd (hempty.symm.trans hstill) (by decide)
    case conflict =>
      exact report_tagless hrun h hocc hbike
        (report_tag_conflict h hw hk (heldElsewhere_iff.mpr ⟨e, x, y, hother, hx, hy, hid⟩))
    case unread => exact report_tagless hrun h hocc hbike (report_tag_unread h hw hk hwait)
    case missed =>
      obtain ⟨t, r', hexec, hrecord, -, hheld⟩ := report_occupied hrun h (report_tag_missed h hw hk hwait) hocc
      refine ⟨t, r', hexec, hrecord, hheld.elim (fun k => k.1.trans hbike) fun k => k.2.1, fun hstill => ?_⟩
      rcases hheld with ⟨-, hentry, htag⟩ | ⟨hempty, -⟩
      · exact ⟨htag, hentry⟩
      · exact absurd (hempty.symm.trans hstill) (by decide)

end Sys2Proof.Machine
end


section
/-! Proofs. What runs out at a dock, and the course of a claim (R26, R28, R78 to R83, R93, R94). -/

namespace Sys2Proof.Machine

/-! ### Windows and the grace list -/

theorem modify_eq_set {α : Type} {l : List α} {d : Nat} {a : α} (f : α → α) (h : l[d]? = some a) : l.modify d f = l.set d (f a) := by
  rw [List.modify_eq_set_getElem?, h]
  rfl

theorem set_same {α : Type} {l : List α} {d : Nat} {a : α} (h : l[d]? = some a) : l.set d a = l := by
  obtain ⟨hd, rfl⟩ := List.getElem?_eq_some_iff.mp h
  exact List.set_getElem_self hd

theorem onDock_eq {s : State} {d : DockNo} {r : DockRecord} (f : DockRecord → DockRecord) (h : s.dock? d = some r) :
    s.onDock d f = { s with dock := { s.dock with table := s.dock.table.set d (f r) } } := by
  unfold State.onDock State.onDocks
  rw [← modify_eq_set f h]

theorem exec_reportWindowDeadline {s : State} {d : DockNo} {r : DockRecord} (h : s.ready) (hr : s.dock? d = some r) :
    exec (.reportWindowDeadline d) s = .next { s.taking (.reportWindowDeadline d) with
      dock := { s.dock with
        table := s.dock.table.set d (if s.reached r.reportWindow then { r with reportWindow := none } else r) } } := by
  simp only [exec, execReportWindowDeadline]
  refine ready_next h _ (onDock_eq _ ?_) rfl
  exact hr

theorem exec_crewWindowDeadline {s : State} {d : DockNo} {r : DockRecord} {w : CrewWindow} (h : s.ready) (hr : s.dock? d = some r)
    (hw : r.crewWindow = some w) :
    (w.deadline ≤ s.now → exec (.crewWindowDeadline d) s = .next { s.taking (.crewWindowDeadline d) with
      dock := { s.dock with table := s.dock.table.set d { r with crewWindow := none } }
      order := { s.order with session := s.order.session.map fun v => { v with windows := v.windows.filter (· != d) } } })
    ∧ (¬ w.deadline ≤ s.now → exec (.crewWindowDeadline d) s = .next (s.taking (.crewWindowDeadline d))) := by
  have hat : (s.taking (.crewWindowDeadline d)).dock? d = some r := hr
  have hreached : ((s.taking (.crewWindowDeadline d)).dock? d).any
      (fun r => (s.taking (.crewWindowDeadline d)).reached (r.crewWindow.map (·.deadline))) = decide (w.deadline ≤ s.now) := by
    rw [hat, Option.any_some, hw]
    rfl
  simp only [exec, execCrewWindowDeadline]
  refine ⟨fun hle => ready_next h _ ?_ rfl, fun hnot => ready_next h _ ?_ rfl⟩
  · rw [hreached, if_pos (decide_eq_true hle), onDock_eq _ hat]
    rfl
  · rw [hreached, if_neg (by simpa using hnot)]

/-- Settles O24: a deadline is reached or not, and the grace list is filtered. -/
theorem windowsAndGraceRunOut : Obligations.WindowsAndGraceRunOut := by
  refine ⟨fun s d r at_ hready hr => ⟨fun hwindow => ?report, fun w hwindow => ?crew⟩, fun s bike hready => ⟨?expiry, ?taken, ?written⟩⟩
  case report =>
    rw [exec_reportWindowDeadline hready hr]
    have hreached : s.reached r.reportWindow = decide (at_ ≤ s.now) := by rw [hwindow]; rfl
    by_cases hle : at_ ≤ s.now
    · simp only [hreached, decide_eq_true hle, if_true, if_pos hle]
      rfl
    · simp only [hreached, decide_eq_false hle, Bool.false_eq_true, if_false, if_neg hle, set_same hr]
      rfl
  case crew =>
    obtain ⟨hdue, hearly⟩ := exec_crewWindowDeadline hready hr hwindow
    by_cases hle : w.deadline ≤ s.now
    · simp only [if_pos hle]
      exact hdue hle
    · simp only [if_neg hle]
      exact hearly hle
  case expiry =>
    simp only [exec, execGraceExpiry]
    exact ready_next hready _ rfl rfl
  case taken =>
    simp only [exec, execBikeTakenNotice]
    exact ready_next hready _ rfl rfl
  case written =>
    simp only [OnlyTaken, exec, execBikeTakenNotice]
    exact taken_only hready rfl

/-! ### The course of a claim -/

/-- An act whose effect is none only takes its command out of the work handed on. -/
theorem onlyTaken_of_same {i : Instr} {s : State} {f : State → State} (h : s.ready) (he : exec i s = act i s f)
    (hf : f (s.taking i) = s.taking i) : OnlyTaken i s := by
  rw [OnlyTaken, he]
  exact taken_only h hf

/-- Settles O25: each lock state in each state of the claim. -/
theorem claimsFollowTheLock : Obligations.ClaimsFollowTheLock := by
  intro s c lock done hready hstands
  have hclaim := stands_taking (.claimLockChange c.dock lock done) hstands
  cases hstate : c.state with
  | reserved => exact onlyTaken_of_same hready (by simp only [exec, execClaimLockChange]; rfl) (by simp only [hclaim, hstate])
  | orphan => exact onlyTaken_of_same hready (by simp only [exec, execClaimLockChange]; rfl) (by simp only [hclaim, hstate])
  | releaseSent =>
    cases lock with
    | locked => exact onlyTaken_of_same hready (by simp only [exec, execClaimLockChange]; rfl) (by simp only [hclaim, hstate])
    | failed =>
      refine ends_of hready (by simp only [exec, execClaimLockChange]; rfl) ?_
      simp only [hclaim, hstate]
      rfl
    | opened =>
      refine moves_of hready (by simp only [exec, execClaimLockChange]; rfl) ?_
      simp only [hclaim, hstate]
      rw [State.released, onClaim_stands hstands _ (s.taking _) rfl, tellOwner_eq, postAll_nil]
      rfl
  | released =>
    cases lock with
    | locked =>
      refine ends_of hready (by simp only [exec, execClaimLockChange]; rfl) ?_
      simp only [hclaim, hstate, postAll_nil]
      rfl
    | opened | failed => exact onlyTaken_of_same hready (by simp only [exec, execClaimLockChange]; rfl) (by simp only [hclaim, hstate])
  | relocking =>
    cases lock with
    | locked =>
      refine ends_of hready (by simp only [exec, execClaimLockChange]; rfl) ?_
      simp only [hclaim, hstate, postAll_nil]
      rfl
    | failed =>
      refine moves_of hready (by simp only [exec, execClaimLockChange]; rfl) ?_
      simp only [hclaim, hstate]
      rw [State.jam, onClaim_stands hstands _ ((s.taking _).raiseLockJam c) rfl, postAll_nil]
      rfl
    | opened => exact onlyTaken_of_same hready (by simp only [exec, execClaimLockChange]; rfl) (by simp only [hclaim, hstate])
  | jammedOpen =>
    cases lock with
    | locked =>
      refine ends_of hready (by simp only [exec, execClaimLockChange]; rfl) ?_
      simp only [hclaim, hstate, postAll_nil]
      rfl
    | opened | failed => exact onlyTaken_of_same hready (by simp only [exec, execClaimLockChange]; rfl) (by simp only [hclaim, hstate])

end Sys2Proof.Machine
end


section
/-! Proofs. The deadlines of a claim, a cleared jam, an orphan at join completion (R79 to R83). -/

namespace Sys2Proof.Machine

section deadlines
variable {s : State} {c : Claim} (i : Instr) (h : stands s c)
include h

theorem dueClaim_none {d : Elapsed} {st : ClaimState} (hd : c.deadline = some d) (hnot : s.now < d ∨ c.state ≠ st) :
    (s.taking i).dueClaim c.dock st = none := by
  rcases hnot with hearly | hstate
  · exact dueClaim_early i h hd hearly st
  · unfold State.dueClaim
    rw [stands_taking i h]
    simp [Option.filter, hstate]

/-- The relocking of a claim (R80, R83). -/
theorem relock_eq {u : State} (hu : u.release = s.release) :
    u.relock c = ((u.onClaim c.dock fun _ => { c with
      state := .relocking, orphanCause := none, deadline := some (u.now + 5) }).setCommand c.dock .relock).tellDock c.dock := by
  rw [State.relock, onClaim_stands h _ u hu]
  rfl

end deadlines

theorem releaseDeadline_due {s : State} {c : Claim} {d : Elapsed} (hready : s.ready) (h : stands s c) (hd : c.deadline = some d)
    (hstate : c.state = .releaseSent) (hle : d ≤ s.now) : EndsUntaken (.releaseDeadline c.dock) s c .relock .failed [jamRaise c] := by
  refine ends_of hready (by simp only [exec, execReleaseDeadline]; rfl) ?_
  simp only [dueClaim_reached _ h hd hle hstate]
  rfl

theorem takeWindow_relocks {s : State} {c : Claim} {r : DockRecord} {d : Elapsed} (hready : s.ready) (h : stands s c)
    (hr : s.dock? c.dock = some r) (hd : c.deadline = some d) (hstate : c.state = .released) (hle : d ≤ s.now) (hlink : r.link ≠ .lost) :
    MovesClaim (.takeWindowDeadline c.dock) s c
      { c with state := .relocking, orphanCause := none, deadline := some (s.now + 5) } .relock [] [] := by
  have hat : (s.taking (.takeWindowDeadline c.dock)).dock? c.dock = some r := hr
  refine moves_of hready (by simp only [exec, execTakeWindowDeadline]; rfl) ?_
  simp only [dueClaim_reached _ h hd hle hstate, hat, Option.any_some, beq_eq_false_iff_ne.mpr hlink, Bool.false_eq_true, if_false]
  rw [relock_eq h (u := s.taking _) rfl, postAll_nil, postAll_nil]
  rfl

theorem takeWindow_orphans {s : State} {c : Claim} {r : DockRecord} {d : Elapsed} (hready : s.ready) (h : stands s c)
    (hr : s.dock? c.dock = some r) (hd : c.deadline = some d) (hstate : c.state = .released) (hle : d ≤ s.now) (hlink : r.link = .lost) :
    MovesClaim (.takeWindowDeadline c.dock) s c { c with state := .orphan, orphanCause := some .link, deadline := none } r.command []
      (if c.kind = .van then [.vanClaimNotice c.dock (c.order.getD 0) .orphaned] else []) := by
  have hat : (s.taking (.takeWindowDeadline c.dock)).dock? c.dock = some r := hr
  refine moves_of hready (by simp only [exec, execTakeWindowDeadline]; rfl) ?_
  simp only [dueClaim_reached _ h hd hle hstate, hat, Option.any_some, beq_iff_eq.mpr hlink, if_true]
  have hsame : (((s.taking (.takeWindowDeadline c.dock)).postAll []).onClaim c.dock fun _ =>
      { c with state := .orphan, orphanCause := some .link, deadline := none }).setCommand c.dock r.command =
      (s.taking (.takeWindowDeadline c.dock)).onClaim c.dock fun _ =>
        { c with state := .orphan, orphanCause := some .link, deadline := none } := by
    rw [postAll_nil]
    exact setCommand_same hat
  rw [hsame, State.orphan, onClaim_stands h _ (s.taking _) rfl]
  by_cases hkind : c.kind = .van
  · simp only [if_pos hkind]
    rfl
  · simp only [if_neg hkind, postAll_nil]

theorem relockDeadline_lapses {s : State} {c : Claim} {r : DockRecord} {d : Elapsed} (hready : s.ready) (h : stands s c)
    (hr : s.dock? c.dock = some r) (hd : c.deadline = some d) (hstate : c.state = .relocking) (hle : d ≤ s.now)
    (hcommand : r.command = .none) (hlock : r.lock = .locked) : EndsUntaken (.relockDeadline c.dock) s c .none .lapsed [] := by
  have hat : (s.taking (.relockDeadline c.dock)).dock? c.dock = some r := hr
  have hlocked : (r.command == .none && r.lock == .locked) = true := by rw [hcommand, hlock]; rfl
  refine ends_of hready (by simp only [exec, execRelockDeadline]; rfl) ?_
  simp only [dueClaim_reached _ h hd hle hstate, hat, Option.any_some, hlocked, if_true, postAll_nil]
  rfl

theorem relockDeadline_jams {s : State} {c : Claim} {r : DockRecord} {d : Elapsed} (hready : s.ready) (h : stands s c)
    (hr : s.dock? c.dock = some r) (hd : c.deadline = some d) (hstate : c.state = .relocking) (hle : d ≤ s.now)
    (hnot : r.command ≠ .none ∨ r.lock ≠ .locked) :
    MovesClaim (.relockDeadline c.dock) s c { c with state := .jammedOpen, deadline := none } .none [jamRaise c] [] := by
  have hat : (s.taking (.relockDeadline c.dock)).dock? c.dock = some r := hr
  have hunlocked : (r.command == .none && r.lock == .locked) = false := by
    rw [Bool.and_eq_false_iff, beq_eq_false_iff_ne, beq_eq_false_iff_ne]
    exact hnot
  refine moves_of hready (by simp only [exec, execRelockDeadline]; rfl) ?_
  simp only [dueClaim_reached _ h hd hle hstate, hat, Option.any_some, hunlocked, Bool.false_eq_true, if_false]
  rw [State.jam, onClaim_stands h _ ((s.taking _).raiseLockJam c) rfl, postAll_nil]
  rfl

/-! ### Orphans -/

/-- A RELOCK follows an orphan whose holder is free (R83). -/
theorem reconcile_relocks {s : State} {c : Claim} {lock : LockState} (hlock : lock ≠ .locked)
    (hfree : c.kind ≠ .van ∧ ¬ c.holder.any (s.releasingHolder · (some c.dock))) : s.reconcile c lock = s.relock c := by
  cases lock with
  | locked => exact absurd rfl hlock
  | opened | failed => exact if_pos hfree

theorem reconcile_lapses {s : State} {c : Claim} {lock : LockState} (hlock : lock ≠ .locked)
    (hbound : ¬ (c.kind ≠ .van ∧ ¬ c.holder.any (s.releasingHolder · (some c.dock)))) :
    s.reconcile c lock = s.lapse c .relock := by
  cases lock with
  | locked => exact absurd rfl hlock
  | opened | failed => exact if_neg hbound

theorem holderBusy_iff (s : State) (c : Claim) : c.holder.any (s.releasingHolder · (some c.dock)) = true ↔
    ∃ h, c.holder = some h ∧ ∃ x ∈ s.release.claims, x.state.releasing = true ∧ x.holder = some h ∧ x.dock ≠ c.dock := by
  rw [Option.any_eq_true]
  simp only [releasingHolder_iff]

section orphans
variable {s : State} {c : Claim} {lock : LockState} (hready : s.ready) (h : stands s c)
include hready h

theorem orphanReconcile_relocks (horphan : c.state = .orphan) (hlock : lock ≠ .locked)
    (hfree : c.kind ≠ .van ∧ ¬ c.holder.any (s.releasingHolder · (some c.dock))) :
    MovesClaim (.orphanReconcile c.dock .occupied lock) s c
      { c with state := .relocking, orphanCause := none, deadline := some (s.now + 5) } .relock [] [] := by
  refine moves_of hready (by simp only [exec, execOrphanReconcile]; rfl) ?_
  simp only [stands_taking _ h, horphan, and_self, if_true]
  rw [reconcile_relocks (s := s.taking _) hlock (by exact hfree), relock_eq h (u := s.taking _) rfl, postAll_nil, postAll_nil]
  rfl

theorem orphanReconcile_lapses (horphan : c.state = .orphan) (hlock : lock ≠ .locked)
    (hbound : ¬ (c.kind ≠ .van ∧ ¬ c.holder.any (s.releasingHolder · (some c.dock)))) :
    EndsUntaken (.orphanReconcile c.dock .occupied lock) s c .relock .lapsed [] := by
  refine ends_of hready (by simp only [exec, execOrphanReconcile]; rfl) ?_
  simp only [stands_taking _ h, horphan, and_self, if_true]
  rw [reconcile_lapses (s := s.taking _) hlock (by exact hbound), postAll_nil]
  rfl

theorem orphanReconcile_locked (horphan : c.state = .orphan) :
    EndsUntaken (.orphanReconcile c.dock .occupied .locked) s c .none .lapsed [] := by
  refine ends_of hready (by simp only [exec, execOrphanReconcile]; rfl) ?_
  simp only [stands_taking _ h, horphan, and_self, if_true, postAll_nil]
  rfl

theorem orphanReconcile_idle (occupancy : Occupancy) (hnot : ¬ (c.state = .orphan ∧ occupancy = .occupied)) :
    OnlyTaken (.orphanReconcile c.dock occupancy lock) s := by
  refine onlyTaken_of_same hready (by simp only [exec, execOrphanReconcile]; rfl) ?_
  simp only [stands_taking _ h, if_neg hnot]

theorem lockJamCleared_lapses (hjammed : c.state = .jammedOpen) : EndsUntaken (.lockJamCleared c.dock) s c .relock .lapsed [] := by
  refine ends_of hready (by simp only [exec, execLockJamCleared]; rfl) ?_
  simp only [stands_taking _ h, if_pos hjammed, postAll_nil]
  rfl

theorem lockJamCleared_idle (hnot : c.state ≠ .jammedOpen) : OnlyTaken (.lockJamCleared c.dock) s := by
  refine onlyTaken_of_same hready (by simp only [exec, execLockJamCleared]; rfl) ?_
  simp only [stands_taking _ h, if_neg hnot]

end orphans

/-- Settles O26: each deadline as it is reached or not, a jam as it clears, and an orphan by what its dock shows. -/
theorem claimDeadlinesJamsAndOrphans : Obligations.ClaimDeadlinesJamsAndOrphans := by
  refine ⟨fun s c r d hready hstands hr hd => ⟨?release, ?relocks, ?orphans, ?lapses, ?jams, ?early⟩, fun s c lock hready hstands =>
    ⟨lockJamCleared_lapses hready hstands, lockJamCleared_idle hready hstands, orphanReconcile_locked hready hstands, ?free, ?bound,
      ?unorphaned, ?empty, ?unknown⟩⟩
  case release => exact fun hstate hle => releaseDeadline_due hready hstands hd hstate hle
  case relocks => exact fun hstate hle hlink => takeWindow_relocks hready hstands hr hd hstate hle hlink
  case orphans => exact fun hstate hle hlink => takeWindow_orphans hready hstands hr hd hstate hle hlink
  case lapses => exact fun hstate hle hcommand hlock => relockDeadline_lapses hready hstands hr hd hstate hle hcommand hlock
  case jams => exact fun hstate hle hnot => relockDeadline_jams hready hstands hr hd hstate hle hnot
  case early =>
    refine ⟨fun hnot => ?_, fun hnot => ?_, fun hnot => ?_⟩
    · exact onlyTaken_of_same hready (by simp only [exec, execReleaseDeadline]; rfl)
        (by simp only [dueClaim_none _ hstands hd hnot])
    · exact onlyTaken_of_same hready (by simp only [exec, execTakeWindowDeadline]; rfl)
        (by simp only [dueClaim_none _ hstands hd hnot])
    · exact onlyTaken_of_same hready (by simp only [exec, execRelockDeadline]; rfl)
        (by simp only [dueClaim_none _ hstands hd hnot])
  case free =>
    refine fun horphan hlock hkind halone => orphanReconcile_relocks hready hstands horphan hlock ⟨hkind, fun hbusy => ?_⟩
    obtain ⟨h, hholder, x, hx, hreleasing, hsame, hother⟩ := (holderBusy_iff s c).mp hbusy
    exact hother (halone h hholder x hx hreleasing hsame)
  case bound =>
    refine fun horphan hlock hbound => orphanReconcile_lapses hready hstands horphan hlock fun hfree => ?_
    exact hbound.elim hfree.1 fun hbusy => hfree.2 ((holderBusy_iff s c).mpr hbusy)
  case unorphaned => exact fun hnot => orphanReconcile_idle hready hstands _ fun h => hnot h.1
  case empty => exact orphanReconcile_idle hready hstands _ (by simp)
  case unknown => exact orphanReconcile_idle hready hstands _ (by simp)

end Sys2Proof.Machine
end


section
/-! Proofs. Arrivals at the Journal Unit: what an arrival leaves behind its own change, and the notices of a fall (R121 to R126). -/

namespace Sys2Proof.Machine

/-! ### An arrival -/

/-- The notices that join at a fall from this slack, as the state is left (R125, R126). -/
def State.noticed (u : State) (before : Int) (margin : Nat) : State :=
  let v := if before > margin ∧ u.slack ≤ margin then u.join .journalYellow else u
  if before ≥ 2 ∧ u.slack < 2 then v.join .journalTight else v

theorem journalArrival_eq (s : State) (f : State → State) :
    s.journalArrival f = (f s).admitWithheld.noticed s.slack s.settings.yellowMargin := rfl

theorem noticed_only (u : State) (before : Int) (margin : Nat) : Only [.host] u (u.noticed before margin) := by
  unfold State.noticed
  dsimp only
  split <;> split <;> simp

theorem noticed_calm {u : State} {before : Int} (margin : Nat) (h : before ≤ u.slack) : u.noticed before margin = u := by
  unfold State.noticed
  dsimp only
  rw [if_neg, if_neg]
  · rintro ⟨htwo, hfall⟩
    omega
  · rintro ⟨htwo, hfall⟩
    omega

theorem slack_of_parts {s t : State} (hjournal : t.journal = s.journal) (hstore : t.store = s.store) : t.slack = s.slack := by
  unfold State.slack State.journalSize
  rw [hjournal, hstore]

theorem noticed_slack (u : State) (before : Int) (margin : Nat) : (u.noticed before margin).slack = u.slack :=
  slack_of_parts (noticed_only u before margin .journal (by decide)) (noticed_only u before margin .store (by decide))

/-- R125, R126: the two notices stand in the notice set once the slack has fallen. -/
theorem noticed_inSet (u : State) (before : Int) (margin : Nat) :
    (before > margin → u.slack ≤ margin → NoticeKind.journalYellow.inSet (u.noticed before margin).host.noticeSet = true)
      ∧ (before ≥ 2 → u.slack < 2 → NoticeKind.journalTight.inSet (u.noticed before margin).host.noticeSet = true) := by
  have hjoin : ∀ (v : State) (k : NoticeKind), k.inSet (v.join k).host.noticeSet = true := fun v k => by
    rw [join_host, join_noticeSet]
    exact inSet_or _ _
  have hkept : ∀ (v : State) (k l : NoticeKind), k.inSet v.host.noticeSet = true → k.inSet (v.join l).host.noticeSet = true :=
    fun v k l h => by
      rw [join_host, join_noticeSet]
      exact inSet_mono _ _ _ h
  unfold State.noticed
  dsimp only
  refine ⟨fun hbefore hafter => ?_, fun hbefore hafter => ?_⟩
  · rw [if_pos (c := before > margin ∧ u.slack ≤ margin) ⟨hbefore, hafter⟩]
    split
    · exact hkept _ _ _ (hjoin _ _)
    · exact hjoin _ _
  · rw [if_pos ⟨hbefore, hafter⟩]
    exact hjoin _ _

/-! ### The work of an arrival -/

/-- What admissions keep: the entries, the rooms in hand, the blocks beside the docks and the journal, and the work handed on. -/
structure Admits (s t : State) : Prop where
  entries : t.journal.entries = s.journal.entries
  vanBooked : t.journal.vanBooked = s.journal.vanBooked
  inHand : t.journal.inHand = s.journal.inHand
  adds : Adds s t
  only : Only [.inFlight, .dock, .journal] s t

theorem Admits.trans {s t u : State} (h : Admits s t) (k : Admits t u) : Admits s u :=
  ⟨k.entries.trans h.entries, k.vanBooked.trans h.vanBooked, k.inHand.trans h.inHand, h.adds.trans k.adds, h.only.trans k.only⟩

theorem admits_admitDock (s : State) (d : DockNo) : Admits s (s.admitDock d) := by
  have hadds : Adds s (s.admitDock d) := by
    unfold State.admitDock
    dsimp only
    split
    · rw [postPass_eq]
      exact List.prefix_append _ _
    · exact Adds.refl s
  refine ⟨admitDock_entries s d, ?_, ?_, hadds, by simp⟩
  · unfold State.admitDock
    dsimp only
    split
    · rw [postPass_eq]
      rfl
    · rfl
  · unfold State.admitDock
    dsimp only
    split
    · rw [postPass_eq]
      rfl
    · rfl

theorem admits_admitWithheld (s : State) : Admits s s.admitWithheld :=
  admitUpTo_keeps (P := fun t => Admits s t) (fun t d ht => ht.trans (admits_admitDock t d)) _
    ⟨rfl, rfl, rfl, Adds.refl s, Only.refl _ s⟩

theorem admitWithheld_of_none {s : State} (h : s.journal.withheld = []) : s.admitWithheld = s := by
  unfold State.admitWithheld
  rw [h]
  rfl

/-- An arrival with no dock withheld: its own change and the notices of a fall. -/
theorem journalArrival_of_none {s : State} {f : State → State} (h : (f s).journal.withheld = []) :
    s.journalArrival f = (f s).noticed s.slack s.settings.yellowMargin := by
  rw [journalArrival_eq, admitWithheld_of_none h]

/-- An arrival that leaves no less slack notices nothing. -/
theorem journalArrival_calm {s : State} {f : State → State} (h : (f s).journal.withheld = []) (hslack : s.slack ≤ (f s).slack) :
    s.journalArrival f = f s := by
  rw [journalArrival_of_none h, noticed_calm _ hslack]

theorem journalArrival_only (s : State) (f : State → State) : Only [.host] (f s).admitWithheld (s.journalArrival f) :=
  noticed_only _ _ _

theorem slack_taking (s : State) (i : Instr) : (s.taking i).slack = s.slack := rfl

/-- R125, R126: an arrival notices a fall of the slack, whatever is sent beside. -/
theorem fall_of_arrival {s t : State} {c : Instr} {f : State → State}
    (hset : t.host.noticeSet = ((s.taking c).journalArrival f).host.noticeSet)
    (hslack : t.slack = ((s.taking c).journalArrival f).slack) : FallIsNoticed s t := by
  obtain ⟨hyellow, htight⟩ := noticed_inSet ((f (s.taking c)).admitWithheld) s.slack s.settings.yellowMargin
  rw [journalArrival_eq, noticed_slack] at hslack
  rw [FallIsNoticed, hset, hslack, journalArrival_eq]
  exact ⟨hyellow, fun hbefore hafter => htight hbefore hafter⟩

end Sys2Proof.Machine
end


section
/-! Proofs. Bookings and counts at the Journal Unit (R121, R122). -/

namespace Sys2Proof.Machine

theorem slack_inHand (s : State) (l : List DockNo) : (s.onJournal fun j => { j with inHand := l }).slack =
    s.slack + 2 * s.journal.inHand.length - 2 * l.length := by
  unfold State.slack State.onJournal State.journalSize Journal.bookedEntries Journal.reserve Journal.used
  dsimp only
  push_cast
  omega

theorem exec_bookingRequest {s : State} {d : DockNo} {q : ClaimRequest} (hready : s.ready) (hq : s.requestOn d = some q) :
    exec (.bookingRequest d) s = act (.bookingRequest d) s fun u =>
      if u.slack < 2 then u.post (.claimGrant d .tight)
      else (u.journalArrival (·.onJournal fun j => { j with inHand := j.inHand ++ [d] })).post
        (if q.kind = .member then .charge d q.holder else .claimGrant d .free) := by
  have hat : (s.taking (.bookingRequest d)).requestOn d = some q := hq
  simp only [exec, execBookingRequest]
  rw [act_running hready.1, act_running hready.1, hat]

/-- An act that ends with a piece of work behind an arrival of the Journal Unit. -/
theorem arrival_parts {s t : State} {c : Instr} {f : State → State} {work : List Instr}
    (ht : t = (((s.taking c).journalArrival f).postAll work).onHost HostLink.beginSending)
    (hnone : (f (s.taking c)).journal.withheld = []) :
    t.journal = (f (s.taking c)).journal ∧ t.slack = (f (s.taking c)).slack
      ∧ t.inFlight = (f (s.taking c)).inFlight ++ work ∧ FallIsNoticed s t ∧ Only [.host, .inFlight] (f (s.taking c)) t := by
  have heq : (s.taking c).journalArrival f = (f (s.taking c)).noticed s.slack s.settings.yellowMargin := journalArrival_of_none hnone
  have hnoticed := noticed_only (f (s.taking c)) s.slack s.settings.yellowMargin
  have hjournal : t.journal = (f (s.taking c)).journal := by
    rw [ht, heq]
    exact hnoticed .journal (by decide)
  have hstore : t.store = (f (s.taking c)).store := by
    rw [ht, heq]
    exact hnoticed .store (by decide)
  have hinFlight : ((s.taking c).journalArrival f).inFlight = (f (s.taking c)).inFlight := by
    rw [heq]
    exact hnoticed .inFlight (by decide)
  refine ⟨hjournal, slack_of_parts hjournal hstore, ?_, fall_of_arrival (c := c) (f := f) ?_ ?_, ?_⟩
  · rw [ht, ← hinFlight]
    rfl
  · rw [ht]
    exact beginSending_noticeSet _
  · rw [ht]
    rfl
  · rw [ht, heq]
    exact (hnoticed.mono (by simp)).trans (by simp)

theorem tellAccount_eq (s : State) (d : DockNo) (c : CountChange) : s.tellAccount d c = { s with journal := { s.journal with
    account := s.journal.account.modify d c.apply
    inHand := if c = .booked true then s.journal.inHand.erase d else s.journal.inHand } } := by
  unfold State.tellAccount
  dsimp only
  split <;> rfl

theorem countChange_apply (c : CountChange) : c.apply = fun a => match c with
    | .slot b => { a with slotOpen := b }
    | .occupancy o => { a with occupancy := o, passed := a.passed || (o == .empty && a.booked) }
    | .inserted => { a with occupancy := .occupied, owed := true }
    | .booked b => { a with booked := b, passed := false } := by
  funext a
  cases c <;> rfl

/-- Settles O40: each arrival by its change, with no dock withheld. -/
theorem bookingsAndCounts : Obligations.BookingsAndCounts := by
  refine fun s hready => ⟨fun d q hq => ⟨fun hlow => ?tight, fun hroom hnone => ?granted⟩, fun d hin hnone => ?givenBack,
    fun d c hnone => ?counted⟩
  case tight =>
    rw [exec_bookingRequest hready hq]
    exact ready_next hready _ (if_pos hlow) rfl
  case granted =>
    have hexec := exec_bookingRequest hready hq
    rw [act_running hready.1, if_neg (by rw [slack_taking]; omega)] at hexec
    obtain ⟨hjournal, hslack, hinFlight, hfall, honly⟩ := arrival_parts (s := s) (c := .bookingRequest d)
      (f := (·.onJournal fun j => { j with inHand := j.inHand ++ [d] }))
      (work := [if q.kind = .member then .charge d q.holder else .claimGrant d .free]) rfl hnone
    have hsum := slack_inHand (s.taking (.bookingRequest d)) (s.journal.inHand ++ [d])
    rw [List.length_append, List.length_singleton] at hsum
    refine ⟨_, hexec, hjournal, hslack.trans (hsum.trans ?_), hinFlight, hfall, ?_⟩
    · push_cast
      change s.slack + 2 * s.journal.inHand.length - 2 * (s.journal.inHand.length + 1) = _
      omega
    · exact Only.trans (by simp) (honly.mono (by simp))
  case givenBack =>
    have hsum := slack_inHand (s.taking (.bookingGivenBack d)) (s.journal.inHand.erase d)
    rw [List.length_erase_of_mem hin] at hsum
    have hpos := List.length_pos_of_mem hin
    simp only [exec, execBookingGivenBack]
    refine ready_next hready _ (journalArrival_calm hnone ?_) rfl
    refine le_of_le_of_eq ?_ hsum.symm
    change s.slack ≤ s.slack + 2 * (s.journal.inHand.length : Int) - 2 * ((s.journal.inHand.length - 1 : Nat) : Int)
    omega
  case counted =>
    have hexec : exec (.journalCountNotice d c) s = .next
        (((s.taking (.journalCountNotice d c)).journalArrival (·.tellAccount d c)).onHost HostLink.beginSending) := by
      simp only [exec, execJournalCountNotice]
      rw [act_running hready.1]
    have hwithheld : ((s.taking (.journalCountNotice d c)).tellAccount d c).journal.withheld = [] := by
      rw [tellAccount_eq]
      exact hnone
    obtain ⟨hjournal, -, hinFlight, hfall, honly⟩ := arrival_parts (s := s) (c := .journalCountNotice d c)
      (f := (·.tellAccount d c)) (work := []) (by rw [postAll_nil]) hwithheld
    rw [List.append_nil] at hinFlight
    refine ⟨_, hexec, hjournal.trans ?_, hfall, ?_, ?_⟩
    · rw [tellAccount_eq, countChange_apply]
      rfl
    · rw [HandedOn, hinFlight, tellAccount_eq, List.append_nil]
      rfl
    · exact Only.trans (by simp) (honly.mono (by simp))

end Sys2Proof.Machine
end


section
/-! Proofs. The admission of withheld docks (R39, R124). -/

namespace Sys2Proof.Machine

/-! ### One admission -/

/-- The record of an admitted dock (R39, R43). -/
def DockRecord.admittedAt (r : DockRecord) (s : State) (d : DockNo) : DockRecord :=
  { r with
    commanded := .opened, withheld := false
    lamp := lampByTable s.dock.caps (s.claimOn d) { r with commanded := .opened } }

/-- The state once a dock is admitted (R39, R124). -/
def State.admitting (s : State) (d : DockNo) (r : DockRecord) : State :=
  { s with
    dock := { s.dock with table := s.dock.table.set d (r.admittedAt s d) }
    journal := { s.journal with
      withheld := s.journal.withheld.erase d, account := s.journal.account.modify d fun a => { a with slotOpen := true } }
    inFlight := s.inFlight ++ passDue s }

theorem relamp_eq {s : State} {d : DockNo} {r : DockRecord} (h : s.dock? d = some r) : s.relamp d = { s with
    dock := { s.dock with table := s.dock.table.set d { r with lamp := lampByTable s.dock.caps (s.claimOn d) r } } } := by
  rw [State.relamp, onDock_eq _ h, lampOf_eq_table]

/-- The withheld flag does not enter the table the lamp is read from. -/
theorem lampByTable_withheld (caps : DockCaps) (c : Option Claim) (r : DockRecord) (b : Bool) :
    lampByTable caps c { r with withheld := b } = lampByTable caps c r := rfl

/-- The state of an admission before the lamp is derived (R39). -/
def State.reopened (s : State) (d : DockNo) (r : DockRecord) : State :=
  { s with
    dock := { s.dock with table := s.dock.table.set d { r with commanded := .opened, withheld := false } }
    journal := { s.journal with
      withheld := s.journal.withheld.erase d, account := s.journal.account.modify d fun a => { a with slotOpen := true } } }

theorem admitDock_withheld {s : State} {d : DockNo} {r : DockRecord} (hr : s.dock? d = some r) (hw : r.withheld = true) :
    s.admitDock d = s.admitting d r := by
  have hopened : s.admitDock d = ((s.reopened d r).relamp d).postPass := by
    have htable := modify_eq_set (fun r => { r with commanded := .opened, withheld := false }) hr
    unfold State.admitDock
    simp only [hr, Option.any_some, hw, if_true]
    simp only [State.onDock, State.onDocks, State.onAccount, State.onJournal, htable]
    rfl
  have hat : (s.reopened d r).dock? d = some { r with commanded := .opened, withheld := false } := by
    obtain ⟨hd, -⟩ := List.getElem?_eq_some_iff.mp hr
    exact List.getElem?_set_self hd
  rw [hopened, relamp_eq hat, postPass_eq]
  simp only [State.reopened, List.set_set]
  rfl

theorem admitDock_passed {s : State} {d : DockNo} {r : DockRecord} (hr : s.dock? d = some r) (hw : r.withheld = false) :
    s.admitDock d = s.onJournal fun j => { j with withheld := j.withheld.erase d } := by
  unfold State.admitDock
  simp only [hr, Option.any_some, hw, Bool.false_eq_true, if_false]

theorem slack_withheld (s : State) (l : List DockNo) : (s.onJournal fun j => { j with withheld := l }).slack = s.slack := rfl

/-! ### The admissions of an arrival -/

theorem admitUpTo_tight (n : Nat) {s : State} (h : s.slack < 1) : s.admitUpTo n = s := by
  cases n with
  | zero => rfl
  | succ n =>
    unfold State.admitUpTo
    split
    · rfl
    · exact if_neg (by omega)

theorem admitUpTo_next (n : Nat) {s : State} {d : DockNo} (hmin : s.journal.withheld.min? = some d) (h : 1 ≤ s.slack) :
    s.admitUpTo (n + 1) = (s.admitDock d).admitUpTo n := by
  rw [State.admitUpTo, hmin]
  exact if_pos h

/-- R121: the slot of an EMPTY dock, once counted, is one place more of the return reserve. -/
theorem slack_admitting {s : State} {d : DockNo} {r : DockRecord} {a : DockAccount} (ha : s.journal.account[d]? = some a)
    (hempty : a.occupancy = .empty) (hshut : a.slotOpen = false) (hpassed : a.passed = false) :
    (s.admitting d r).slack = s.slack - 1 := by
  have hsum : ∀ (g : DockAccount → Nat) (l : List DockAccount) (i : Nat), l[i]? = some a →
      ((l.modify i fun a => { a with slotOpen := true }).map g).sum + g a = (l.map g).sum + g { a with slotOpen := true } := by
    intro g l
    induction l with
    | nil => exact fun i hi => absurd hi (by simp)
    | cons x l ih =>
      intro i hi
      cases i with
      | zero =>
        obtain rfl : x = a := by simpa using hi
        simp only [List.modify_zero_cons, List.map_cons, List.sum_cons]
        omega
      | succ i =>
        have hrest := ih i (by simpa using hi)
        simp only [List.modify_succ_cons, List.map_cons, List.sum_cons]
        omega
  have hreserve := hsum DockAccount.reserve s.journal.account d ha
  have hbooked := hsum (fun a => if a.booked then 1 else 0) s.journal.account d ha
  have hcount : ∀ l : List DockAccount, (l.filter fun a => a.booked).length = (l.map fun a => if a.booked then 1 else 0).sum := by
    intro l
    induction l with
    | nil => rfl
    | cons x l ih =>
      cases hx : x.booked with
      | true =>
        simp only [List.filter_cons, hx, if_true, List.length_cons, ih, List.map_cons, List.sum_cons]
        omega
      | false => simp [hx, ih]
  have hone : ({ a with slotOpen := true } : DockAccount).reserve = a.reserve + 1 := by
    simp [DockAccount.reserve, DockAccount.own, hempty, hshut, hpassed]
    omega
  unfold State.slack State.admitting State.journalSize Journal.bookedEntries Journal.reserve Journal.used
  dsimp only
  rw [hcount, hcount]
  rw [hone] at hreserve
  dsimp only at hbooked
  omega

/-! ### The statement -/

/-- The withheld set once a dock has joined it or left it. -/
def withheldAfter (joins : Bool) (d : DockNo) (l : List DockNo) : List DockNo :=
  if joins then (if d ∈ l then l else l ++ [d]) else l.erase d

/-- The state once the notice has changed the withheld set, before any admission. -/
def State.listed (s : State) (d : DockNo) (joins : Bool) : State :=
  (s.taking (.journalWithheldNotice d joins)).onJournal fun j => { j with withheld := withheldAfter joins d j.withheld }

theorem exec_journalWithheldNotice {s : State} (d : DockNo) (joins : Bool) (hready : s.ready) :
    exec (.journalWithheldNotice d joins) s = .next
      (((s.listed d joins).admitWithheld.noticed s.slack s.settings.yellowMargin).onHost HostLink.beginSending) := by
  simp only [exec, execJournalWithheldNotice]
  rw [act_running hready.1, journalArrival_eq]
  rfl

/-- What the notice leaves, by the admissions it leads to. -/
theorem withheldNotice_parts {s t u : State} {d : DockNo} {joins : Bool}
    (hu : (s.listed d joins).admitWithheld = u)
    (ht : t = (((s.listed d joins).admitWithheld.noticed s.slack s.settings.yellowMargin).onHost HostLink.beginSending)) :
    t.dock = u.dock ∧ t.journal = u.journal ∧ t.inFlight = u.inFlight ∧ t.slack = u.slack ∧ FallIsNoticed s t
      ∧ Only [.host, .inFlight, .dock, .journal] s t := by
  have hnoticed := noticed_only u s.slack s.settings.yellowMargin
  rw [hu] at ht
  have hparts : Only [.host] u t := by
    rw [ht]
    exact hnoticed.trans (by simp)
  have hjournal : t.journal = u.journal := hparts .journal (by decide)
  have hstore : t.store = u.store := hparts .store (by decide)
  refine ⟨hparts .dock (by decide), hjournal, hparts .inFlight (by decide), slack_of_parts hjournal hstore, ?_, ?_⟩
  · obtain ⟨hyellow, htight⟩ := noticed_inSet u s.slack s.settings.yellowMargin
    have hset : t.host.noticeSet = (u.noticed s.slack s.settings.yellowMargin).host.noticeSet := by
      rw [ht]
      exact beginSending_noticeSet _
    have hslack : t.slack = u.slack := slack_of_parts hjournal hstore
    rw [FallIsNoticed, hset, hslack]
    exact ⟨hyellow, fun hbefore hafter => htight hbefore hafter⟩
  · refine Only.trans ?_ (hparts.mono (by simp))
    rw [← hu]
    simp [State.listed]

/-- A notice that leads to no admission and no fall has no other effect than on the set. -/
theorem withheldNotice_calm {s : State} {d : DockNo} {joins : Bool} (hready : s.ready) {u : State}
    (hu : (s.listed d joins).admitWithheld = u) (hslack : s.slack ≤ u.slack) (hhost : u.host = s.host) :
    exec (.journalWithheldNotice d joins) s = .next u := by
  rw [exec_journalWithheldNotice d joins hready, hu, noticed_calm _ hslack]
  exact congrArg _ (onHost_beginSending (by rw [hhost]; exact hready.2))

theorem dock?_of_dock {s t : State} (h : t.dock = s.dock) (e : DockNo) : t.dock? e = s.dock? e := by
  unfold State.dock?
  rw [h]

theorem dock?_admitting_self {s : State} {d : DockNo} {r : DockRecord} (hr : s.dock? d = some r) :
    (s.admitting d r).dock? d = some (r.admittedAt s d) := by
  obtain ⟨hd, -⟩ := List.getElem?_eq_some_iff.mp hr
  exact List.getElem?_set_self hd

theorem dock?_admitting_other {d e : DockNo} (s : State) (r : DockRecord) (h : e ≠ d) :
    (s.admitting d r).dock? e = s.dock? e := List.getElem?_set_ne (Ne.symm h)

/-- One dock that joins an empty set, with room. -/
theorem listed_one {s : State} {d : DockNo} (hnone : s.journal.withheld = []) (hroom : 1 ≤ s.slack) :
    (s.listed d true).admitWithheld = (s.listed d true).admitDock d := by
  have hlist : (s.listed d true).journal.withheld = [d] := by
    change withheldAfter true d s.journal.withheld = [d]
    rw [hnone]
    rfl
  unfold State.admitWithheld
  rw [hlist, show [d].length = 0 + 1 from rfl, admitUpTo_next (s := s.listed d true) 0 (by rw [hlist]; rfl) hroom]
  rfl

/-- Two docks in the set, the higher one told again: the lower one is looked at first. -/
theorem listed_two {s : State} {d e : DockNo} (hde : d < e) (hlist : s.journal.withheld = [e, d]) (hroom : 1 ≤ s.slack) :
    (s.listed e true).admitWithheld = ((s.listed e true).admitDock d).admitUpTo 1 ∧ (s.listed e true).journal.withheld = [e, d]
      ∧ [e, d].erase d = [e] := by
  have hsame : (s.listed e true).journal.withheld = [e, d] := by
    change withheldAfter true e s.journal.withheld = [e, d]
    rw [hlist]
    simp [withheldAfter]
  have hmin : [e, d].min? = some d := by
    change some (min e d) = some d
    rw [Nat.min_eq_right (Nat.le_of_lt hde)]
  have herase : [e, d].erase d = [e] := by
    rw [List.erase_cons_tail (by simpa using Nat.ne_of_gt hde), List.erase_cons_head]
  refine ⟨?_, hsame, herase⟩
  unfold State.admitWithheld
  rw [hsame, show [e, d].length = 1 + 1 from rfl, admitUpTo_next (s := s.listed e true) 1 (by rw [hsame, hmin]) hroom]

/-- Settles O41: each admission by the dock that is looked at, in the order of the numbers. -/
theorem withheldDocksAreAdmitted : Obligations.WithheldDocksAreAdmitted := by
  refine ⟨fun s d r hready hr hnone => ⟨fun hroom hw => ?admitted, fun hroom hw => ?passed, ?leaves⟩,
    fun s d hready htight => ⟨?joins, ?left⟩, fun s d e rd re opened hready hde hrd hre hlist hwe hroom hopened => ⟨fun hwd => ?second,
      fun ad ae hwd had hae hade hads hadp haee haes haep => ⟨fun hone => ?one, fun htwo => ?both⟩⟩⟩
  case admitted =>
    have hat : (s.listed d true).dock? d = some r := hr
    have hu := (listed_one hnone hroom).trans (admitDock_withheld hat hw)
    have hdocks := dock?_admitting_self hat
    obtain ⟨hdock, hjournal, hinFlight, -, hfall, honly⟩ := withheldNotice_parts hu rfl
    have hdock? := dock?_of_dock hdock
    refine ⟨_, exec_journalWithheldNotice d true hready, (hdock? d).trans hdocks, hjournal.trans ?_, hinFlight, hfall, ?_, honly⟩
    · change ({ s.journal with withheld := (withheldAfter true d s.journal.withheld).erase d, account := _ } : Journal) = _
      rw [hnone, show (withheldAfter true d []).erase d = [] from by simp [withheldAfter], ← hnone]
      rfl
    · refine ⟨?_, fun e he => (hdock? e).trans (dock?_admitting_other _ r he)⟩
      exact (congrArg (fun u : DockUnit => u.table.length) hdock).trans List.length_set
  case passed =>
    have hu := (listed_one hnone hroom).trans (admitDock_passed (s := s.listed d true) (d := d) hr hw)
    have hsame : (s.listed d true).onJournal (fun j => { j with withheld := j.withheld.erase d }) =
        s.taking (.journalWithheldNotice d true) := by
      have hempty : ({ s.journal with withheld := (withheldAfter true d s.journal.withheld).erase d } : Journal) = s.journal := by
        rw [hnone, show (withheldAfter true d []).erase d = [] from by simp [withheldAfter], ← hnone]
      exact congrArg (fun j => ({ s.taking (.journalWithheldNotice d true) with journal := j } : State)) hempty
    exact withheldNotice_calm hready (hu.trans hsame) (le_refl _) rfl
  case leaves =>
    have hsame : s.listed d false = s.taking (.journalWithheldNotice d false) := by
      have hempty : ({ s.journal with withheld := withheldAfter false d s.journal.withheld } : Journal) = s.journal := by
        rw [hnone, show withheldAfter false d [] = [] from rfl, ← hnone]
      exact congrArg (fun j => ({ s.taking (.journalWithheldNotice d false) with journal := j } : State)) hempty
    refine withheldNotice_calm hready ?_ (le_refl _) rfl
    rw [hsame]
    exact admitWithheld_of_none hnone
  case joins => exact withheldNotice_calm hready (admitUpTo_tight _ htight) (le_refl _) rfl
  case left => exact withheldNotice_calm hready (admitUpTo_tight _ htight) (le_refl _) rfl
  case second =>
    obtain ⟨hfirst, hsame, herase⟩ := listed_two hde hlist hroom
    have hd : (s.listed e true).admitDock d = (s.listed e true).onJournal fun j => { j with withheld := j.withheld.erase d } :=
      admitDock_passed (s := s.listed e true) hrd hwd
    have hleft : ((s.listed e true).onJournal fun j => { j with withheld := j.withheld.erase d }).journal.withheld = [e] := by
      change (s.listed e true).journal.withheld.erase d = [e]
      rw [hsame, herase]
    have hu : (s.listed e true).admitWithheld =
        ((s.listed e true).onJournal fun j => { j with withheld := j.withheld.erase d }).admitting e re := by
      rw [hfirst, hd, admitUpTo_next (s := (s.listed e true).onJournal fun j => { j with withheld := j.withheld.erase d }) 0
        (by rw [hleft]; rfl) hroom]
      exact admitDock_withheld hre hwe
    obtain ⟨hdock, hjournal, hinFlight, -, hfall, honly⟩ := withheldNotice_parts hu rfl
    have hdock? := dock?_of_dock hdock
    refine ⟨_, exec_journalWithheldNotice e true hready, (hdock? d).trans ?_, (hdock? e).trans ?_, hjournal.trans ?_, hinFlight,
      hfall, honly⟩
    · exact (dock?_admitting_other _ re (Nat.ne_of_lt hde)).trans hrd
    · rw [hopened]
      exact dock?_admitting_self hre
    · have herased : ((s.listed e true).journal.withheld.erase d).erase e = [] := by
        rw [hsame, herase, List.erase_cons_head]
      exact congrArg (fun l => ({ s.journal with withheld := l, account := _ } : Journal)) herased
  case one =>
    obtain ⟨hfirst, hsame, herase⟩ := listed_two hde hlist hroom
    have hslack : ((s.listed e true).admitting d rd).slack = s.slack - 1 :=
      slack_admitting (s := s.listed e true) had hade hads hadp
    have hu : (s.listed e true).admitWithheld = (s.listed e true).admitting d rd := by
      rw [hfirst, admitDock_withheld (s := s.listed e true) hrd hwd]
      exact admitUpTo_tight 1 (by rw [hslack]; omega)
    obtain ⟨hdock, hjournal, hinFlight, hleft, hfall, honly⟩ := withheldNotice_parts hu rfl
    have hdock? := dock?_of_dock hdock
    refine ⟨_, exec_journalWithheldNotice e true hready, (hdock? d).trans ?_, (hdock? e).trans ?_, ?_, ?_, hinFlight, hfall, honly⟩
    · rw [hopened]
      exact dock?_admitting_self hrd
    · exact (dock?_admitting_other _ rd (Nat.ne_of_gt hde)).trans hre
    · refine (congrArg Journal.withheld hjournal).trans ?_
      change (s.listed e true).journal.withheld.erase d = [e]
      rw [hsame, herase]
    · rw [hleft, hslack, hone]
      rfl
  case both =>
    obtain ⟨hfirst, hsame, herase⟩ := listed_two hde hlist hroom
    have hslack : ((s.listed e true).admitting d rd).slack = s.slack - 1 :=
      slack_admitting (s := s.listed e true) had hade hads hadp
    have hleft : ((s.listed e true).admitting d rd).journal.withheld = [e] := by
      change (s.listed e true).journal.withheld.erase d = [e]
      rw [hsame, herase]
    have hat : ((s.listed e true).admitting d rd).dock? e = some re := (dock?_admitting_other _ rd (Nat.ne_of_gt hde)).trans hre
    have haccount : ((s.listed e true).admitting d rd).journal.account[e]? = some ae := by
      change (s.journal.account.modify d _)[e]? = some ae
      rw [List.getElem?_modify_ne _ _ (Nat.ne_of_lt hde)]
      exact hae
    have hlast : (((s.listed e true).admitting d rd).admitting e re).slack = s.slack - 2 := by
      rw [slack_admitting haccount haee haes haep, hslack]
      omega
    have hu : (s.listed e true).admitWithheld = ((s.listed e true).admitting d rd).admitting e re := by
      rw [hfirst, admitDock_withheld (s := s.listed e true) hrd hwd,
        admitUpTo_next (s := (s.listed e true).admitting d rd) 0 (by rw [hleft]; rfl) (by rw [hslack]; omega)]
      exact admitDock_withheld hat hwe
    obtain ⟨hdock, hjournal, hinFlight, hend, hfall, honly⟩ := withheldNotice_parts hu rfl
    have hdock? := dock?_of_dock hdock
    refine ⟨_, exec_journalWithheldNotice e true hready, (hdock? d).trans ?_, (hdock? e).trans ?_, ?_, hend.trans hlast, ?_, hfall,
      honly⟩
    · rw [hopened, dock?_admitting_other _ re (Nat.ne_of_lt hde)]
      exact dock?_admitting_self hrd
    · rw [hopened]
      exact dock?_admitting_self hat
    · refine (congrArg Journal.withheld hjournal).trans ?_
      change ((s.listed e true).journal.withheld.erase d).erase e = []
      rw [hsame, herase, List.erase_cons_head]
    · refine hinFlight.trans ?_
      rw [← List.append_assoc]
      rfl

end Sys2Proof.Machine
end


section
/-! Proofs. Entries as they are written (R84, R94, R116 to R120). -/

namespace Sys2Proof.Machine

/-! ### An arrival that writes -/

/-- What an act leaves that is an arrival at the Journal Unit: its change, behind the admissions and the notices. -/
structure Arrived (s u t : State) : Prop where
  entries : t.journal.entries = u.journal.entries
  vanBooked : t.journal.vanBooked = u.journal.vanBooked
  grows : ∀ i ∈ u.inFlight, i ∈ t.inFlight
  falls : FallIsNoticed s t
  only : Only [.host, .inFlight, .dock, .journal] u t

theorem arrived_journalArrival (s : State) (f : State → State) : Arrived s (f s) (s.journalArrival f) := by
  have hadmits := admits_admitWithheld (f s)
  have hparts : Only [.host] (f s).admitWithheld (s.journalArrival f) := journalArrival_only s f
  have hjournal : (s.journalArrival f).journal = (f s).admitWithheld.journal := hparts .journal (by decide)
  have hinFlight : (s.journalArrival f).inFlight = (f s).admitWithheld.inFlight := hparts .inFlight (by decide)
  obtain ⟨hyellow, htight⟩ := noticed_inSet (f s).admitWithheld s.slack s.settings.yellowMargin
  refine ⟨?_, ?_, fun i hi => ?_, ?_, (hadmits.only.mono (by simp)).trans (hparts.mono (by simp))⟩
  · rw [hjournal, hadmits.entries]
  · rw [hjournal, hadmits.vanBooked]
  · rw [hinFlight]
    exact hadmits.adds.mem hi
  · rw [FallIsNoticed, journalArrival_eq, noticed_slack]
    exact ⟨hyellow, fun hbefore hafter => htight hbefore hafter⟩

/-- The sender does not touch what an arrival leaves. -/
theorem arrived_act {s t : State} {c : Instr} {f : State → State}
    (ht : t = ((s.taking c).journalArrival f).onHost HostLink.beginSending) : Arrived s (f (s.taking c)) t := by
  have harrived := arrived_journalArrival (s.taking c) f
  have hset : t.host.noticeSet = ((s.taking c).journalArrival f).host.noticeSet := by
    rw [ht]
    exact beginSending_noticeSet _
  refine { entries := ?_, vanBooked := ?_, grows := ?_, falls := fall_of_arrival hset ?_, only := ?_ }
  · rw [ht]
    exact harrived.entries
  · rw [ht]
    exact harrived.vanBooked
  · rw [ht]
    exact harrived.grows
  · rw [ht]
    rfl
  · rw [ht]
    exact harrived.only.trans (by simp)

theorem Arrived.store {s u t : State} (h : Arrived s u t) : t.store = u.store := h.only .store (by decide)

theorem Arrived.release {s u t : State} (h : Arrived s u t) : t.release = u.release := h.only .release (by decide)

/-! ### The statement -/

theorem exec_journalEntryWrite {s : State} (q : EntryRequest) (hready : s.ready) :
    exec (.journalEntryWrite q) s = .next
      (((s.taking (.journalEntryWrite q)).journalArrival (·.writeRequested q)).onHost HostLink.beginSending) := by
  simp only [exec, execJournalEntryWrite]
  rw [act_running hready.1]
  rfl

theorem writeReturn_hire {u : State} {d : DockNo} {bike : Option BikeId} {late : Bool} {crew : Option OrderId} {g : GraceEntry}
    (h : bike.bind u.graceOf = some g) : u.writeReturn d bike late crew =
      ((((u.onAccount d fun a => { a with owed := false }).appendEntry { Entry.blank .hireVoid with
        dock := some d, bike := bike, reference := some g.start, flags := { offline := g.offline, late := late } }).dropGrace
          g.bike).postIf g.offline (.refund g.card)) := by
  unfold State.writeReturn
  rw [h]

theorem writeReturn_van {u : State} {d : DockNo} {bike : Option BikeId} {late : Bool} {o : OrderId}
    (h : bike.bind u.graceOf = none) : u.writeReturn d bike late (some o) =
      ((u.onAccount d fun a => { a with owed := false }).appendEntry { Entry.blank .vanIn with
        dock := some d, bike := bike, reference := some (o.setWidth 32), flags := { late := late, noTag := bike.isNone } }).post
          (.vanInNotice o d u.store.nextSeq bike.isSome) := by
  unfold State.writeReturn
  rw [h]

theorem writeReturn_plain {u : State} {d : DockNo} {bike : Option BikeId} {late : Bool}
    (h : bike.bind u.graceOf = none) : u.writeReturn d bike late none =
      (u.onAccount d fun a => { a with owed := false }).appendEntry { Entry.blank .returned with
        dock := some d, bike := bike, flags := { late := late, noTag := bike.isNone } } := by
  unfold State.writeReturn
  rw [h]

theorem postIf_eq (s : State) (b : Bool) (i : Instr) :
    s.postIf b i = { s with inFlight := s.inFlight ++ if b = true then [i] else [] } := by
  cases b with
  | true => rfl
  | false =>
    rw [if_neg Bool.false_ne_true, List.append_nil]
    rfl

/-- Settles O42: each kind of request by the entry that it appends. -/
theorem entriesAreWritten : Obligations.EntriesAreWritten := by
  intro s q hready
  have hexec := exec_journalEntryWrite q hready
  have harrived := arrived_act (s := s) (c := .journalEntryWrite q) (f := (·.writeRequested q)) rfl
  generalize (((s.taking (.journalEntryWrite q)).journalArrival (·.writeRequested q)).onHost HostLink.beginSending) = t at hexec harrived
  have hstore := harrived.store
  have hrelease := harrived.release
  have hentries := harrived.entries
  have hgrows := harrived.grows
  cases q with
  | pendingReturn d bike late crew =>
    change t.store = (State.writeReturn _ d bike late crew).store at hstore
    change t.release = (State.writeReturn _ d bike late crew).release at hrelease
    change t.journal.entries = (State.writeReturn _ d bike late crew).journal.entries at hentries
    change ∀ i ∈ (State.writeReturn _ d bike late crew).inFlight, i ∈ t.inFlight at hgrows
    cases hgrace : bike.bind s.graceOf with
    | some g =>
      have heq := writeReturn_hire (u := s.taking (.journalEntryWrite (.pendingReturn d bike late crew))) (d := d) (late := late)
        (crew := crew) hgrace
      rw [heq, postIf_eq] at hstore hrelease hentries hgrows
      have hfind : (bike.bind fun b => s.release.grace.find? fun g => g.bike == b) = some g := hgrace
      refine ⟨t, _, hexec, hentries, rfl, rfl, rfl, hstore, harrived.falls, rfl, rfl, rfl, ?_⟩
      rw [hfind]
      refine ⟨rfl, rfl, rfl, congrArg ReleaseUnit.grace hrelease, fun hoffline => hgrows _ ?_⟩
      rw [if_pos hoffline]
      exact List.mem_append_right _ (List.mem_singleton.mpr rfl)
    | none =>
      have hfind : (bike.bind fun b => s.release.grace.find? fun g => g.bike == b) = none := hgrace
      cases crew with
      | some o =>
        have heq := writeReturn_van (u := s.taking (.journalEntryWrite (.pendingReturn d bike late (some o)))) (d := d) (late := late)
          (o := o) hgrace
        rw [heq] at hstore hrelease hentries hgrows
        refine ⟨t, _, hexec, hentries, rfl, rfl, rfl, hstore, harrived.falls, rfl, rfl, rfl, ?_⟩
        rw [hfind]
        exact ⟨hrelease, rfl, rfl, rfl, hgrows _ (mem_post _ _)⟩
      | none =>
        have heq := writeReturn_plain (u := s.taking (.journalEntryWrite (.pendingReturn d bike late none))) (d := d) (late := late)
          hgrace
        rw [heq] at hstore hrelease hentries hgrows
        refine ⟨t, _, hexec, hentries, rfl, rfl, rfl, hstore, harrived.falls, rfl, rfl, rfl, ?_⟩
        rw [hfind]
        exact ⟨hrelease, rfl, rfl, rfl⟩
  | claimEnding d kind bike card reference offline lateTake resetTake =>
    refine ⟨t, _, hexec, hentries, rfl, rfl, rfl, hstore, harrived.falls, ?_, rfl, rfl, rfl, rfl, rfl, hrelease⟩
    cases kind <;> rfl
  | orderClosed o outcome n m =>
    exact ⟨t, _, hexec, hentries, rfl, rfl, rfl, hstore, harrived.falls, rfl, rfl, rfl, rfl, rfl, rfl, harrived.vanBooked, hrelease⟩

end Sys2Proof.Machine
end


section
/-! Proofs. A claim's end at a removal (R77, R79, R84, R92). -/

namespace Sys2Proof.Machine

theorem endClaim_eq (s : State) (d : DockNo) : s.endClaim d = { s with
    release := { s.release with claims := s.release.claims.filter fun x => x.dock != d }
    inFlight := s.inFlight ++ [.dockClaimNotice d] ++ passDue s } := by
  rw [State.endClaim, postPass_eq]
  rfl

theorem graceHire_skipped {s : State} {c : Claim} {bike : Option BikeId} (start : SeqNo)
    (h : c.kind ≠ .member ∨ bike = none ∨ s.store.live.grace = 0) : s.graceHire c bike start = s := by
  unfold State.graceHire
  split
  case h_1 hkind hholder =>
    rw [if_pos]
    rcases h with hother | hnone | hzero
    · exact absurd hkind hother
    · exact absurd hnone (by simp)
    · exact hzero
  case h_2 => rfl

theorem graceHire_joins {s : State} {c : Claim} {b : BikeId} {h : CardId} (start : SeqNo) (hkind : c.kind = .member)
    (hholder : c.holder = some h) (hgrace : s.store.live.grace ≠ 0) : s.graceHire c (some b) start = s.onRelease (·.addGrace
      { bike := b, card := h, start := start, offline := c.offline, expiry := s.now + s.settings.grace }) := by
  unfold State.graceHire
  simp only [hkind, hholder]
  exact if_neg hgrace

theorem graceHire_claims (s : State) (c : Claim) (bike : Option BikeId) (start : SeqNo) :
    (s.graceHire c bike start).release.claims = s.release.claims := by
  unfold State.graceHire
  split
  · split <;> rfl
  · rfl

/-- The state of a taken claim before the news is told: the entry written, the claim gone, the command withdrawn (R84). -/
def State.ended (s : State) (c : Claim) (bike : Option BikeId) (late reset : Bool) : State :=
  (((s.writeEntry (.claimEnding c.dock c.kind bike c.holder c.reference c.offline late reset)).endClaim c.dock).setCommand c.dock
    .none).graceHire c bike s.store.nextSeq

theorem take_eq (s : State) (c : Claim) (bike : Option BikeId) (late reset : Bool) :
    s.take c bike late reset = (s.ended c bike late reset).postAll
      ((if c.kind = .van then [.vanClaimNotice c.dock (c.order.getD 0) .taken] else []) ++ ownerTold c .taken) := by
  unfold State.take
  rw [tellOwner_eq]
  by_cases hkind : c.kind = .van
  · simp only [if_pos hkind]
    rw [State.ended, State.postAll, State.postAll]
    simp [State.post]
  · simp only [if_neg hkind]
    rw [State.ended, List.nil_append]

/-- The entry of a claim's end (R84, R116 to R118). -/
def State.endingEntry (s : State) (c : Claim) (bike : Option BikeId) (late reset : Bool) : Entry :=
  { Entry.blank c.kind.entryKind with
    seq := s.store.nextSeq, time := s.store.clock, unset := s.store.clockUnset, dock := some c.dock, bike := bike, card := c.holder
    reference := c.reference, flags := { offline := c.offline, lateTake := late, resetTake := reset } }

theorem ended_facts (s : State) (c : Claim) (bike : Option BikeId) (late reset : Bool) :
    (s.ended c bike late reset).journal.entries = s.journal.entries ++ [s.endingEntry c bike late reset]
      ∧ (s.ended c bike late reset).store.nextSeq = seqAfter s.store.nextSeq
      ∧ (s.ended c bike late reset).release.claims = s.release.claims.filter (fun x => x.dock != c.dock)
      ∧ (∀ r', (s.ended c bike late reset).dock? c.dock = some r' → r'.command = .none)
      ∧ (∀ b h, c.kind = .member → bike = some b → c.holder = some h → s.store.live.grace ≠ 0 →
          (s.ended c bike late reset).release.grace =
            ((if 64 ≤ s.release.grace.length then s.release.grace.drop 1 else s.release.grace).filter fun g => g.bike != b)
              ++ [{ bike := b, card := h, start := s.store.nextSeq, offline := c.offline, expiry := s.now + s.store.live.grace }])
      ∧ (c.kind ≠ .member ∨ bike = none ∨ s.store.live.grace = 0 → (s.ended c bike late reset).release.grace = s.release.grace) := by
  have harrived := arrived_journalArrival s
    (·.writeRequested (.claimEnding c.dock c.kind bike c.holder c.reference c.offline late reset))
  have hentries := harrived.entries
  have hstore := harrived.store
  have hrelease := harrived.release
  have hnow : (s.writeEntry (.claimEnding c.dock c.kind bike c.holder c.reference c.offline late reset)).now = s.now :=
    harrived.only .now (by decide)
  change (s.writeEntry (.claimEnding c.dock c.kind bike c.holder c.reference c.offline late reset)).journal.entries = _ at hentries
  change (s.writeEntry (.claimEnding c.dock c.kind bike c.holder c.reference c.offline late reset)).store = _ at hstore
  change (s.writeEntry (.claimEnding c.dock c.kind bike c.holder c.reference c.offline late reset)).release = s.release at hrelease
  unfold State.ended
  generalize s.writeEntry (.claimEnding c.dock c.kind bike c.holder c.reference c.offline late reset) = u
    at hentries hstore hrelease hnow
  have hgrace : ∀ v : State, Only [.release] v (v.graceHire c bike s.store.nextSeq) := fun v => by simp
  have hclosed : ((u.endClaim c.dock).setCommand c.dock .none).release.claims = s.release.claims.filter fun x => x.dock != c.dock := by
    rw [endClaim_eq, ← hrelease]
    rfl
  have hlist : ((u.endClaim c.dock).setCommand c.dock .none).release.grace = s.release.grace := by
    rw [endClaim_eq, ← hrelease]
    rfl
  have hlive : ((u.endClaim c.dock).setCommand c.dock .none).store = u.store := by
    rw [endClaim_eq]
    rfl
  have htime : ((u.endClaim c.dock).setCommand c.dock .none).now = u.now := by
    rw [endClaim_eq]
    rfl
  have hjournal : ((u.endClaim c.dock).setCommand c.dock .none).journal = u.journal := by
    rw [endClaim_eq]
    rfl
  generalize hv : (u.endClaim c.dock).setCommand c.dock .none = v at hclosed hlist hlive htime hjournal
  have hcommand : ∀ r', v.dock? c.dock = some r' → r'.command = .none := fun r' hr' => by
    rw [← hv, State.setCommand, dock?_onDock_self] at hr'
    obtain ⟨x, -, rfl⟩ := Option.map_eq_some_iff.mp hr'
    rfl
  have hsetting : v.store.live.grace = s.store.live.grace := by
    rw [hlive, hstore]
    rfl
  refine ⟨?_, ?_, (graceHire_claims v c bike _).trans hclosed, fun r' hr' => hcommand r' ?_, fun b h hkind hbike hholder hpos => ?_,
    fun hskip => ?_⟩
  · exact ((congrArg Journal.entries (hgrace v .journal (by decide))).trans (congrArg Journal.entries hjournal)).trans hentries
  · exact ((congrArg Store.nextSeq (hgrace v .store (by decide))).trans (congrArg Store.nextSeq hlive)).trans
      (congrArg Store.nextSeq hstore)
  · rwa [dock?_of_dock (hgrace v .dock (by decide))] at hr'
  · have hadded : ((v.onRelease (·.addGrace
        { bike := b, card := h, start := s.store.nextSeq, offline := c.offline, expiry := v.now + v.settings.grace })).release.grace) =
        ((if 64 ≤ v.release.grace.length then v.release.grace.drop 1 else v.release.grace).filter fun g => g.bike != b)
          ++ [{ bike := b, card := h, start := s.store.nextSeq, offline := c.offline, expiry := v.now + v.settings.grace }] := rfl
    rw [hbike, graceHire_joins _ hkind hholder (by rw [hsetting]; exact hpos), hadded, hlist, htime, hnow, State.settings, hsetting]
  · rw [graceHire_skipped _ (by rw [hsetting]; exact hskip), hlist]

theorem ended_only (s : State) (c : Claim) (bike : Option BikeId) (late reset : Bool) :
    Only [.host, .inFlight, .dock, .release, .journal, .store] s (s.ended c bike late reset) := by
  simp [State.ended]

/-- A claim that ends TAKEN at an open lock. -/
theorem take_facts {s t : State} {c : Claim} {i : Instr} (bike : Option BikeId) (late reset : Bool)
    (ht : t = ((s.taking i).take c bike late reset).onHost HostLink.beginSending) :
    t.journal.entries = s.journal.entries ++ [s.endingEntry c bike late reset]
      ∧ t.store.nextSeq = seqAfter s.store.nextSeq
      ∧ t.release.claims = s.release.claims.filter (fun x => x.dock != c.dock)
      ∧ (∀ r', t.dock? c.dock = some r' → r'.command = .none)
      ∧ (∀ b h, c.kind = .member → bike = some b → c.holder = some h → s.store.live.grace ≠ 0 →
          t.release.grace =
            ((if 64 ≤ s.release.grace.length then s.release.grace.drop 1 else s.release.grace).filter fun g => g.bike != b)
              ++ [{ bike := b, card := h, start := s.store.nextSeq, offline := c.offline, expiry := s.now + s.store.live.grace }])
      ∧ (c.kind ≠ .member ∨ bike = none ∨ s.store.live.grace = 0 → t.release.grace = s.release.grace)
      ∧ (c.kind = .van → .vanClaimNotice c.dock (c.order.getD 0) .taken ∈ t.inFlight)
      ∧ (∀ i ∈ ownerTold c .taken, i ∈ t.inFlight)
      ∧ Only [.host, .inFlight, .dock, .release, .journal, .store] s t := by
  rw [take_eq] at ht
  obtain ⟨hentries, hnext, hclaims, hcommand, hjoins, hskips⟩ := ended_facts (s.taking i) c bike late reset
  have honly : Only [.host, .inFlight, .dock, .release, .journal, .store] s ((s.taking i).ended c bike late reset) :=
    Only.trans (by simp) (ended_only (s.taking i) c bike late reset)
  generalize (s.taking i).ended c bike late reset = u at ht hentries hnext hclaims hcommand hjoins hskips honly
  subst ht
  refine ⟨hentries, hnext, hclaims, hcommand, hjoins, hskips, fun hvan => ?_, fun j hj => ?_, honly.trans (by simp)⟩
  · refine List.mem_append_right _ (List.mem_append_left _ ?_)
    rw [if_pos hvan]
    exact List.mem_singleton.mpr rfl
  · exact List.mem_append_right _ (List.mem_append_right _ hj)

theorem seqAfter_eq (n : SeqNo) : seqAfter n = if n = 0xFFFFFFFF then 1 else n + 1 := rfl

/-- Settles O27: the removal by the state of the claim. -/
theorem claimsEndAtRemoval : Obligations.ClaimsEndAtRemoval := by
  intro s c bike hready hstands
  have hclaim := stands_taking (.claimRemoval c.dock bike) hstands
  refine ⟨fun hstate => ?failed, fun hstate => ?dropped, fun hreserved hsent => ?taken⟩
  case failed =>
    refine ends_of hready (by simp only [exec, execClaimRemoval]; rfl) ?_
    simp only [hclaim, hstate, postAll_nil]
    rfl
  case dropped =>
    simp only [exec, execClaimRemoval]
    refine ready_next hready _ ?_ rfl
    simp only [hclaim, hstate]
    rw [State.dropClaim, endClaim_eq]
    rfl
  case taken =>
    have hexec : exec (.claimRemoval c.dock bike) s = .next (((s.taking (.claimRemoval c.dock bike)).take c bike
        (c.state == .relocking || c.state == .jammedOpen || c.state == .orphan && c.orphanCause != some .reset)
        (c.state == .orphan && c.orphanCause == some .reset)).onHost HostLink.beginSending) := by
      simp only [exec, execClaimRemoval]
      rw [act_running hready.1, hclaim]
      cases hstate : c.state with
      | reserved => exact absurd hstate hreserved
      | releaseSent => exact absurd hstate hsent
      | released | relocking | jammedOpen | orphan => simp only [hstate] <;> rfl
    obtain ⟨hentries, hnext, hclaims, hcommand, hjoins, hskips, hvan, howner, honly⟩ := take_facts bike _ _ rfl
    refine ⟨_, _, hexec, hentries, rfl, rfl, rfl, ?_, rfl, rfl, rfl, ?_, rfl, rfl, rfl, hnext, hclaims, hcommand, hjoins, hskips, hvan,
      howner, honly⟩
    · change c.kind.entryKind = _
      cases c.kind <;> rfl
    · change c.reference = _
      unfold Claim.reference
      cases c.kind <;> rfl

end Sys2Proof.Machine
end


section
/-! Proofs. The journal as the host reads it and releases it (R127 to R129). -/

namespace Sys2Proof.Machine

/-! ### The requests' bodies -/

theorem operands_journalRead {x : SeqNo} {max : Nat} (hmax : max < 256) :
    Operands.journalRead (bytesWord x ++ [byteOf max]) = if x ≠ 0 ∧ 1 ≤ max ∧ max ≤ 16 then .ok (x, max) else .error .badField := by
  have hword : wordAt (bytesWord x ++ [byteOf max]) 0 = x := wordAt_bytesWord x _
  have hbyte : fieldAt (bytesWord x ++ [byteOf max]) 4 1 = max := operands_byte hmax
  unfold Operands.journalRead Operands.fixed
  rw [if_pos (by rfl)]
  beta_reduce
  rw [hword, hbyte]
  by_cases hx : x = 0
  · simp [hx, Operands.demand, bind, Except.bind]
  · have hword : (x != 0) = true := bne_iff_ne.mpr hx
    rw [hword]
    by_cases hrange : 1 ≤ max ∧ max ≤ 16
    · have hgood : (decide (1 ≤ max) && decide (max ≤ 16)) = true := by simp [hrange]
      rw [hgood, if_pos ⟨hx, hrange⟩]
      rfl
    · have hbad : (decide (1 ≤ max) && decide (max ≤ 16)) = false := by
        rw [← Bool.not_eq_true, Bool.and_eq_true, decide_eq_true_eq, decide_eq_true_eq]
        exact hrange
      rw [hbad, if_neg (fun h => hrange h.2)]
      rfl

theorem operands_journalRelease (x : SeqNo) :
    Operands.journalRelease (bytesWord x) = if x ≠ 0 then .ok x else .error .badField := by
  unfold Operands.journalRelease Operands.fixed
  rw [if_pos (bytesWord_length x)]
  beta_reduce
  rw [wordAt_bytesWord']
  by_cases hx : x = 0
  · simp [hx, Operands.demand, bind, Except.bind]
  · rw [if_pos hx, show (x != 0) = true from bne_iff_ne.mpr hx]
    rfl

/-! ### The entry of a number -/

theorem dropWhile_of_first {α : Type} {p : α → Bool} {l : List α} {i : Nat} {a : α} (hi : l[i]? = some a) (ha : p a = false)
    (hbefore : ∀ j b, j < i → l[j]? = some b → p b = true) : l.dropWhile p = l.drop i ∧ (l.takeWhile p).length = i := by
  induction l generalizing i with
  | nil => exact absurd hi (by simp)
  | cons b l ih =>
    cases i with
    | zero =>
      obtain rfl : b = a := by simpa using hi
      simp [ha]
    | succ i =>
      have hb : p b = true := hbefore 0 b (Nat.succ_pos i) rfl
      obtain ⟨hdrop, htake⟩ := ih (by simpa using hi) fun j c hj hc => hbefore (j + 1) c (Nat.succ_lt_succ hj) (by simpa using hc)
      exact ⟨by rw [List.dropWhile_cons, if_pos hb, hdrop, List.drop_succ_cons],
        by rw [List.takeWhile_cons, if_pos hb, List.length_cons, htake]⟩

theorem seqAfter_iterate_inj {x y : SeqNo} {k : Nat} (hx : x ≠ 0) (hy : y ≠ 0) (h : seqAfter^[k] x = seqAfter^[k] y) : x = y := by
  have hplace := congrArg BitVec.toNat h
  obtain ⟨hxpos, hxle⟩ := seqNo_toNat_bounds hx
  obtain ⟨hypos, hyle⟩ := seqNo_toNat_bounds hy
  rw [seqAfter_iterate_toNat k hx, seqAfter_iterate_toNat k hy] at hplace
  have hmod : x.toNat - 1 ≡ y.toNat - 1 [MOD 4294967295] := Nat.ModEq.add_right_cancel' k (Nat.succ.inj hplace)
  have heq := Nat.ModEq.eq_of_lt_of_lt hmod (by omega) (by omega)
  exact BitVec.eq_of_toNat_eq (by omega)

theorem held_distance {s : State} {x : SeqNo} (hpos : s.position x = .held) :
    distanceBehind s.store.nextSeq x ≠ 0 ∧ distanceBehind s.store.nextSeq x ≤ s.journal.entries.length := by
  simp only [State.position] at hpos
  refine ⟨fun hzero => ?_, Nat.not_lt.mp fun hover => ?_⟩
  · rw [if_pos hzero] at hpos
    exact Position.noConfusion hpos
  · have hused : s.journal.used < distanceBehind s.store.nextSeq x := hover
    rw [if_neg (by omega), if_neg (by omega)] at hpos
    by_cases hnear : distanceBehind s.store.nextSeq x ≤ 2147483647
    · rw [if_pos hnear] at hpos
      exact Position.noConfusion hpos
    · rw [if_neg hnear] at hpos
      exact Position.noConfusion hpos

/-- R127: a held number is that of the entry as far from the newest end as it lies behind the next number. -/
theorem held_entry {s : State} {x : SeqNo} (hnum : s.numbered) (hlen : s.journal.entries.length ≤ 4096) (hx : x ≠ 0)
    (hpos : s.position x = .held) :
    s.journal.entries.dropWhile (fun e => e.seq != x) =
        s.journal.entries.drop (s.journal.used - distanceBehind s.store.nextSeq x)
      ∧ (s.journal.entries.takeWhile fun e => e.seq != x).length = s.journal.used - distanceBehind s.store.nextSeq x := by
  obtain ⟨hn, hnonzero, hcons⟩ := hnum
  have hbehind := seqAfter_iterate_distanceBehind hn hx
  generalize hd : distanceBehind s.store.nextSeq x = d at hbehind
  have hrange := held_distance hpos
  rw [hd] at hrange
  obtain ⟨hpositive, hle⟩ := hrange
  have hlt : s.journal.entries.length - d < s.journal.entries.length := by omega
  have hat := List.getElem?_eq_getElem hlt
  have hsteps := seqAfter_iterate_entry hcons hat
  rw [Nat.sub_sub_self hle] at hsteps
  have hseq : s.journal.entries[s.journal.entries.length - d].seq = x :=
    seqAfter_iterate_inj (hnonzero _ (List.getElem_mem hlt)) hx (hsteps.trans hbehind.symm)
  refine dropWhile_of_first hat (by simpa using hseq) fun j e hj he => ?_
  have hbefore : j < s.journal.entries.length - d := hj
  have hother := seqAfter_iterate_entry hcons he
  refine bne_iff_ne.mpr fun hsame => ?_
  have hsteps := steps_unique hx (by omega) (by omega) ((hsame ▸ hother).trans hbehind.symm)
  omega

theorem oldestSeq_eq (s : State) : s.oldestSeq = (s.journal.entries.head?.map (·.seq)).getD s.store.nextSeq := by
  unfold State.oldestSeq
  cases s.journal.entries <;> rfl

/-! ### The statement -/

theorem exec_journalRelease {s : State} {tag : Byte} {x : SeqNo} {k : Nat} (hready : s.ready) (hx : x ≠ 0)
    (hk : s.releaseCount x = some k) :
    exec (.journalRelease tag (bytesWord x)) s = .next
      ((((s.taking (.journalRelease tag (bytesWord x))).journalArrival (·.onJournal fun j => { j with entries := j.entries.drop k })).reply
        0x13 tag .ok (.journalRelease k
          ((s.taking (.journalRelease tag (bytesWord x))).journalArrival
            (·.onJournal fun j => { j with entries := j.entries.drop k })).oldestSeq
          ((s.taking (.journalRelease tag (bytesWord x))).journalArrival
            (·.onJournal fun j => { j with entries := j.entries.drop k })).slack)).onHost HostLink.beginSending) := by
  have hbody : Operands.journalRelease (bytesWord x) = .ok x := by rw [operands_journalRelease, if_pos hx]
  have hcount : (s.taking (.journalRelease tag (bytesWord x))).releaseCount x = some k := hk
  simp only [exec, execJournalRelease]
  rw [request_ok hready.1 hbody]
  simp only [hcount]

theorem releaseCount_eq (s : State) (x : SeqNo) : s.releaseCount x = (match s.position x with
    | .held => some (s.journal.used - distanceBehind s.store.nextSeq x + 1)
    | .released => some 0
    | .next => none
    | .ahead => none) := by
  unfold State.releaseCount
  cases s.position x <;> rfl

theorem slack_dropped (s : State) {k : Nat} (h : k ≤ s.journal.entries.length) :
    (s.onJournal fun j => { j with entries := j.entries.drop k }).slack = s.slack + k := by
  unfold State.slack State.onJournal State.journalSize Journal.bookedEntries Journal.reserve Journal.used
  dsimp only
  rw [List.length_drop]
  omega

/-- Settles O43: a read by the position of its number, a release by how many entries it takes out. -/
theorem journalIsReadAndReleased : Obligations.JournalIsReadAndReleased := by
  intro s tag x max hready hnum hlen
  refine ⟨fun hx hmin hmax => ?read, fun hbad hmax => ?unread, fun hx => ?zero, fun hx hpos => ?unreleased, fun k hx hk => ?released⟩
  case read =>
    have hbody : Operands.journalRead (bytesWord x ++ [byteOf max]) = .ok (x, max) := by
      rw [operands_journalRead (by omega), if_pos ⟨hx, hmin, hmax⟩]
    have hsame : ∀ i, (s.taking i).position x = s.position x := fun _ => rfl
    simp only [exec, execJournalRead]
    rw [← oldestSeq_eq]
    cases hpos : s.position x with
    | ahead =>
      refine request_replies (s.taking _) .badSeq .nothing hready hbody ?_ hready.2 rfl
      simp only [hsame, hpos]
    | next =>
      refine request_replies (s.taking _) .ok (s.journalReply false []) hready hbody ?_ hready.2 rfl
      simp only [hsame, hpos] <;> rfl
    | released =>
      refine request_replies (s.taking _) .ok (s.journalReply true (s.journal.entries.take max)) hready hbody ?_ hready.2 rfl
      simp only [hsame, hpos] <;> rfl
    | held =>
      obtain ⟨hdrop, -⟩ := held_entry hnum hlen hx hpos
      refine request_replies (s.taking (.journalRead tag (bytesWord x ++ [byteOf max]))) .ok (s.journalReply false
        ((s.journal.entries.drop (s.journal.used - distanceBehind s.store.nextSeq x)).take max)) hready hbody ?_ hready.2 ?_
      · simp only [hsame, hpos] <;> rfl
      · rw [← hdrop]
        rfl
  case unread =>
    have hbody : Operands.journalRead (bytesWord x ++ [byteOf max]) = .error .badField := by
      rw [operands_journalRead hmax, if_neg]
      rintro ⟨hx, hmin, hle⟩
      rcases hbad with hzero | hzero | hover
      · exact hx hzero
      · omega
      · omega
    simp only [exec, execJournalRead]
    exact request_refused hready hbody
  case zero =>
    have hbody : Operands.journalRelease (bytesWord x) = .error .badField := by
      rw [operands_journalRelease, if_neg (not_not.mpr hx)]
    simp only [exec, execJournalRelease]
    exact request_refused hready hbody
  case unreleased =>
    have hbody : Operands.journalRelease (bytesWord x) = .ok x := by rw [operands_journalRelease, if_pos hx]
    have hcount : ∀ i, (s.taking i).releaseCount x = none := fun i => by
      rw [releaseCount_eq, show (s.taking i).position x = s.position x from rfl]
      rcases hpos with hpos | hpos <;> rw [hpos]
    simp only [exec, execJournalRelease]
    refine request_declined hready hbody ?_
    simp only [hcount]
  case released =>
    have hcount : s.releaseCount x = some k ∧ k ≤ s.journal.entries.length := by
      rw [releaseCount_eq]
      rcases hk with ⟨hpos, rfl⟩ | ⟨hpos, rfl⟩
      · obtain ⟨-, htake⟩ := held_entry hnum hlen hx hpos
        rw [hpos, htake]
        refine ⟨rfl, ?_⟩
        have hbehind := held_distance hpos
        change s.journal.entries.length - distanceBehind s.store.nextSeq x + 1 ≤ s.journal.entries.length
        omega
      · rw [hpos]
        exact ⟨rfl, Nat.zero_le _⟩
    obtain ⟨hreleases, hroom⟩ := hcount
    have hexec := exec_journalRelease (tag := tag) hready hx hreleases
    have harrived := arrived_journalArrival (s.taking (.journalRelease tag (bytesWord x)))
      (·.onJournal fun j => { j with entries := j.entries.drop k })
    have hcalm : s.journal.withheld = [] → (s.taking (.journalRelease tag (bytesWord x))).journalArrival
        (·.onJournal fun j => { j with entries := j.entries.drop k }) =
        (s.taking (.journalRelease tag (bytesWord x))).onJournal fun j => { j with entries := j.entries.drop k } := fun hnone => by
      refine journalArrival_calm hnone ?_
      rw [slack_dropped (s.taking _) hroom]
      omega
    generalize hu : (s.taking (.journalRelease tag (bytesWord x))).journalArrival
      (·.onJournal fun j => { j with entries := j.entries.drop k }) = u at hexec harrived hcalm
    have hseq : u.store.nextSeq = s.store.nextSeq := congrArg Store.nextSeq harrived.store
    refine ⟨_, hexec, harrived.entries, ?_, fun hnone => ⟨?_, ?_⟩, ?_⟩
    · have hanswer := reply_answered u 0x13 tag .ok (.journalRelease k u.oldestSeq u.slack)
      rw [oldestSeq_eq, hseq] at hanswer ⊢
      exact hanswer
    · change u.slack = _
      rw [hcalm hnone, slack_dropped (s.taking _) hroom]
      rfl
    · rw [hcalm hnone]
      simp
    · exact Only.trans (by simp) ((harrived.only.mono (by simp)).trans (by simp))

end Sys2Proof.Machine
end


section
/-! Proofs. The tests of a request for a claim (R73, R74), and the allocator (R89, R90). -/

namespace Sys2Proof.Machine

/-! ### The tests of R73 -/

theorem releasingHolder_any (s : State) (card : CardId) :
    s.releasingHolder card = true ↔ ∃ c ∈ s.release.claims, c.state.releasing = true ∧ c.holder = some card := by
  simp [State.releasingHolder]

theorem heldHolder_any (s : State) (card : CardId) : s.heldHolder card = true ↔ ∃ q ∈ s.release.requests, q.holder = card := by
  simp [State.heldHolder]

theorem heldHolder_others {s : State} {d : DockNo} (card : CardId) (h : ∀ q ∈ s.release.requests, q.dock ≠ d) :
    s.heldHolder card (some d) = s.heldHolder card := by
  unfold State.heldHolder
  refine Bool.eq_iff_iff.mpr ?_
  simp only [List.any_eq_true]
  refine exists_congr fun q => and_congr_right fun hq => ?_
  simp [h q hq]

theorem claimOn_isSome_iff (s : State) (d : DockNo) : (s.claimOn d).isSome = true ↔ ∃ c ∈ s.release.claims, c.dock = d := by
  simp [State.claimOn, List.find?_isSome]

theorem requestOn_isSome_iff (s : State) (d : DockNo) : (s.requestOn d).isSome = true ↔ ∃ q ∈ s.release.requests, q.dock = d := by
  simp [State.requestOn, List.find?_isSome]

/-- With one claim to a dock, the claim that is found there is the one. -/
theorem claimOn_of_mem {s : State} {c : Claim} (h : (s.release.claims.map (·.dock)).Nodup) (hc : c ∈ s.release.claims) :
    s.claimOn c.dock = some c :=
  claimOn_stands ⟨hc, fun x hx hdock => List.inj_on_of_nodup_map h hx hc hdock⟩

theorem claimOn_any_iff {s : State} (d : DockNo) (p : Claim → Bool) (h : (s.release.claims.map (·.dock)).Nodup) :
    (s.claimOn d).any p = true ↔ ∃ c ∈ s.release.claims, c.dock = d ∧ p c = true := by
  constructor
  · intro hany
    obtain ⟨c, hc, hp⟩ := (Option.any_eq_true _ _).mp hany
    exact ⟨c, List.mem_of_find?_eq_some hc, by simpa using List.find?_some hc, hp⟩
  · rintro ⟨c, hc, rfl, hp⟩
    rw [claimOn_of_mem h hc]
    exact hp

theorem permits_member (l : Level) : l.permits .member = true ↔ l = .full := by
  cases l <;> decide

theorem permits_service (l : Level) : l.permits .service = true := by
  cases l <;> decide

/-- The tests made for a request, or made again for its own: with no other request on the dock, its hold counts as free. -/
theorem claimTests_eq {s : State} {d : DockNo} {r : DockRecord} {kind : ClaimKind} {holder : CardId} {own : Option DockNo}
    (hr : s.dock? d = some r) (hkind : kind ≠ .van) (hclaims : (s.release.claims.map (·.dock)).Nodup)
    (hown : own = none ∨ own = some d ∧ ∀ q ∈ s.release.requests, q.dock ≠ d) :
    s.claimTests d kind holder own = refusal s s.release.requests d r kind holder := by
  have hheld : s.heldHolder holder own = s.heldHolder holder := by
    rcases hown with rfl | ⟨rfl, hothers⟩
    · rfl
    · exact heldHolder_others holder hothers
  have hrequest : ((s.requestOn d).isSome = true ∧ own ≠ some d) ↔ ∃ q ∈ s.release.requests, q.dock = d := by
    rw [requestOn_isSome_iff]
    rcases hown with rfl | ⟨rfl, hothers⟩
    · simp
    · simpa using hothers
  have hlevel : (¬ (s.level d).permits kind = true) ↔ kind = .member ∧ s.level d ≠ .full := by
    cases kind with
    | van => exact absurd rfl hkind
    | member => simp [permits_member]
    | service => simp [permits_service]
  have hreserved : (s.claimOn d).any (fun c => c.kind == .van && c.state == .reserved) = true ↔
      ∃ c ∈ s.release.claims, c.dock = d ∧ c.kind = .van ∧ c.state = .reserved := by
    rw [claimOn_any_iff d _ hclaims]
    simp
  unfold State.claimTests refusal
  simp only [hr, hheld, releasingHolder_any, heldHolder_any, hreserved, claimOn_isSome_iff, hrequest, hlevel,
    Option.isNone_iff_eq_none]

/-! ### A refusal told to a reader (R12, R73) -/

theorem acts_readerDecided (s : State) (d : DockNo) (x : ReaderResult) :
    Acts d s (s.readerDecided d x) fun r => decidedAt r x :=
  ((acts_onDock s d fun r => { r with checkPending := false }).trans (acts_readerWaits _ d x)).cast fun _ => rfl

theorem dock?_readerDecided {s : State} {d : DockNo} {r : DockRecord} (x : ReaderResult) (hr : s.dock? d = some r) :
    (s.readerDecided d x).dock? d = some (decidedAt r x) := by
  rw [(acts_readerDecided s d x).at_, hr]
  rfl

/-- An act that only tells a dock's reader its result. -/
theorem reader_told {s : State} {i : Instr} {f : State → State} {d : DockNo} {r : DockRecord} (x : ReaderResult) (hready : s.ready)
    (hexec : exec i s = act i s f) (hf : f (s.taking i) = (s.taking i).readerDecided d x) (hr : s.dock? d = some r) :
    ∃ t, exec i s = .next t ∧ t.dock? d = some (decidedAt r x) ∧ HandedOn i s t [] ∧ OtherDocksSame d s t
      ∧ Only [.inFlight, .dock] s t := by
  have hacts := acts_readerDecided (s.taking i) d x
  refine ⟨(s.taking i).readerDecided d x, ?_, dock?_readerDecided x hr, ?_, hacts.oth, by simp⟩
  · rw [hexec]
    exact ready_next hready _ hf rfl
  · exact (List.append_nil _).symm

theorem requestClaim_refused {s : State} {d : DockNo} {kind : ClaimKind} {holder : CardId} {origin : CardOrigin} {owner : Owner}
    {why : DenyReason} (h : s.claimTests d kind holder none = some why) :
    s.requestClaim d kind holder origin owner = s.refuseRequest owner why := by
  unfold State.requestClaim
  rw [h]

theorem requestClaim_held {s : State} {d : DockNo} {kind : ClaimKind} {holder : CardId} {origin : CardOrigin} {owner : Owner}
    (h : s.claimTests d kind holder none = none) :
    s.requestClaim d kind holder origin owner =
      s.holdRequest { dock := d, kind := kind, holder := holder, origin := origin, owner := owner, order := none } := by
  unfold State.requestClaim
  rw [h]

/-- Settles O28: the tests of the model are those of R73, one by one. -/
theorem claimTestsInOrder : Obligations.ClaimTestsInOrder := by
  intro s d r kind holder origin hready hr hkind hkept
  obtain ⟨hclaims, -⟩ := hkept
  have htests : (s.taking (.claimRequest d kind holder origin (.reader d))).claimTests d kind holder none =
      refusal s s.release.requests d r kind holder :=
    claimTests_eq (s := s.taking (.claimRequest d kind holder origin (.reader d))) hr hkind hclaims (Or.inl rfl)
  have hexec : exec (.claimRequest d kind holder origin (.reader d)) s = act (.claimRequest d kind holder origin (.reader d)) s
      fun u => u.requestClaim d kind holder origin (.reader d) := by
    cases kind with
    | van => exact absurd rfl hkind
    | member | service => rfl
  refine ⟨fun hpass => ?_, fun why hwhy => ?_⟩
  · rw [hexec]
    exact ready_next hready _ (requestClaim_held (htests.trans hpass)) rfl
  · exact reader_told (.deny why) hready hexec (requestClaim_refused (htests.trans hwhy)) hr

end Sys2Proof.Machine
end


section
/-! The Terminal Unit (chapter 5): what its operations do to one terminal, and what an arrival on a line does. -/

namespace Sys2Proof.Machine

/-! ### One terminal -/

theorem Four_set_set (q : Four α) (x : TerminalId) (a b : α) : (q.set x a).set x b = q.set x b := by cases x <;> rfl

theorem Four_set_get (q : Four α) (x : TerminalId) : q.set x (q.get x) = q := by cases x <;> rfl

theorem onTerminal_onTerminal (s : State) (x : TerminalId) (f g : Terminal → Terminal) :
    (s.onTerminal x f).onTerminal x g = s.onTerminal x fun z => g (f z) := by
  simp [State.onTerminal, Four_set_set]

theorem onTerminal_congr {s : State} {x : TerminalId} {f g : Terminal → Terminal} (h : f (s.terminal x) = g (s.terminal x)) :
    s.onTerminal x f = s.onTerminal x g := by
  unfold State.onTerminal
  rw [show f (s.term.get x) = g (s.term.get x) from h]

theorem onTerminal_same {s : State} {x : TerminalId} {f : Terminal → Terminal} (h : f (s.terminal x) = s.terminal x) :
    s.onTerminal x f = s := by
  unfold State.onTerminal
  rw [show f (s.term.get x) = s.term.get x from h, Four_set_get]

theorem post_onTerminal (s : State) (x : TerminalId) (f : Terminal → Terminal) (i : Instr) :
    (s.onTerminal x f).post i = (s.post i).onTerminal x f := rfl

theorem sendTerminal_up {s : State} {x : TerminalId} (r : TermRecord) (hline : (s.terminal x).line = .up) :
    s.sendTerminal x r = s.onTerminal x fun z => { z with out := z.out ++ [r] } :=
  onTerminal_congr (if_pos hline)

/-! ### Ends and starts of a session (R102 to R104) -/

/-- The last record of a session that ends on an UP line. -/
def Terminal.told (z : Terminal) (r : TermRecord) : Terminal := { z with session := { attempt := z.session.attempt }, out := z.out ++ [r] }

theorem endSession_told {s : State} {x : TerminalId} (r : TermRecord) (hline : (s.terminal x).line = .up) :
    (s.sendTerminal x r).endSession x = s.onTerminal x fun z => z.told r := by
  rw [sendTerminal_up r hline, State.endSession, State.onSession, onTerminal_onTerminal]
  rfl

theorem refuseSession_up {s : State} {x : TerminalId} (why : DenyReason) (hline : (s.terminal x).line = .up) :
    s.refuseSession x why = s.onTerminal x fun z => z.told (.refuse why) := endSession_told _ hline

theorem finishSession_up {s : State} {x : TerminalId} (o : DoneOutcome) (hline : (s.terminal x).line = .up) :
    s.finishSession x o = s.onTerminal x fun z => z.told (.done o) := endSession_told _ hline

theorem abandonChoice_up {s : State} {x : TerminalId} (hline : (s.terminal x).line = .up) :
    s.abandonChoice x = s.onTerminal x fun z => z.told (.show .welcome) := endSession_told _ hline

/-- An attempt that starts on an UP line. -/
def Terminal.begins (z : Terminal) (card : CardId) : Terminal :=
  { z with session := z.session.started card, out := z.out ++ [.show .wait] }

theorem startSession_up {s : State} {x : TerminalId} (card : CardId) (hand : Nat → Instr) (hline : (s.terminal x).line = .up) :
    s.startSession x card hand = (s.post (hand ((s.terminal x).session.attempt + 1))).onTerminal x fun z => z.begins card := by
  unfold State.startSession
  rw [sendTerminal_up _ (by simpa [State.onSession] using hline)]
  simp [State.onSession, onTerminal_onTerminal, post_onTerminal, Session.started, Terminal.begins]

theorem tapOrPaid_starts {s : State} {x : TerminalId} (card : CardId) (hand : Nat → Instr) (hline : (s.terminal x).line = .up)
    (hstate : (s.terminal x).session.state = .idle ∨ (s.terminal x).session.state = .choosing) :
    s.tapOrPaid x card hand = (s.post (hand ((s.terminal x).session.attempt + 1))).onTerminal x fun z => z.begins card := by
  unfold State.tapOrPaid
  rcases hstate with h | h <;> rw [h] <;> exact startSession_up card hand hline

theorem tapOrPaid_busy {s : State} {x : TerminalId} (card : CardId) (hand : Nat → Instr) (hline : (s.terminal x).line = .up)
    (hstate : (s.terminal x).session.state = .checking ∨ (s.terminal x).session.state = .offered) :
    s.tapOrPaid x card hand = s.onTerminal x fun z => { z with out := z.out ++ [.refuse .busy] } := by
  unfold State.tapOrPaid
  rcases hstate with h | h <;> rw [h] <;> exact sendTerminal_up _ hline

/-! ### The allocation a session asks for (R108) -/

/-- The session waits for the answer of the allocator. -/
def Session.asks (x : Session) (cls : BikeClass) : Session :=
  { x with state := .checking, cls := some cls, claimDock := none, deadline := none, allocating := true }

theorem askAllocation_eq {s : State} {x : TerminalId} {card : CardId} {origin : CardOrigin} (cls : BikeClass)
    (exclude : Option DockNo) (hcard : (s.terminal x).session.card = some card) (horigin : (s.terminal x).session.origin = some origin) :
    s.askAllocation x cls exclude =
      (s.post (.allocation x cls card origin exclude)).onTerminal x fun z => { z with session := z.session.asks cls } := by
  unfold State.askAllocation
  simp only [hcard, horigin]
  rfl

/-! ### Arrivals on a line (R97, R98, R108) -/

theorem lineTakes_waits {s : State} {x : TerminalId} (a : LineArrival) (h : (s.terminal x).session.allocating = true) :
    s.lineTakes x a = s.onTerminal x fun z => { z with deferred := z.deferred ++ [a] } := if_pos h

theorem lineTakes_free {s : State} {x : TerminalId} (a : LineArrival) (h : (s.terminal x).session.allocating = false) :
    s.lineTakes x a = s.takeLine x a := if_neg (by simp [h])

/-- The bad records of a terminal are counted again from 0. -/
def Terminal.counted (z : Terminal) : Terminal := { z with badCount := 0 }

@[simp] theorem counted_line (z : Terminal) : z.counted.line = z.line := rfl
@[simp] theorem counted_session (z : Terminal) : z.counted.session = z.session := rfl

theorem goodRecord_eq {s : State} {x : TerminalId} (f : State → State) (hline : (s.terminal x).line ≠ .disabled) :
    s.goodRecord x f = f (s.onTerminal x Terminal.counted) := if_neg hline

theorem goodRecord_disabled {s : State} {x : TerminalId} (f : State → State) (hline : (s.terminal x).line = .disabled) :
    s.goodRecord x f = s := if_pos hline

theorem goodRecordUp_eq {s : State} {x : TerminalId} (f : State → State) (hline : (s.terminal x).line = .up) :
    s.goodRecordUp x f = f (s.onTerminal x Terminal.counted) := by
  unfold State.goodRecordUp
  rw [goodRecord_eq _ (by simp [hline])]
  exact if_pos (by simpa using hline)

/-- An arrival on a line that no allocation holds up, whose act leaves the host link as it was. -/
theorem arrival_next {s : State} {c : Instr} {x : TerminalId} {a : LineArrival} {t : State} (hready : s.ready)
    (hexec : exec c s = lineArrival c x a s) (hfree : (s.terminal x).session.allocating = false)
    (ht : (s.taking c).takeLine x a = t) (hhost : t.host = s.host) : exec c s = .next t := by
  rw [hexec]
  refine ready_next hready t ?_ hhost
  rw [lineTakes_free (s := s.taking c) a (by exact hfree)]
  exact ht

section
variable {s : State} {x : TerminalId}

theorem takeTap_starts {card : CardId} (hcard : card ≠ 0) (hline : (s.terminal x).line = .up)
    (hstate : (s.terminal x).session.state = .idle ∨ (s.terminal x).session.state = .choosing) :
    s.takeTap x card = (s.post (.cardCheck card (.terminal x ((s.terminal x).session.attempt + 1)))).onTerminal x
      fun z => z.counted.begins card := by
  unfold State.takeTap
  rw [goodRecordUp_eq _ hline, if_neg hcard, tapOrPaid_starts _ _ (by simpa using hline) (by simpa using hstate)]
  simp [onTerminal_onTerminal, post_onTerminal]

theorem takeTap_busy {card : CardId} (hcard : card ≠ 0) (hline : (s.terminal x).line = .up)
    (hstate : (s.terminal x).session.state = .checking ∨ (s.terminal x).session.state = .offered) :
    s.takeTap x card = s.onTerminal x fun z => { z.counted with out := z.out ++ [.refuse .busy] } := by
  unfold State.takeTap
  rw [goodRecordUp_eq _ hline, if_neg hcard, tapOrPaid_busy _ _ (by simpa using hline) (by simpa using hstate)]
  exact onTerminal_onTerminal s x _ _

theorem takePaid_starts {code : CardId} (rights : Byte) (expiry : ClockTime) (hline : (s.terminal x).line = .up)
    (hstate : (s.terminal x).session.state = .idle ∨ (s.terminal x).session.state = .choosing) :
    s.takePaid x code rights expiry =
      (s.post (.passSale x ((s.terminal x).session.attempt + 1) code rights expiry)).onTerminal x
        fun z => z.counted.begins code := by
  unfold State.takePaid
  rw [goodRecordUp_eq _ hline, tapOrPaid_starts _ _ (by simpa using hline) (by simpa using hstate)]
  simp [onTerminal_onTerminal, post_onTerminal]

theorem takePaid_busy {code : CardId} (rights : Byte) (expiry : ClockTime) (hline : (s.terminal x).line = .up)
    (hstate : (s.terminal x).session.state = .checking ∨ (s.terminal x).session.state = .offered) :
    s.takePaid x code rights expiry = s.onTerminal x fun z => { z.counted with out := z.out ++ [.refuse .busy] } := by
  unfold State.takePaid
  rw [goodRecordUp_eq _ hline, tapOrPaid_busy _ _ (by simpa using hline) (by simpa using hstate)]
  exact onTerminal_onTerminal s x _ _

theorem takePick_asks {cls : BikeClass} {card : CardId} {origin : CardOrigin} (hline : (s.terminal x).line = .up)
    (hstate : (s.terminal x).session.state = .choosing) (hrights : ¬ (cls = .electric ∧ (s.terminal x).session.rights = some .standard))
    (hcard : (s.terminal x).session.card = some card) (horigin : (s.terminal x).session.origin = some origin) :
    s.takePick x cls = (s.post (.allocation x cls card origin none)).onTerminal x
      fun z => { z.counted with session := z.session.asks cls } := by
  unfold State.takePick
  rw [goodRecordUp_eq _ hline]
  simp only [terminal_onTerminal_self, counted_session]
  rw [if_neg (by simp [hstate]), if_neg hrights, askAllocation_eq _ _ (by simpa using hcard) (by simpa using horigin),
    post_onTerminal, onTerminal_onTerminal]
  rfl

theorem takePick_noRight (hline : (s.terminal x).line = .up) (hstate : (s.terminal x).session.state = .choosing)
    (hrights : (s.terminal x).session.rights = some .standard) :
    s.takePick x .electric = s.onTerminal x fun z => z.counted.told (.refuse .noRight) := by
  unfold State.takePick
  rw [goodRecordUp_eq _ hline]
  simp only [terminal_onTerminal_self, counted_session]
  rw [if_neg (by simp [hstate]), if_pos (by simpa using hrights), refuseSession_up _ (by simpa using hline)]
  exact onTerminal_onTerminal s x _ _

theorem takePick_unread (cls : BikeClass) (hline : (s.terminal x).line = .up) (hstate : (s.terminal x).session.state ≠ .choosing) :
    s.takePick x cls = s.onTerminal x Terminal.counted := by
  unfold State.takePick
  rw [goodRecordUp_eq _ hline]
  exact if_pos (by simpa using hstate)

theorem takeCancel_ends (hline : (s.terminal x).line = .up) (hstate : (s.terminal x).session.state = .choosing) :
    s.takeCancel x = s.onTerminal x fun z => z.counted.told (.show .welcome) := by
  unfold State.takeCancel
  rw [goodRecordUp_eq _ hline, if_pos (by simpa using hstate), abandonChoice_up (by simpa using hline)]
  exact onTerminal_onTerminal s x _ _

theorem takeCancel_unread (hline : (s.terminal x).line = .up) (hstate : (s.terminal x).session.state ≠ .choosing) :
    s.takeCancel x = s.onTerminal x Terminal.counted := by
  unfold State.takeCancel
  rw [goodRecordUp_eq _ hline]
  exact if_neg (by simpa using hstate)

end

/-! ### What a rider does at a line -/

/-- Whatever arrives while the session waits on the allocator is kept for later (log 11). -/
theorem arrival_deferred {s : State} {x : TerminalId} {c : Instr} {a : LineArrival} (hready : s.ready)
    (hexec : exec c s = lineArrival c x a s) (hwaits : (s.terminal x).session.allocating = true) :
    exec c s = .next
      (withTerminal { s with inFlight := s.inFlight.erase c } x fun z => { z with deferred := z.deferred ++ [a] }) := by
  rw [hexec]
  exact ready_next hready _ (lineTakes_waits (s := s.taking c) a (by exact hwaits)) rfl

theorem reached_of_le {s : State} {d : Elapsed} {o : Option Elapsed} (ho : o = some d) (hd : d ≤ s.now) : s.reached o = true := by
  rw [ho]
  simpa [State.reached] using hd

theorem sessionDue_of_reached {s : State} {x : TerminalId} {st : TerminalState} {d : Elapsed}
    (hstate : (s.terminal x).session.state = st) (hdeadline : (s.terminal x).session.deadline = some d) (hd : d ≤ s.now) :
    s.sessionDue x st = true := by
  unfold State.sessionDue
  rw [reached_of_le hdeadline hd, hstate]
  simp

/-- Settles O53: record by record, through what each does to its terminal. -/
theorem ridersUseTheTerminal : Obligations.RidersUseTheTerminal := by
  refine ⟨fun s x card cls rights expiry hready hwaits p hp => ?_, fun s x y hready hy hfree hline => ?_⟩
  · simp only [List.mem_cons, List.not_mem_nil, or_false] at hp
    rcases hp with rfl | rfl | rfl | rfl | rfl | rfl | rfl | rfl <;> exact arrival_deferred hready rfl hwaits
  · subst hy
    refine ⟨fun card c work hc => ⟨fun hstate => ?_, fun hstate => ?_⟩, fun cls card origin hstate hcard horigin hrights => ?_,
      fun hstate hrights => ?_, fun hstate => ?_, fun hstate c hc => ?_, fun d hstate hdeadline hd => ?_⟩
    · rcases hc with ⟨rfl, hcard, rfl⟩ | ⟨rights, expiry, rfl, rfl⟩
      · exact arrival_next hready rfl hfree (takeTap_starts (s := s.taking _) hcard hline hstate) rfl
      · exact arrival_next hready rfl hfree (takePaid_starts (s := s.taking _) rights expiry hline hstate) rfl
    · rcases hc with ⟨rfl, hcard, rfl⟩ | ⟨rights, expiry, rfl, rfl⟩
      · exact arrival_next hready rfl hfree (takeTap_busy (s := s.taking _) hcard hline hstate) rfl
      · exact arrival_next hready rfl hfree (takePaid_busy (s := s.taking _) rights expiry hline hstate) rfl
    · exact arrival_next hready rfl hfree (takePick_asks (s := s.taking _) hline hstate hrights hcard horigin) rfl
    · exact arrival_next hready rfl hfree (takePick_noRight (s := s.taking _) hline hstate hrights) rfl
    · exact arrival_next hready rfl hfree (takeCancel_ends (s := s.taking _) hline hstate) rfl
    · simp only [List.mem_cons, List.not_mem_nil, or_false] at hc
      rcases hc with rfl | rfl | rfl
      · exact arrival_next hready rfl hfree (takePick_unread (s := s.taking _) .standard hline hstate) rfl
      · exact arrival_next hready rfl hfree (takePick_unread (s := s.taking _) .electric hline hstate) rfl
      · exact arrival_next hready rfl hfree (takeCancel_unread (s := s.taking _) hline hstate) rfl
    · have hdue : (s.taking (.choosingDeadline x)).sessionDue x .choosing = true := sessionDue_of_reached hstate hdeadline hd
      refine ready_next hready _ ?_ rfl
      simp only [if_pos hdue]
      exact abandonChoice_up (s := s.taking _) hline

end Sys2Proof.Machine
end


section
/-! What a terminal session is told: the results of its checks, the news of its claim, and its deadlines (5.3). -/

namespace Sys2Proof.Machine

variable {s : State} {x : TerminalId}

/-! ### Results of a check (R105, R106) -/

theorem takeResult_ends {result : CheckResult} {record : TermRecord} (hline : (s.terminal x).line = .up)
    (h : (result, record) ∈ [(CheckResult.vanOpened, TermRecord.done .vanOpened), (.vanClosed, .done .vanClosed)]
      ∨ ∃ why, result = .deny why ∧ record = .refuse why) :
    s.takeResult x result = s.onTerminal x fun z => z.told record := by
  simp only [List.mem_cons, Prod.mk.injEq, List.not_mem_nil, or_false] at h
  rcases h with (⟨rfl, rfl⟩ | ⟨rfl, rfl⟩) | ⟨why, rfl, rfl⟩
  · exact finishSession_up _ hline
  · exact finishSession_up _ hline
  · exact refuseSession_up _ hline

/-- The session of a member's card, with the rights that its result brought. -/
def State.recognised (s : State) (x : TerminalId) (origin : CardOrigin) (rights : Rights) : State :=
  s.onSession x fun z => { z with origin := some origin, rights := some rights }

@[simp] theorem recognised_line (origin : CardOrigin) (rights : Rights) :
    ((s.recognised x origin rights).terminal x).line = (s.terminal x).line := by
  simp [State.recognised, State.onSession]

theorem chooseClass_both {rights : Rights} (hline : (s.terminal x).line = .up) (hstandard : s.classAvailable .standard = true)
    (helectric : (rights == .standardElectric && s.classAvailable .electric) = true) :
    s.chooseClass x rights = s.onTerminal x fun z =>
      { z with session := { z.session with state := .choosing, deadline := some (s.now + s.settings.terminalIdle) }
               out := z.out ++ [.show .choose] } := by
  unfold State.chooseClass
  rw [hstandard, helectric]
  dsimp only
  rw [sendTerminal_up _ (by simpa [State.onSession] using hline), State.onSession, onTerminal_onTerminal]

theorem chooseClass_one {rights : Rights} {card : CardId} {origin : CardOrigin}
    (hone : s.classAvailable .standard ≠ (rights == .standardElectric && s.classAvailable .electric))
    (hcard : (s.terminal x).session.card = some card) (horigin : (s.terminal x).session.origin = some origin) :
    s.chooseClass x rights =
      (s.post (.allocation x (if s.classAvailable .standard = true then .standard else .electric) card origin none)).onTerminal x
        fun z => { z with session := z.session.asks (if s.classAvailable .standard = true then .standard else .electric) } := by
  unfold State.chooseClass
  generalize (rights == .standardElectric && s.classAvailable .electric) = e at hone
  generalize s.classAvailable .standard = a at hone
  cases a <;> cases e
  case false.true => exact askAllocation_eq .electric none hcard horigin
  case true.false => exact askAllocation_eq .standard none hcard horigin
  case false.false | true.true => exact absurd rfl hone

theorem chooseClass_none {rights : Rights} (hline : (s.terminal x).line = .up) (hstandard : s.classAvailable .standard = false)
    (helectric : (rights == .standardElectric && s.classAvailable .electric) = false) :
    s.chooseClass x rights = s.onTerminal x fun z => z.told (.refuse .noBike) := by
  unfold State.chooseClass
  rw [hstandard, helectric]
  exact refuseSession_up _ hline

theorem chooseClass_only (rights : Rights) : Only [.inFlight, .term] s (s.chooseClass x rights) := by
  unfold State.chooseClass
  split <;> simp

/-! ### News of a claim (R109) -/

theorem takeClaimNews_released (d : DockNo) (w : Nat) (hline : (s.terminal x).line = .up) :
    s.takeClaimNews x d (.released w) = s.onTerminal x fun z =>
      { z with session := { z.session with deadline := some (s.now + w + 5 + s.store.live.terminalIdle) }
               out := z.out ++ [.show .take] } := by
  unfold State.takeClaimNews
  dsimp only
  rw [sendTerminal_up _ hline, State.onSession, onTerminal_onTerminal]
  rfl

theorem claimFailed_again {d : DockNo} (hline : (s.terminal x).line = .up) (hagain : (s.terminal x).session.reallocated = true) :
    s.claimFailed x d = s.onTerminal x fun z => z.told (.refuse .jammed) := by
  unfold State.claimFailed
  simp only [if_pos hagain]
  exact refuseSession_up _ hline

/-- The first failure: another dock is asked for, and this one is excluded. -/
theorem claimFailed_first {d : DockNo} {cls : BikeClass} {card : CardId} {origin : CardOrigin}
    (hfirst : (s.terminal x).session.reallocated = false) (hcls : (s.terminal x).session.cls = some cls)
    (hcard : (s.terminal x).session.card = some card) (horigin : (s.terminal x).session.origin = some origin) :
    s.claimFailed x d = (s.post (.allocation x cls card origin (some d))).onTerminal x fun z =>
      { z with session := { z.session with state := .checking, claimDock := none, deadline := none, allocating := true,
                                           reallocated := true } } := by
  unfold State.claimFailed
  simp only [if_neg (Bool.eq_false_iff.mp hfirst), hcls]
  rw [askAllocation_eq (card := card) (origin := origin) cls (some d) (by simpa [State.onSession] using hcard)
    (by simpa [State.onSession] using horigin), State.onSession, post_onTerminal, onTerminal_onTerminal]
  refine onTerminal_congr ?_
  have hterminal : ((s.post (.allocation x cls card origin (some d))).terminal x).session.cls = some cls := hcls
  simp only [Session.asks, ← hterminal]

theorem takeClaimNews_ends {d : DockNo} {news : ClaimNews} {record : TermRecord} (hline : (s.terminal x).line = .up)
    (h : (news, record) ∈ [(ClaimNews.taken, TermRecord.done .hire), (.lapsed, .refuse .lapsed)]
      ∨ (news = .failed ∧ (s.terminal x).session.reallocated = true ∧ record = .refuse .jammed)) :
    s.takeClaimNews x d news = s.onTerminal x fun z => z.told record := by
  simp only [List.mem_cons, Prod.mk.injEq, List.not_mem_nil, or_false] at h
  rcases h with (⟨rfl, rfl⟩ | ⟨rfl, rfl⟩) | ⟨rfl, hagain, rfl⟩
  · exact finishSession_up _ hline
  · exact refuseSession_up _ hline
  · exact claimFailed_again hline hagain

/-! ### The acts -/

/-- A result that the session waits for is taken. -/
theorem checkResult_taken {result : CheckResult} {t : State} (hready : s.ready) (hstate : (s.terminal x).session.state = .checking)
    (hfree : (s.terminal x).session.allocating = false)
    (ht : (s.taking (.checkResultAtSession x (s.terminal x).session.attempt result)).takeResult x result = t)
    (hhost : t.host = s.host) : exec (.checkResultAtSession x (s.terminal x).session.attempt result) s = .next t := by
  simp only [exec, execCheckResultAtSession]
  refine ready_next hready t ?_ hhost
  refine Eq.trans (if_pos ⟨hstate, ?_, rfl⟩) ht
  exact fun hallocating => absurd (hfree.symm.trans hallocating) (by decide)

/-- News of the dock that the session was offered is taken. -/
theorem claimNotice_taken {d : DockNo} {news : ClaimNews} {t : State} (hready : s.ready)
    (hstate : (s.terminal x).session.state = .offered) (hdock : (s.terminal x).session.claimDock = some d)
    (ht : (s.taking (.claimNoticeAtSession x d news)).takeClaimNews x d news = t) (hhost : t.host = s.host) :
    exec (.claimNoticeAtSession x d news) s = .next t := by
  simp only [exec, execClaimNoticeAtSession]
  refine ready_next hready t ?_ hhost
  exact Eq.trans (if_pos ⟨hstate, hdock⟩) ht

/-- Settles O54: each result, each piece of news and the deadline of an offer. -/
theorem sessionsAreTold : Obligations.SessionsAreTold := by
  intro s x y hready hy hline
  subst hy
  refine ⟨fun result record hstate hfree h => ?_, fun card origin rights hstate hfree hcard => ?_, fun attempt result hnot => ?_,
    fun d w hstate hdock => ?_, fun d news record hstate hdock h => ?_,
    fun d cls card origin hstate hdock hfirst hcls hcard horigin => ?_, fun d news hnot => ?_, fun d hstate hdeadline hd => ?_⟩
  · exact checkResult_taken hready hstate hfree (takeResult_ends (s := s.taking _) hline h) rfl
  · let i := Instr.checkResultAtSession x (s.terminal x).session.attempt (.member card origin rights)
    let u := (s.taking i).recognised x origin rights
    have hu : (u.terminal x).line = .up := (recognised_line (s := s.taking i) origin rights).trans hline
    have huout : (u.terminal x).out = (s.terminal x).out := by simp [u, State.recognised, State.onSession, State.taking, State.terminal]
    have hucard : (u.terminal x).session.card = some card := by
      simpa [u, State.recognised, State.onSession, State.taking, State.terminal] using hcard
    have huorigin : (u.terminal x).session.origin = some origin := by simp [u, State.recognised, State.onSession]
    have honly := chooseClass_only (s := u) (x := x) rights
    refine ⟨u.chooseClass x rights, checkResult_taken hready hstate hfree rfl ?_, ?_, Only.trans (by simp [u, State.recognised]) honly⟩
    · exact honly .host (by decide)
    · rintro standard electric rfl rfl
      refine ⟨fun hstandard helectric => ?_, fun hone => ?_, fun hstandard helectric => ?_⟩
      · rw [chooseClass_both hu hstandard helectric]
        simp [huout]
        rfl
      · rw [chooseClass_one (s := u) hone hucard huorigin]
        simp [Session.asks]
        rfl
      · rw [chooseClass_none hu hstandard helectric]
        simp [Terminal.told, huout]
  · refine onlyTaken_of_same hready rfl (if_neg ?_)
    rintro ⟨hstate, -, hattempt⟩
    rcases hnot with h | h
    · exact h hstate
    · exact h hattempt.symm
  · exact claimNotice_taken hready hstate hdock (takeClaimNews_released (s := s.taking _) d w hline) rfl
  · exact claimNotice_taken hready hstate hdock (takeClaimNews_ends (s := s.taking _) hline h) rfl
  · exact claimNotice_taken hready hstate hdock (claimFailed_first (s := s.taking _) hfirst hcls hcard horigin) rfl
  · refine onlyTaken_of_same hready rfl (if_neg ?_)
    rintro ⟨hstate, hdock⟩
    rcases hnot with h | h
    · exact h hstate
    · exact h hdock
  · have hdue : (s.taking (.offeredDeadline x)).sessionDue x .offered = true := sessionDue_of_reached hstate hdeadline hd
    refine ⟨((s.taking (.offeredDeadline x)).disown x).onTerminal x fun z => z.told (.refuse .jammed), ?_, rfl, rfl, ?_, by simp⟩
    · refine ready_next hready _ ?_ rfl
      simp only [if_pos hdue]
      exact refuseSession_up _ hline
    · exact (List.append_nil _).symm

end Sys2Proof.Machine
end


section
/-! The line of a terminal: HELLO, breaks, bad records, TERMINAL_ENABLE, and the power of its output (5.1). -/

namespace Sys2Proof.Machine

/-! ### What an abort and a change of line do (R97, R112) -/

section
variable {s : State} {x : TerminalId}

theorem abortSession_idle (h : (s.terminal x).session.state = .idle) : s.abortSession x = s := if_pos h

theorem abortSession_eq (h : (s.terminal x).session.state ≠ .idle) :
    s.abortSession x = (aborted s x).onTerminal x fun z => { z with session := z.session.ended } := if_neg h

/-- A line in a state, with TERMINAL_CHANGED in the notice set. -/
theorem setLine_eq (l : LineState) :
    s.setLine x l = (s.join .terminalChanged).onTerminal x fun z => { z with line := l } := rfl

theorem lineLeavesUp_idle (l : LineState) (h : (s.terminal x).session.state = .idle) : s.lineLeavesUp x l = s.setLine x l :=
  abortSession_idle (by simpa [setLine_eq, State.terminal, State.join] using h)

theorem lineLeavesUp_eq (l : LineState) (h : (s.terminal x).session.state ≠ .idle) :
    s.lineLeavesUp x l = ((aborted s x).join .terminalChanged).onTerminal x fun z =>
      { z with line := l, session := z.session.ended } := by
  unfold State.lineLeavesUp
  rw [abortSession_eq (by simpa [setLine_eq, State.terminal, State.join] using h)]
  rw [show aborted (s.setLine x l) x = ((aborted s x).join .terminalChanged).onTerminal x fun z => { z with line := l } from rfl,
    onTerminal_onTerminal]

theorem takeHello_down (hline : (s.terminal x).line = .down) :
    s.takeHello x = (s.join .terminalChanged).onTerminal x fun z =>
      { z with line := .up, badCount := 0, out := z.out ++ [.show .welcome] } := by
  unfold State.takeHello
  rw [goodRecord_eq _ (by simp [hline]), if_neg (by simp [hline]), State.lineComesUp,
    sendTerminal_up _ (by simp [setLine_eq]), setLine_eq, onTerminal_onTerminal]
  exact onTerminal_onTerminal (s.join .terminalChanged) x _ _

theorem takeHello_idle (hline : (s.terminal x).line = .up) (h : (s.terminal x).session.state = .idle) :
    s.takeHello x = s.onTerminal x fun z => { z with badCount := 0, out := z.out ++ [.show .welcome] } := by
  unfold State.takeHello
  rw [goodRecord_eq _ (by simp [hline]), if_pos (by simpa using hline), abortSession_idle (by simpa using h),
    sendTerminal_up _ (by simpa using hline)]
  exact onTerminal_onTerminal s x _ _

theorem takeHello_aborts (hline : (s.terminal x).line = .up) (h : (s.terminal x).session.state ≠ .idle) :
    s.takeHello x = (aborted s x).onTerminal x fun z =>
      { z with badCount := 0, session := z.session.ended, out := z.out ++ [.show .welcome] } := by
  unfold State.takeHello
  rw [goodRecord_eq _ (by simp [hline]), if_pos (by simpa using hline), abortSession_eq (by simpa using h),
    sendTerminal_up _ (by simpa [State.terminal, aborted] using hline), onTerminal_onTerminal]
  exact onTerminal_onTerminal (aborted s x) x _ _

theorem lineFalls_up (hline : (s.terminal x).line = .up) : s.lineFalls x = s.lineLeavesUp x .down := if_pos hline

theorem lineFalls_not_up (hline : (s.terminal x).line ≠ .up) : s.lineFalls x = s := if_neg hline

/-- A line that leaves UP is in its new state; its session is at rest. -/
theorem terminal_lineLeavesUp (l : LineState) :
    (s.lineLeavesUp x l).terminal x = { s.terminal x with line := l
                                                          session := if (s.terminal x).session.state = .idle
                                                            then (s.terminal x).session else (s.terminal x).session.ended } := by
  by_cases h : (s.terminal x).session.state = .idle
  case pos =>
    rw [lineLeavesUp_idle l h, if_pos h, setLine_eq]
    simp [State.terminal, State.join]
  case neg =>
    rw [lineLeavesUp_eq l h, if_neg h]
    simp [State.terminal, State.join, aborted]

theorem terminal_lineLeavesUp_other {y : TerminalId} (l : LineState) (hy : y ≠ x) :
    (s.lineLeavesUp x l).terminal y = s.terminal y := by
  by_cases h : (s.terminal x).session.state = .idle
  case pos =>
    rw [lineLeavesUp_idle l h, setLine_eq, terminal_onTerminal_other _ _ _ _ hy]
    rfl
  case neg =>
    rw [lineLeavesUp_eq l h, terminal_onTerminal_other _ _ _ _ hy]
    rfl

theorem lineLeavesUp_noticeSet (l : LineState) :
    (s.lineLeavesUp x l).host.noticeSet = s.host.noticeSet ||| NoticeKind.terminalChanged.bit := by
  by_cases h : (s.terminal x).session.state = .idle
  case pos =>
    rw [lineLeavesUp_idle l h, setLine_eq]
    simp
  case neg =>
    rw [lineLeavesUp_eq l h]
    simp [aborted]

/-! ### Bad records (R98) -/

theorem badRecord_counts (hline : (s.terminal x).line ≠ .disabled) (hcount : (s.terminal x).badCount < 3) :
    s.badRecord x = s.onTerminal x fun z => { z with badCount := z.badCount + 1 } := by
  unfold State.badRecord
  simp only [if_neg hline]
  exact if_pos (by omega)

/-- The line that its fourth bad record disables. -/
def State.lineDisabled (s : State) (x : TerminalId) : State :=
  if (s.terminal x).line = .up then (s.onTerminal x Terminal.counted).lineLeavesUp x .disabled
  else (s.onTerminal x Terminal.counted).setLine x .disabled

theorem badRecord_disables (hline : (s.terminal x).line ≠ .disabled) (hcount : 3 ≤ (s.terminal x).badCount) :
    s.badRecord x = (s.lineDisabled x).raise (.terminal x) .lineFailed none := by
  unfold State.badRecord
  simp only [if_neg hline]
  rw [if_neg (by omega)]
  rfl

theorem terminal_lineDisabled :
    ((s.lineDisabled x).terminal x).line = .disabled ∧ ((s.lineDisabled x).terminal x).badCount = 0 := by
  unfold State.lineDisabled
  split
  case isTrue =>
    rw [terminal_lineLeavesUp]
    simp [Terminal.counted]
  case isFalse =>
    rw [setLine_eq]
    simp [State.terminal, State.join, Terminal.counted]

theorem lineDisabled_noticeSet :
    (s.lineDisabled x).host.noticeSet = s.host.noticeSet ||| NoticeKind.terminalChanged.bit := by
  unfold State.lineDisabled
  split
  case isTrue => exact lineLeavesUp_noticeSet _
  case isFalse => simp [setLine_eq]

end

/-! ### The acts -/

theorem arrival_taken {s : State} {c : Instr} {x : TerminalId} {a : LineArrival} {u : State} (hready : s.ready)
    (hexec : exec c s = lineArrival c x a s) (hfree : (s.terminal x).session.allocating = false)
    (hu : (s.taking c).takeLine x a = u) : exec c s = .next (u.onHost HostLink.beginSending) := by
  rw [hexec]
  unfold lineArrival
  rw [act_running hready.1, lineTakes_free (s := s.taking c) a (by exact hfree), hu]

theorem changed_inSet {h : HostLink} {m : Half} (hset : h.noticeSet = m ||| NoticeKind.terminalChanged.bit) :
    NoticeKind.terminalChanged.inSet h.beginSending.noticeSet = true := by
  rw [beginSending_noticeSet, hset]
  exact inSet_or _ _

/-- The line that TERMINAL_ENABLE brings back. -/
theorem enableLine_disabled {s : State} {x : TerminalId} (hline : (s.terminal x).line = .disabled) :
    s.enableLine x = ((s.join .terminalChanged).onTerminal x fun z => { z with line := .down, badCount := 0 }).resolveRecord
      (.terminal x) .lineFailed := by
  unfold State.enableLine State.resolveFault State.setHold
  rw [if_pos hline, setLine_eq]
  dsimp only
  rw [show ((s.onTerminal x fun z => { z with badCount := 0 }).join .terminalChanged) =
    (s.join .terminalChanged).onTerminal x fun z => { z with badCount := 0 } from rfl, onTerminal_onTerminal]

theorem enableLine_other {s : State} {x : TerminalId} (hline : (s.terminal x).line ≠ .disabled) : s.enableLine x = s := if_neg hline

theorem resolveRecord_resolved {s : State} {subject : FaultSubject} {kind : FaultKind} {y : FaultRecord}
    (hy : y ∈ (s.resolveRecord subject kind).fault.table) (hsubject : y.subject = subject) (hkind : y.kind = kind) :
    y.condition = .resolved := by
  unfold State.resolveRecord at hy
  simp only [onFaults_fault, List.mem_map] at hy
  obtain ⟨r, -, rfl⟩ := hy
  split at hsubject
  case isTrue h => simp [h]
  case isFalse h =>
    rw [if_neg h] at hkind
    exact absurd ⟨hsubject, hkind⟩ h

/-- Settles O51: HELLO, breaks and bad records in each state of the line, and TERMINAL_ENABLE. -/
theorem linesComeAndGo : Obligations.LinesComeAndGo := by
  intro s x hready hfree
  refine ⟨fun hline => ?_, fun hline hidle => ?_, fun hline hidle c hc => ?_, fun hline hidle => ?_, fun hline => ?_,
    fun hline hcount => ?_, fun hline hcount => ?_, fun hline => ?_, fun hline c hc => ?_, fun tag hline => ?_, fun tag hline => ?_⟩
  · refine ⟨_, arrival_taken hready rfl hfree (takeHello_down (s := s.taking _) hline), rfl, changed_inSet (m := s.host.noticeSet) ?_,
      by simp⟩
    simp
  · exact arrival_next hready rfl hfree (takeHello_idle (s := s.taking _) hline hidle) rfl
  · simp only [List.mem_cons, List.not_mem_nil, or_false] at hc
    rcases hc with rfl | rfl
    · have hexec := arrival_taken (c := .terminalHello x) (a := .hello) hready rfl hfree (takeHello_aborts (s := s.taking (.terminalHello x)) hline hidle)
      refine ⟨_, hexec, ?_, rfl, rfl, ?_, (exec_only _ _ _ hexec).mono (by simp [parts])⟩
      · simp [State.terminal, Session.ended, aborted]
      · simpa [State.terminal, aborted] using hline
    · have hexec := arrival_taken (c := .lineBreak x) (a := .broken) hready rfl hfree ((lineFalls_up (s := s.taking (.lineBreak x)) hline).trans
        (lineLeavesUp_eq (s := s.taking (.lineBreak x)) .down hidle))
      refine ⟨_, hexec, ?_, rfl, rfl, ?_, (exec_only _ _ _ hexec).mono (by simp [parts])⟩
      · simp [State.terminal, State.join, Session.ended, aborted]
      · simp [State.terminal, State.join, aborted]
  · refine ⟨_, arrival_taken hready rfl hfree ((lineFalls_up (s := s.taking (.lineBreak x)) hline).trans
      (lineLeavesUp_idle (s := s.taking (.lineBreak x)) .down hidle)), rfl, changed_inSet (m := s.host.noticeSet) ?_, by simp [setLine_eq]⟩
    simp [setLine_eq]
  · exact arrival_next hready rfl hfree (lineFalls_not_up (s := s.taking _) hline) rfl
  · exact arrival_next hready rfl hfree (badRecord_counts (s := s.taking _) hline hcount) rfl
  · have hexec := arrival_taken (c := .terminalBadRecord x) (a := .bad) hready rfl hfree
      (badRecord_disables (s := s.taking (.terminalBadRecord x)) hline hcount)
    obtain ⟨hdisabled, hzero⟩ := terminal_lineDisabled (s := s.taking (.terminalBadRecord x)) (x := x)
    refine ⟨_, hexec, hdisabled, hzero, ?_, changed_inSet (m := s.host.noticeSet) ?_, (exec_only _ _ _ hexec).mono (by simp [parts])⟩
    · simp
    · exact lineDisabled_noticeSet (s := s.taking _)
  · exact arrival_next hready rfl hfree (goodRecord_eq (s := s.taking _) id hline) rfl
  · simp only [List.mem_cons, List.not_mem_nil, or_false] at hc
    rcases hc with rfl | rfl | rfl
    · exact arrival_next (a := .hello) hready rfl hfree (if_pos (by exact hline)) rfl
    · exact arrival_next hready rfl hfree (if_pos (by exact hline)) rfl
    · exact arrival_next hready rfl hfree (goodRecord_disabled (s := s.taking _) _ hline) rfl
  · refine ⟨((((s.taking (.terminalEnable tag [byteOf (Code.terminal x)])).join .terminalChanged).onTerminal x fun z =>
      { z with line := .down, badCount := 0 }).resolveRecord (.terminal x) .lineFailed).reply 0x1B tag .ok
        |>.onHost HostLink.beginSending, ?_, rfl, fun y hy => resolveRecord_resolved hy, reply_answered _ _ _ _ _, ?_⟩
    · simp only [exec, execTerminalEnable]
      rw [request_ok hready.1 (operands_terminal x), enableLine_disabled (s := s.taking _) hline]
    · simp [State.resolveRecord]
  · simp only [exec, execTerminalEnable]
    exact request_replies (s.taking _) .ok .nothing hready (operands_terminal x)
      (congrArg (fun u : State => u.reply 0x1B tag .ok) (enableLine_other (s := s.taking _) hline)) hready.2 rfl

end Sys2Proof.Machine
end


section
/-! The power of the terminals' outputs (R101). -/

namespace Sys2Proof.Machine

/-- What the power state makes of one terminal (R97, R101). -/
def Powered (p : PowerState) (z z' : Terminal) : Prop :=
  z'.power = (p == .mains)
    ∧ (p ≠ .mains → z.power = true → z.line = .up → z'.line = .down ∧ z'.session.state = .idle)
    ∧ (p = .mains ∨ z.power = false ∨ z.line ≠ .up → z'.line = z.line ∧ z'.session = z.session)

/-- An output that is not switched OFF, or whose line is not UP, only follows the power state. -/
theorem powerTerminal_follows {s : State} {p : PowerState} {x : TerminalId} (hfree : (s.terminal x).session.allocating = false)
    (h : p = .mains ∨ (s.terminal x).power = false ∨ (s.terminal x).line ≠ .up) :
    s.powerTerminal p x = s.onTerminal x fun z => { z with power := p = .mains } := by
  unfold State.powerTerminal
  dsimp only
  split
  case isFalse => rfl
  case isTrue hoff =>
    obtain ⟨hpower, hp⟩ := hoff
    have hline : (s.terminal x).line ≠ .up := by
      rcases h with h | h | h
      · exact absurd h hp
      · exact absurd (h.symm.trans hpower) (by decide)
      · exact h
    rw [lineTakes_free _ (by simpa using hfree)]
    exact lineFalls_not_up (by simpa using hline)

/-- An output that is switched OFF takes its UP line DOWN. -/
theorem powerTerminal_falls {s : State} {p : PowerState} {x : TerminalId} (hfree : (s.terminal x).session.allocating = false)
    (hp : p ≠ .mains) (hpower : (s.terminal x).power = true) (hline : (s.terminal x).line = .up) :
    s.powerTerminal p x = (s.onTerminal x fun z => { z with power := p = .mains }).lineLeavesUp x .down := by
  unfold State.powerTerminal
  rw [if_pos ⟨hpower, hp⟩, lineTakes_free _ (by simpa using hfree)]
  exact lineFalls_up (by simpa using hline)

theorem powerTerminal_powered {s : State} {p : PowerState} {x : TerminalId} (hfree : (s.terminal x).session.allocating = false) :
    Powered p (s.terminal x) ((s.powerTerminal p x).terminal x) := by
  by_cases h : p = .mains ∨ (s.terminal x).power = false ∨ (s.terminal x).line ≠ .up
  case pos =>
    rw [powerTerminal_follows hfree h, terminal_onTerminal_self]
    refine ⟨?_, fun hp hpower hline => ?_, fun _ => ⟨rfl, rfl⟩⟩
    · cases p <;> rfl
    · rcases h with h | h | h
      · exact absurd h hp
      · exact absurd (h.symm.trans hpower) (by decide)
      · exact absurd hline h
  case neg =>
    have hp : p ≠ .mains := fun hp => h (.inl hp)
    have hpower : (s.terminal x).power = true := by
      rcases Bool.eq_false_or_eq_true (s.terminal x).power with ht | hf
      · exact ht
      · exact absurd (.inr (.inl hf)) h
    have hline : (s.terminal x).line = .up := by
      by_contra hline
      exact h (.inr (.inr hline))
    rw [powerTerminal_falls hfree hp hpower hline, terminal_lineLeavesUp, terminal_onTerminal_self]
    refine ⟨?_, fun _ _ _ => ⟨rfl, ?_⟩, fun hstays => absurd hstays h⟩
    · cases p <;> rfl
    · dsimp only
      split
      case isTrue hidle => exact hidle
      case isFalse => rfl

theorem powerTerminal_other {s : State} {p : PowerState} {x y : TerminalId} (hfree : (s.terminal x).session.allocating = false)
    (hy : y ≠ x) : (s.powerTerminal p x).terminal y = s.terminal y := by
  by_cases h : p = .mains ∨ (s.terminal x).power = false ∨ (s.terminal x).line ≠ .up
  case pos =>
    rw [powerTerminal_follows hfree h]
    exact terminal_onTerminal_other _ _ _ _ hy
  case neg =>
    push Not at h
    obtain ⟨hp, hpower, hline⟩ := h
    rw [powerTerminal_falls hfree hp (by simpa using hpower) hline, terminal_lineLeavesUp_other _ hy]
    exact terminal_onTerminal_other _ _ _ _ hy

/-- The outputs are set one after the other, each once. -/
theorem foldl_powerTerminal (p : PowerState) (l : List TerminalId) (hl : l.Nodup) (s : State)
    (hfree : ∀ x ∈ l, (s.terminal x).session.allocating = false) :
    (∀ x ∈ l, Powered p (s.terminal x) ((l.foldl (State.powerTerminal p) s).terminal x))
      ∧ ∀ x, x ∉ l → (l.foldl (State.powerTerminal p) s).terminal x = s.terminal x := by
  induction l generalizing s with
  | nil => exact ⟨fun x hx => absurd hx List.not_mem_nil, fun x _ => rfl⟩
  | cons y ys ih =>
    obtain ⟨hy, hys⟩ := List.nodup_cons.mp hl
    have hy_free := hfree y List.mem_cons_self
    have hothers : ∀ x, x ≠ y → (s.powerTerminal p y).terminal x = s.terminal x := fun x => powerTerminal_other hy_free
    have hrest : ∀ x ∈ ys, (s.powerTerminal p y).terminal x = s.terminal x := fun x hx => hothers x fun h => hy (h ▸ hx)
    obtain ⟨hin, hout⟩ := ih hys (s.powerTerminal p y) fun x hx => by
      rw [hrest x hx]
      exact hfree x (List.mem_cons_of_mem y hx)
    refine ⟨fun x hx => ?_, fun x hx => ?_⟩
    · rcases List.mem_cons.mp hx with rfl | hx
      · rw [List.foldl_cons, hout x hy]
        exact powerTerminal_powered hy_free
      · rw [List.foldl_cons, ← hrest x hx]
        exact hin x hx
    · rw [List.foldl_cons, hout x fun h => hx (List.mem_cons_of_mem y h)]
      exact hothers x fun h => hx (h ▸ List.mem_cons_self)

/-- Settles O52: the four outputs follow one after the other, and none disturbs another. -/
theorem terminalsFollowThePower : Obligations.TerminalsFollowThePower := by
  intro s p hready hfree
  let i := Instr.terminalPowerSet p none
  have hexec : exec i s = .next ((terminals.foldl (State.powerTerminal p) (s.taking i)).onHost HostLink.beginSending) := by
    simp only [i, exec, execTerminalPowerSet]
    exact act_running hready.1
  obtain ⟨hpowered, -⟩ := foldl_powerTerminal p terminals (by decide) (s.taking i) fun x _ => hfree x
  exact ⟨_, hexec, fun x => hpowered x (by cases x <;> decide), (exec_only _ _ _ hexec).mono (by simp [i, parts])⟩

end Sys2Proof.Machine
end


section
/-! The allocator, and the answer of an allocation at its terminal (R89, R90, R108). -/

namespace Sys2Proof.Machine

/-! ### The dock whose bike has stood longest (R90) -/

theorem mem_of_firstLargest {α : Type} {f : α → Nat} {l : List α} {b : α} (h : firstLargest f l = some b) : b ∈ l := by
  induction l generalizing b with
  | nil => cases h
  | cons a as ih =>
    unfold firstLargest at h
    rcases has : firstLargest f as with _ | c
    · rw [has] at h
      exact Option.some.inj h ▸ List.mem_cons_self
    · rw [has] at h
      dsimp only at h
      split at h
      · exact Option.some.inj h ▸ List.mem_cons_self
      · exact Option.some.inj h ▸ List.mem_cons_of_mem a (ih has)

/-- In an ordered list, the first of the largest is the one that no other exceeds and none before it equals. -/
theorem firstLargest_eq {f : Nat → Nat} {l : List Nat} {b : Nat} (hl : l.Pairwise (· < ·)) (hb : b ∈ l)
    (h : ∀ a ∈ l, f a < f b ∨ (f a = f b ∧ b ≤ a)) : firstLargest f l = some b := by
  induction l with
  | nil => cases hb
  | cons a as ih =>
    obtain ⟨hfirst, has⟩ := List.pairwise_cons.mp hl
    unfold firstLargest
    rcases List.mem_cons.mp hb with rfl | hmem
    · rcases hrest : firstLargest f as with _ | c
      · rfl
      · have hc : f c ≤ f b := by
          rcases h c (List.mem_cons_of_mem b (mem_of_firstLargest hrest)) with hlt | ⟨heq, -⟩
          · exact Nat.le_of_lt hlt
          · exact Nat.le_of_eq heq
        exact if_pos hc
    · rw [ih has hmem fun c hc => h c (List.mem_cons_of_mem a hc)]
      have ha : f a < f b := by
        rcases h a List.mem_cons_self with hlt | ⟨-, hle⟩
        · exact hlt
        · exact absurd (hfirst b hmem) (Nat.not_lt.mpr hle)
      exact if_neg (Nat.not_le.mpr ha)

theorem hireable_iff (s : State) (k : BikeClass) (d : DockNo) :
    s.hireable k d = true ↔ ∃ r, s.dock? d = some r ∧ r.link = .online ∧ s.claimOn d = none ∧ s.requestOn d = none
      ∧ r.occupancy = .occupied ∧ r.lock = .locked ∧ (∃ b, r.bike = some b ∧ b.cls = k) ∧ s.level d = .full := by
  unfold State.hireable State.level
  rcases hd : s.dock? d with _ | r
  · simp
  · simp [Option.any_eq_true, and_assoc]

theorem dock?_lt {s : State} {d : DockNo} {r : DockRecord} (h : s.dock? d = some r) : d < s.dockCount :=
  (List.getElem?_eq_some_iff.mp h).1

theorem mem_allocatable {s : State} {k : BikeClass} {exclude : Option DockNo} {d : DockNo} :
    d ∈ s.allocatable k exclude ↔ s.hireable k d = true ∧ exclude ≠ some d := by
  unfold State.allocatable
  simp only [List.mem_filter, List.mem_range, Bool.and_eq_true, bne_iff_ne, ne_eq]
  refine ⟨And.right, fun h => ⟨?_, h⟩⟩
  obtain ⟨r, hr, -⟩ := (hireable_iff s k d).mp h.1
  exact dock?_lt hr

theorem standing_eq {s : State} {d : DockNo} {r : DockRecord} (h : s.dock? d = some r) :
    s.standing d = (s.dock.insertionCounter - r.insertionOrder).toNat := by
  unfold State.standing
  rw [h]

theorem allocate_eq {s : State} {k : BikeClass} {exclude : Option DockNo} {d : DockNo} (hd : d ∈ s.allocatable k exclude)
    (h : ∀ e ∈ s.allocatable k exclude, s.standing e < s.standing d ∨ (s.standing e = s.standing d ∧ d ≤ e)) :
    s.allocate k exclude = some d :=
  firstLargest_eq (List.Pairwise.filter _ List.pairwise_lt_range) hd h

theorem allocate_none {s : State} {k : BikeClass} {exclude : Option DockNo} (h : ∀ d, d ∉ s.allocatable k exclude) :
    s.allocate k exclude = none := by
  unfold State.allocate
  rw [List.eq_nil_iff_forall_not_mem.mpr h]
  rfl

/-- A dock that is eligible passes every test of R73 but those of the holder. -/
theorem claimTests_hireable {s : State} {k : BikeClass} {d : DockNo} {holder : CardId} (h : s.hireable k d = true)
    (hreleasing : ∀ c ∈ s.release.claims, c.state.releasing = true → c.holder ≠ some holder)
    (hheld : ∀ q ∈ s.release.requests, q.holder ≠ holder) : s.claimTests d .member holder none = none := by
  obtain ⟨r, hr, hlink, hclaim, hrequest, hoccupancy, hlock, ⟨b, hbike, -⟩, hlevel⟩ := (hireable_iff s k d).mp h
  have hfree : ¬ (s.releasingHolder holder = true ∨ s.heldHolder holder none = true) := by
    rw [releasingHolder_any, heldHolder_any]
    rintro (⟨c, hc, hstate, hholder⟩ | ⟨q, hq, hholder⟩)
    · exact hreleasing c hc hstate hholder
    · exact hheld q hq hholder
  unfold State.claimTests
  simp only [hr, if_neg hfree, hclaim, hrequest, hlink, hoccupancy, hlock, hlevel, hbike]
  simp [permits_member]

/-! ### The answer of an allocation (R108) -/

theorem withTerminal_eq (s : State) (x : TerminalId) (f : Terminal → Terminal) : withTerminal s x f = s.onTerminal x f := rfl

@[simp] theorem told_line (z : Terminal) (r : TermRecord) : (z.told r).line = z.line := rfl
@[simp] theorem told_deferred (z : Terminal) (r : TermRecord) : (z.told r).deferred = z.deferred := rfl

/-- The terminal after the answer: what its line deferred is taken next. -/
def Terminal.answered (z : Terminal) : Terminal := { z with deferred := [], session := { z.session with allocating := false } }

theorem allocationAnswered_empty {s : State} {x : TerminalId} (h : (s.terminal x).deferred = []) :
    s.allocationAnswered x = s.onTerminal x Terminal.answered := by
  unfold State.allocationAnswered
  rw [h]
  rfl

/-- One arrival that was deferred is taken as an act of its own. -/
theorem allocationAnswered_one {s : State} {x : TerminalId} {a : LineArrival} (h : (s.terminal x).deferred = [a])
    (hbegun : s.host.begun = true) : s.allocationAnswered x = (s.onTerminal x Terminal.answered).takeLine x a := by
  unfold State.allocationAnswered
  rw [h]
  simp only [List.foldl_cons, List.foldl_nil]
  rw [onHost_same (beginSending_of_begun (by exact hbegun)), lineTakes_free _ (by simp)]
  rfl

theorem sessionRefused_first {s : State} {x : TerminalId} (why : DenyReason) (hline : (s.terminal x).line = .up)
    (hfirst : (s.terminal x).session.reallocated = false) :
    s.sessionRefused x why = (s.onTerminal x fun z => z.told (.refuse why)).allocationAnswered x := by
  unfold State.sessionRefused
  rw [hfirst, refuseSession_up _ hline]
  rfl

theorem refuseRequest_waiting {s : State} {x : TerminalId} (why : DenyReason) (hwaits : (s.terminal x).session.allocating = true) :
    s.refuseRequest (.terminal x) why = s.sessionRefused x why := if_pos hwaits

section
variable {s : State} {x : TerminalId} {cls : BikeClass} {holder : CardId} {origin : CardOrigin} {exclude : Option DockNo}

/-- With no dock eligible, the session is refused NO_BIKE. -/
theorem exec_allocation_none {t : State} (hready : s.ready) (hnone : ∀ d r, s.dock? d = some r → exclude ≠ some d → s.hireable cls d = false)
    (hwaits : (s.terminal x).session.allocating = true) (hfirst : (s.terminal x).session.reallocated = false)
    (hline : (s.terminal x).line = .up)
    (ht : ((s.taking (.allocation x cls holder origin exclude)).onTerminal x fun z => z.told (.refuse .noBike)).allocationAnswered x = t)
    (hhost : t.host = s.host) : exec (.allocation x cls holder origin exclude) s = .next t := by
  have hallocate : (s.taking (.allocation x cls holder origin exclude)).allocate cls exclude = none :=
    allocate_none fun d hd => by
      obtain ⟨hhire, hexclude⟩ := mem_allocatable.mp hd
      obtain ⟨r, hr, -⟩ := (hireable_iff _ cls d).mp hhire
      exact absurd (hhire.symm.trans (hnone d r hr hexclude)) (by decide)
  simp only [exec, execAllocation]
  refine ready_next hready t ?_ hhost
  rw [hallocate]
  dsimp only
  rw [refuseRequest_waiting _ (by exact hwaits), sessionRefused_first _ (by exact hline) (by exact hfirst), ht]

end

/-- Settles O29: the longest standing of the eligible docks is held; with none, the session is refused, and the tap that waited
starts an attempt of its own. -/
theorem allocatorTakesTheLongestStanding : Obligations.AllocatorTakesTheLongestStanding := by
  intro s x cls holder origin exclude hready
  refine ⟨fun d r hr hexclude hhire hlongest hreleasing hheld => ?_, fun hnone hwaits hfirst hline => ⟨fun hdeferred => ?_,
    fun card hdeferred hcard => ?_⟩⟩
  · let u := s.taking (.allocation x cls holder origin exclude)
    have hallocate : u.allocate cls exclude = some d := by
      refine allocate_eq (mem_allocatable.mpr ⟨hhire, hexclude⟩) fun e he => ?_
      obtain ⟨hhire', hexclude'⟩ := mem_allocatable.mp he
      obtain ⟨r', hr', -⟩ := (hireable_iff u cls e).mp hhire'
      rw [standing_eq hr', standing_eq (s := u) hr]
      exact hlongest e r' hr' hexclude' hhire'
    have htests : u.claimTests d .member holder none = none := claimTests_hireable (s := u) hhire hreleasing hheld
    simp only [exec, execAllocation]
    refine ready_next hready _ ?_ rfl
    rw [hallocate]
    exact requestClaim_held htests
  · refine exec_allocation_none hready hnone hwaits hfirst hline ?_ rfl
    rw [allocationAnswered_empty (by rw [terminal_onTerminal_self]; exact hdeferred), onTerminal_onTerminal, withTerminal_eq]
    refine onTerminal_congr (s := s.taking _) ?_
    have hnothing : ((s.taking (.allocation x cls holder origin exclude)).terminal x).deferred = [] := hdeferred
    simp only [Terminal.told, Terminal.answered, hnothing]
  · let u := s.taking (.allocation x cls holder origin exclude)
    refine exec_allocation_none hready hnone hwaits hfirst hline ?_ rfl
    have hup : ((u.onTerminal x fun z => z.told (.refuse .noBike)).terminal x).deferred = [.tap card] := by
      rw [terminal_onTerminal_self]
      exact hdeferred
    rw [allocationAnswered_one hup hready.2, onTerminal_onTerminal]
    simp only [State.takeLine]
    rw [takeTap_starts hcard (by rw [terminal_onTerminal_self]; exact hline) (by simp [Terminal.told, Terminal.answered]), post_onTerminal,
      onTerminal_onTerminal, terminal_onTerminal_self, withTerminal_eq]
    refine onTerminal_congr (s := u.post _) ?_
    simp [Terminal.told, Terminal.answered, Terminal.begins, Terminal.counted, Session.started]

end Sys2Proof.Machine
end


section
/-! The answers of the booking and the charge: grants and their refusals (R74). -/

namespace Sys2Proof.Machine

/-! ### The act -/

section
variable {s : State} {q : ClaimRequest} {answer : GrantAnswer}

/-- The state in which a request in hand is answered: its hold has ended. -/
def State.answering (s : State) (q : ClaimRequest) (answer : GrantAnswer) : State :=
  (s.taking (.claimGrant q.dock answer)).dropRequest q.dock

theorem claimGrant_next {t : State} (hready : s.ready) (hrequest : s.requestOn q.dock = some q)
    (ht : (s.answering q answer).answerGrant q answer = t) (hhost : t.host = s.host) :
    exec (.claimGrant q.dock answer) s = .next t := by
  have hfound : (s.taking (.claimGrant q.dock answer)).requestOn q.dock = some q := hrequest
  simp only [exec, execClaimGrant]
  refine ready_next hready t ?_ hhost
  rw [hfound]
  exact ht

theorem answering_requests {p : ClaimRequest} (h : p ∈ (s.answering q answer).release.requests) : p.dock ≠ q.dock := by
  obtain ⟨-, hp⟩ := List.mem_filter.mp h
  simpa using hp

/-- The tests made again are those of R73 among the other requests. -/
theorem grantTests_eq {r : DockRecord} (hr : s.dock? q.dock = some r) (hkind : q.kind ≠ .van)
    (hclaims : (s.release.claims.map (·.dock)).Nodup) :
    (s.answering q answer).grantTests q =
      if s.store.station ≠ .serving then some .outOfService
      else refusal s (s.release.requests.filter fun y => y.dock != q.dock) q.dock r q.kind q.holder := by
  have htests : (s.answering q answer).claimTests q.dock q.kind q.holder (some q.dock) =
      refusal s (s.release.requests.filter fun y => y.dock != q.dock) q.dock r q.kind q.holder :=
    claimTests_eq (s := s.answering q answer) hr hkind hclaims (.inr ⟨rfl, fun p => answering_requests⟩)
  rw [← htests]
  unfold State.grantTests
  rw [if_neg fun h => hkind h.1]
  cases hk : q.kind with
  | van => exact absurd hk hkind
  | member | service => rfl

theorem answerGrant_grants {w : State} (hanswer : answer ∈ [GrantAnswer.charged, .free]) (h : w.grantTests q = none) :
    w.answerGrant q answer = w.grantClaim q (answer == .charged) := by
  simp only [List.mem_cons, List.not_mem_nil, or_false] at hanswer
  unfold State.answerGrant
  rcases hanswer with rfl | rfl <;> rw [h] <;> rfl

/-- What a refusal gives back of the booking and the charge. -/
def givenBack (q : ClaimRequest) (answer : GrantAnswer) : List Instr :=
  match answer with
  | .tight => []
  | .credit => [.bookingGivenBack q.dock]
  | .charged => [.bookingGivenBack q.dock, .refund q.holder]
  | .free => [.bookingGivenBack q.dock]

theorem answerGrant_refuses {w : State} {reason : DenyReason}
    (h : (answer = .tight ∧ reason = .tight) ∨ (answer = .credit ∧ reason = .credit)
      ∨ (answer ∈ [GrantAnswer.charged, .free] ∧ w.grantTests q = some reason)) :
    w.answerGrant q answer = (w.postAll (givenBack q answer)).refuseGrant q reason := by
  unfold State.answerGrant
  rcases h with ⟨rfl, rfl⟩ | ⟨rfl, rfl⟩ | ⟨hanswer, htests⟩
  · rw [givenBack, postAll_nil]
  · rfl
  · simp only [List.mem_cons, List.not_mem_nil, or_false] at hanswer
    rcases hanswer with rfl | rfl <;> rw [htests]
    · simp [givenBack, State.post, State.postAll]
    · rfl

/-! ### The claim of a grant -/

/-- The claim in RELEASE_SENT, RELEASE pending at its dock, and the two that are told of it. -/
def State.granted (w : State) (q : ClaimRequest) (offline : Bool) : State :=
  ((((w.removeClaim q.dock).addClaim (w.releaseSentClaim q offline)).setCommand q.dock .release).tellDock q.dock).post
    (.journalCountNotice q.dock (.booked true))

theorem grantClaim_eq {w : State} (offline : Bool) (hkind : q.kind ≠ .van) :
    w.grantClaim q offline = (w.granted q offline).tellGrant q.dock (w.grantOwner q.owner) w.store.live.takeWindow := by
  unfold State.grantClaim
  simp only [if_neg hkind]
  rfl

theorem grantClaim_van {w : State} (offline : Bool) (hkind : q.kind = .van) :
    w.grantClaim q offline = ((w.granted q offline).onVan (·.mark q.dock .booked)).tellGrant q.dock (w.grantOwner q.owner)
      w.store.live.takeWindow := by
  unfold State.grantClaim
  simp only [if_pos hkind]
  rfl

theorem granted_claims {w : State} {owner : Owner} (offline : Bool) (howner : w.grantOwner q.owner = owner) :
    (w.granted q offline).release.claims = (w.release.claims.filter fun c => c.dock != q.dock)
      ++ [{ dock := q.dock, kind := q.kind, state := .releaseSent, holder := some q.holder, owner := owner, order := q.order
            orphanCause := none, takeWindow := w.store.live.takeWindow, tariff := w.store.live.tariff, offline := offline
            deadline := some (w.now + 5) }] := by
  subst howner
  rfl

theorem granted_requests {w : State} {offline : Bool} : (w.granted q offline).release.requests = w.release.requests := rfl

theorem granted_inFlight {w : State} {offline : Bool} :
    (w.granted q offline).inFlight = w.inFlight ++ [.dockClaimNotice q.dock, .journalCountNotice q.dock (.booked true)] :=
  List.append_assoc _ [_] [_]

theorem granted_only {w : State} {offline : Bool} : Only [.inFlight, .dock, .release] w (w.granted q offline) := by
  simp [State.granted]

theorem answering_only : Only [.inFlight, .release] s (s.answering q answer) := by
  simp [State.answering, State.dropRequest]

theorem dock?_granted {w : State} {r : DockRecord} {offline : Bool} (hr : w.dock? q.dock = some r) :
    (w.granted q offline).dock? q.dock = some { r with command := .release } := by
  have h := dock?_onDock_self w q.dock fun r => { r with command := .release }
  rw [hr] at h
  exact h

theorem granted_others {w : State} {offline : Bool} : OtherDocksSame q.dock w (w.granted q offline) :=
  (acts_onDock w q.dock fun r => { r with command := .release }).oth

/-- Telling a reader changes no command. -/
theorem command_readerDecided {u : State} {d e : DockNo} {r : DockRecord} (v : ReaderResult) (hr : u.dock? d = some r) :
    ∃ r', (u.readerDecided e v).dock? d = some r' ∧ r'.command = r.command := by
  by_cases h : d = e
  case pos =>
    subst h
    exact ⟨decidedAt r v, dock?_readerDecided v hr, rfl⟩
  case neg =>
    obtain ⟨-, hothers⟩ := (acts_readerDecided u e v).oth
    exact ⟨r, (hothers d h).trans hr, rfl⟩

theorem told_readerDecided {u : State} {x : DockNo} (v : ReaderResult) {y : DockRecord}
    (hy : (u.readerDecided x v).dock? x = some y) : y.readerResult = some v ∧ y.checkPending = false := by
  rw [(acts_readerDecided u x v).at_] at hy
  obtain ⟨r, -, rfl⟩ := Option.map_eq_some_iff.mp hy
  exact ⟨rfl, rfl⟩

/-! ### The session of a grant (R108) -/

theorem sessionOffered_empty {u : State} {x : TerminalId} (d : DockNo) (window : Nat) (hline : (u.terminal x).line = .up)
    (hdeferred : (u.terminal x).deferred = []) :
    u.sessionOffered x d window = u.onTerminal x fun z =>
      { z with session := { z.session with state := .offered, claimDock := some d
                                           deadline := some (u.now + 10 + u.store.live.terminalIdle), allocating := false }
               out := z.out ++ [.offer d window] } := by
  unfold State.sessionOffered
  rw [sendTerminal_up _ (by simpa [State.onSession] using hline), State.onSession, onTerminal_onTerminal,
    allocationAnswered_empty (by simpa using hdeferred), onTerminal_onTerminal]
  refine onTerminal_congr ?_
  simp only [Terminal.answered, hdeferred]
  rfl

theorem sessionRefused_empty {u : State} {x : TerminalId} (why : DenyReason) (hline : (u.terminal x).line = .up)
    (hdeferred : (u.terminal x).deferred = []) :
    u.sessionRefused x why = u.onTerminal x fun z =>
      { z with session := { attempt := z.session.attempt }
               out := z.out ++ [.refuse (if z.session.reallocated then .jammed else why)] } := by
  unfold State.sessionRefused
  rw [refuseSession_up _ hline, allocationAnswered_empty (by rw [terminal_onTerminal_self]; exact hdeferred), onTerminal_onTerminal]
  refine onTerminal_congr ?_
  simp only [Terminal.answered, Terminal.told, hdeferred]

/-! ### Van releases (R76) -/

theorem permits_van (l : Level) : l.permits .van = true ↔ l ≠ .closed := by
  cases l <;> decide

theorem reservedFor_iff {u : State} {d : DockNo} {o : OrderId} :
    u.reservedFor d (some o) = true ↔ ∃ c, u.claimOn d = some c ∧ c.kind = .van ∧ c.state = .reserved ∧ c.order = some o := by
  simp [State.reservedFor, Option.any_eq_true, and_assoc]

/-- The tests of R76 pass. -/
theorem vanTests_none {u : State} {d : DockNo} {r : DockRecord} {card : CardId} {own : Option DockNo} (hr : u.dock? d = some r)
    (hreleasing : ∀ c ∈ u.release.claims, c.state.releasing = true → c.holder ≠ some card)
    (hheld : ∀ p ∈ u.release.requests, p.holder ≠ card) (hlink : r.link = .online) (hoccupancy : r.occupancy = .occupied)
    (hlock : r.lock = .locked) (hlevel : u.level d ≠ .closed) : u.vanTests d card own = none := by
  have hfree : ¬ (u.releasingHolder card = true ∨ u.heldHolder card own = true) := by
    rw [releasingHolder_any]
    rintro (⟨c, hc, hstate, hholder⟩ | hany)
    · exact hreleasing c hc hstate hholder
    · unfold State.heldHolder at hany
      obtain ⟨p, hp, hholder⟩ := List.any_eq_true.mp hany
      exact hheld p hp (by simp at hholder; exact hholder.1)
  unfold State.vanTests
  simp [hr, if_neg hfree, hlink, hoccupancy, hlock, (permits_van _).mpr hlevel]

/-- The grant of a van release: every test passes against the reservation that stands. -/
theorem grantTests_van {u : State} (hkind : q.kind = .van) (hreserved : u.reservedFor q.dock q.order = true)
    (hstation : u.store.station = .serving) (htests : u.vanTests q.dock q.holder (some q.dock) = none) : u.grantTests q = none := by
  unfold State.grantTests
  rw [if_neg fun h => h.2 hreserved, if_neg fun h => h hstation, hkind]
  exact htests

theorem grantTests_van_gone {u : State} (hkind : q.kind = .van) (hgone : u.reservedFor q.dock q.order = false) :
    u.grantTests q = some .claimed := by
  unfold State.grantTests
  exact if_pos ⟨hkind, by simp [hgone]⟩

end

end Sys2Proof.Machine
end


section
/-! The three owners of a request, each answered by a grant or by a refusal (R74, R76, R108). -/

namespace Sys2Proof.Machine

theorem refuseGrant_reader {u : State} {q : ClaimRequest} {x : DockNo} (why : DenyReason) (howner : q.owner = .reader x)
    (hkind : q.kind ≠ .van) : u.refuseGrant q why = u.readerDecided x (.deny why) := by
  unfold State.refuseGrant
  cases hk : q.kind with
  | van => exact absurd hk hkind
  | member | service =>
    rw [howner]
    rfl

theorem refuseGrant_terminal {u : State} {q : ClaimRequest} {y : TerminalId} (why : DenyReason) (howner : q.owner = .terminal y)
    (hkind : q.kind = .member) (hwaits : (u.terminal y).session.allocating = true) :
    u.refuseGrant q why = u.sessionRefused y why := by
  unfold State.refuseGrant
  rw [hkind, howner]
  exact refuseRequest_waiting why hwaits

theorem grantOwner_waiting {u : State} {y : TerminalId} (hwaits : (u.terminal y).session.allocating = true) :
    u.grantOwner (.terminal y) = .terminal y := if_pos hwaits

/-- A van release refused because its reservation has gone leaves nothing to drop. -/
theorem refuseGrant_van_gone {u : State} {q : ClaimRequest} (why : DenyReason) (hkind : q.kind = .van)
    (hgone : u.reservedFor q.dock q.order = false) : u.refuseGrant q why = u.readerDecided q.dock (.deny why) := by
  unfold State.refuseGrant State.leaveReserved
  rw [hkind]
  have hstill : (u.readerDecided q.dock (.deny why)).reservedFor q.dock q.order = false := hgone
  simp only [hstill]
  rfl

section
variable {s : State} {q : ClaimRequest} {answer : GrantAnswer} {offline : Bool}

/-- The state of a grant: the hold has ended, and the claim stands in RELEASE_SENT. -/
@[irreducible] def State.grantedFor (s : State) (q : ClaimRequest) (answer : GrantAnswer) : State :=
  (s.answering q answer).granted q (answer == .charged)

theorem grantedFor_claims {owner : Owner} (howner : (s.answering q answer).grantOwner q.owner = owner) :
    (s.grantedFor q answer).release.claims = (s.release.claims.filter fun c => c.dock != q.dock)
      ++ [{ dock := q.dock, kind := q.kind, state := .releaseSent, holder := some q.holder, owner := owner, order := q.order
            orphanCause := none, takeWindow := s.store.live.takeWindow, tariff := s.store.live.tariff, offline := answer == .charged
            deadline := some (s.now + 5) }] := by
  unfold State.grantedFor
  exact granted_claims (w := s.answering q answer) _ howner

theorem grantedFor_requests :
    (s.grantedFor q answer).release.requests = s.release.requests.filter fun y => y.dock != q.dock := by
  unfold State.grantedFor
  rfl

theorem grantedFor_inFlight : (s.grantedFor q answer).inFlight =
    s.inFlight.erase (.claimGrant q.dock answer) ++ [.dockClaimNotice q.dock, .journalCountNotice q.dock (.booked true)] := by
  unfold State.grantedFor
  exact granted_inFlight (w := s.answering q answer)

theorem grantedFor_only : Only [.inFlight, .dock, .release] s (s.grantedFor q answer) := by
  unfold State.grantedFor
  exact (answering_only.mono (by simp)).trans granted_only

theorem dock?_grantedFor {r : DockRecord} (hr : s.dock? q.dock = some r) :
    (s.grantedFor q answer).dock? q.dock = some { r with command := .release } := by
  unfold State.grantedFor
  exact dock?_granted (w := s.answering q answer) hr

theorem grantedFor_others : OtherDocksSame q.dock s (s.grantedFor q answer) := by
  unfold State.grantedFor
  exact granted_others (w := s.answering q answer)

theorem grantedFor_host : (s.grantedFor q answer).host = s.host := by
  unfold State.grantedFor
  rfl

theorem grantedFor_terminal (y : TerminalId) : (s.grantedFor q answer).terminal y = s.terminal y := by
  unfold State.grantedFor
  rfl

theorem grantedFor_store : (s.grantedFor q answer).store = s.store := by
  unfold State.grantedFor
  rfl

theorem grantedFor_now : (s.grantedFor q answer).now = s.now := by
  unfold State.grantedFor
  rfl

theorem grantedFor_term : (s.grantedFor q answer).term = s.term := by
  unfold State.grantedFor
  rfl

/-- A grant that is not of a van release answers the state it tells its owner in. -/
theorem claimGrant_grants {t : State} (hready : s.ready) (hrequest : s.requestOn q.dock = some q)
    (hanswer : answer ∈ [GrantAnswer.charged, .free]) (hkind : q.kind ≠ .van) (htests : (s.answering q answer).grantTests q = none)
    (ht : (s.grantedFor q answer).tellGrant q.dock ((s.answering q answer).grantOwner q.owner) s.store.live.takeWindow = t)
    (hhost : t.host = s.host) : exec (.claimGrant q.dock answer) s = .next t := by
  refine claimGrant_next hready hrequest ?_ hhost
  rw [answerGrant_grants hanswer htests, grantClaim_eq _ hkind]
  unfold State.grantedFor at ht
  exact ht

end

/-- A grant told to a reader. -/
theorem grant_reader {s : State} {q : ClaimRequest} {answer : GrantAnswer} {r : DockRecord} {x : DockNo} (hready : s.ready)
    (hrequest : s.requestOn q.dock = some q) (hr : s.dock? q.dock = some r) (howner : q.owner = .reader x) (hkind : q.kind ≠ .van)
    (hanswer : answer ∈ [GrantAnswer.charged, .free]) (htests : (s.answering q answer).grantTests q = none) :
    ∃ t r', exec (.claimGrant q.dock answer) s = .next t
      ∧ t.release.claims = (s.release.claims.filter fun c => c.dock != q.dock)
          ++ [{ dock := q.dock, kind := q.kind, state := .releaseSent, holder := some q.holder, owner := .reader x,
                order := q.order, orphanCause := none, takeWindow := s.store.live.takeWindow, tariff := s.store.live.tariff,
                offline := answer == .charged, deadline := some (s.now + 5) }]
      ∧ t.release.requests = (s.release.requests.filter fun y => y.dock != q.dock)
      ∧ t.dock? q.dock = some r' ∧ r'.command = .release
      ∧ (∀ y, t.dock? x = some y → y.readerResult = some .allow ∧ y.checkPending = false)
      ∧ HandedOn (.claimGrant q.dock answer) s t [.dockClaimNotice q.dock, .journalCountNotice q.dock (.booked true)]
      ∧ Only [.inFlight, .dock, .release] s t := by
  have howned : (s.answering q answer).grantOwner q.owner = .reader x := by rw [howner]; rfl
  obtain ⟨r', hr', hcommand⟩ := command_readerDecided (e := x) .allow (dock?_grantedFor (answer := answer) hr)
  refine ⟨(s.grantedFor q answer).readerDecided x .allow, r', ?_, grantedFor_claims howned, grantedFor_requests, hr', hcommand,
    fun y hy => told_readerDecided .allow hy, grantedFor_inFlight, ?_⟩
  · refine claimGrant_grants hready hrequest hanswer hkind htests ?_ grantedFor_host
    rw [howned]
    rfl
  · simpa using grantedFor_only

/-- A grant offered at the terminal that waits for it. -/
theorem grant_terminal {s : State} {q : ClaimRequest} {answer : GrantAnswer} {r : DockRecord} {y : TerminalId} (hready : s.ready)
    (hrequest : s.requestOn q.dock = some q) (hr : s.dock? q.dock = some r) (howner : q.owner = .terminal y) (hkind : q.kind = .member)
    (hline : (s.terminal y).line = .up) (hwaits : (s.terminal y).session.allocating = true) (hdeferred : (s.terminal y).deferred = [])
    (hanswer : answer ∈ [GrantAnswer.charged, .free]) (htests : (s.answering q answer).grantTests q = none) :
    ∃ t r', exec (.claimGrant q.dock answer) s = .next t
      ∧ t.release.claims = (s.release.claims.filter fun c => c.dock != q.dock)
          ++ [{ dock := q.dock, kind := .member, state := .releaseSent, holder := some q.holder, owner := .terminal y,
                order := q.order, orphanCause := none, takeWindow := s.store.live.takeWindow, tariff := s.store.live.tariff,
                offline := answer == .charged, deadline := some (s.now + 5) }]
      ∧ t.release.requests = (s.release.requests.filter fun z => z.dock != q.dock)
      ∧ t.dock? q.dock = some r' ∧ r'.command = .release
      ∧ t.term = s.term.set y { s.terminal y with
          session := { (s.terminal y).session with
            state := .offered, claimDock := some q.dock, deadline := some (s.now + 10 + s.store.live.terminalIdle)
            allocating := false }
          out := (s.terminal y).out ++ [.offer q.dock s.store.live.takeWindow] }
      ∧ HandedOn (.claimGrant q.dock answer) s t [.dockClaimNotice q.dock, .journalCountNotice q.dock (.booked true)]
      ∧ OtherDocksSame q.dock s t ∧ Only [.inFlight, .dock, .release, .term] s t := by
  have howned : (s.answering q answer).grantOwner q.owner = .terminal y := by
    rw [howner]
    exact grantOwner_waiting hwaits
  have hmember : q.kind ≠ .van := by rw [hkind]; decide
  refine ⟨(s.grantedFor q answer).onTerminal y fun z =>
      { z with session := { z.session with state := .offered, claimDock := some q.dock
                                           deadline := some (s.now + 10 + s.store.live.terminalIdle), allocating := false }
               out := z.out ++ [.offer q.dock s.store.live.takeWindow] },
    _, ?_, ?_, grantedFor_requests, dock?_grantedFor hr, rfl, ?_, grantedFor_inFlight, grantedFor_others, ?_⟩
  · refine claimGrant_grants hready hrequest hanswer hmember htests ?_ grantedFor_host
    rw [howned, State.tellGrant, sessionOffered_empty q.dock _ (by rw [grantedFor_terminal]; exact hline)
      (by rw [grantedFor_terminal]; exact hdeferred), grantedFor_now, grantedFor_store]
  · rw [← hkind]
    exact grantedFor_claims howned
  · rw [onTerminal_term, grantedFor_term]
    rfl
  · rw [only_onTerminal _ _ _ _ _ (by simp)]
    exact grantedFor_only.mono (by simp)

/-- A van release granted in place of its reservation. -/
theorem grant_van {s : State} {q : ClaimRequest} {answer : GrantAnswer} {r : DockRecord} {v : VanSession} {o : OrderId}
    (hready : s.ready) (hrequest : s.requestOn q.dock = some q) (hr : s.dock? q.dock = some r) (howner : q.owner = .order o)
    (hkind : q.kind = .van) (horder : q.order = some o) (hv : s.order.session = some v)
    (hanswer : answer ∈ [GrantAnswer.charged, .free]) (htests : (s.answering q answer).grantTests q = none) :
    ∃ t r', exec (.claimGrant q.dock answer) s = .next t
      ∧ t.release.claims = (s.release.claims.filter fun c => c.dock != q.dock)
          ++ [{ dock := q.dock, kind := .van, state := .releaseSent, holder := some q.holder, owner := .order o,
                order := some o, orphanCause := none, takeWindow := s.store.live.takeWindow, tariff := s.store.live.tariff,
                offline := answer == .charged, deadline := some (s.now + 5) }]
      ∧ t.order.session = some { v with docks := v.docks.map fun p => if p.1 = q.dock then (q.dock, .booked) else p }
      ∧ t.dock? q.dock = some r' ∧ r'.command = .release ∧ r'.readerResult = some .allow ∧ r'.checkPending = false
      ∧ HandedOn (.claimGrant q.dock answer) s t [.dockClaimNotice q.dock, .journalCountNotice q.dock (.booked true)]
      ∧ OtherDocksSame q.dock s t ∧ Only [.inFlight, .dock, .release, .order] s t := by
  have howned : (s.answering q answer).grantOwner q.owner = .order o := by rw [howner]; rfl
  let u := (s.grantedFor q answer).onVan (·.mark q.dock .booked)
  have hat : (u.readerDecided q.dock .allow).dock? q.dock = some (decidedAt { r with command := .release } .allow) :=
    dock?_readerDecided (s := u) .allow (dock?_grantedFor (answer := answer) hr)
  refine ⟨u.readerDecided q.dock .allow, _, ?_, ?_, ?_, hat, rfl, rfl, rfl, grantedFor_inFlight, ?_, ?_⟩
  · refine claimGrant_next hready hrequest ?_ grantedFor_host
    rw [answerGrant_grants hanswer htests, grantClaim_van _ hkind, howned]
    simp only [u, State.grantedFor]
    rfl
  · rw [← hkind, ← horder]
    exact grantedFor_claims howned
  · have horders : (s.grantedFor q answer).order = s.order := grantedFor_only .order (by decide)
    show (s.grantedFor q answer).order.session.map (·.mark q.dock .booked) = _
    rw [horders, hv]
    rfl
  · obtain ⟨hlength, hothers⟩ := grantedFor_others (s := s) (q := q) (answer := answer)
    obtain ⟨hlength', hothers'⟩ := (acts_readerDecided u q.dock .allow).oth
    exact ⟨hlength'.trans hlength, fun e he => (hothers' e he).trans (hothers e he)⟩
  · simpa [u] using grantedFor_only.mono (by simp)

/-- A refusal told to a reader. -/
theorem refuse_reader {s : State} {q : ClaimRequest} {answer : GrantAnswer} {d : DockNo} {reason : DenyReason} (hready : s.ready)
    (hrequest : s.requestOn q.dock = some q)
    (hexec : (s.answering q answer).answerGrant q answer = ((s.answering q answer).postAll (givenBack q answer)).readerDecided d (.deny reason)) :
    ∃ t, exec (.claimGrant q.dock answer) s = .next t
      ∧ t.release = { s.release with requests := s.release.requests.filter fun y => y.dock != q.dock }
      ∧ (∀ y, t.dock? d = some y → y.readerResult = some (.deny reason) ∧ y.checkPending = false)
      ∧ HandedOn (.claimGrant q.dock answer) s t (givenBack q answer)
      ∧ Only [.inFlight, .dock] { s with release := { s.release with requests := s.release.requests.filter fun y => y.dock != q.dock } } t := by
  refine ⟨_, claimGrant_next hready hrequest hexec rfl, rfl, fun _ hy => told_readerDecided _ hy, rfl, ?_⟩
  have hdropped : s.answering q answer =
      ({ s with release := { s.release with requests := s.release.requests.filter fun y => y.dock != q.dock } } : State).taking
        (.claimGrant q.dock answer) := rfl
  rw [hdropped]
  simp

/-- Settles O30: an answer either grants, and its owner is told of the claim, or refuses, and gives back what was booked. -/
theorem grantsAreAnswered : Obligations.GrantsAreAnswered := by
  intro s q r x hready hkept hrequest hr
  obtain ⟨hclaims, -⟩ := hkept
  refine ⟨fun howner hkind others why hothers hwhy => ?reader, fun y others why howner hkind hline hwaits hdeferred hothers hwhy =>
    ?terminal, fun v o hkind horder howner hv hvo hopened => ?van⟩
  case reader =>
    subst hothers
    have htests : ∀ answer, (s.answering q answer).grantTests q = why := fun answer =>
      (grantTests_eq hr hkind hclaims).trans hwhy.symm
    refine ⟨fun answer hanswer hnone => ?_, fun answer reason h => ?_⟩
    · exact grant_reader hready hrequest hr howner hkind hanswer ((htests answer).trans hnone)
    · rw [← htests answer] at h
      obtain ⟨t, hexec, hrelease, htold, hhanded, honly⟩ := refuse_reader hready hrequest
        ((answerGrant_refuses h).trans (refuseGrant_reader reason howner hkind))
      exact ⟨t, hexec, hrelease, htold, hhanded, honly⟩
  case terminal =>
    subst hothers
    have hmember : q.kind ≠ .van := by rw [hkind]; decide
    have htests : ∀ answer, (s.answering q answer).grantTests q = why := fun answer =>
      (grantTests_eq hr hmember hclaims).trans hwhy.symm
    refine ⟨fun answer hanswer hnone => ?_, fun answer reason h => ?_⟩
    · exact grant_terminal hready hrequest hr howner hkind hline hwaits hdeferred hanswer ((htests answer).trans hnone)
    · rw [← htests answer] at h
      refine claimGrant_next hready hrequest ?_ rfl
      rw [answerGrant_refuses h, refuseGrant_terminal (u := (s.answering q answer).postAll _) reason howner hkind hwaits]
      exact sessionRefused_empty (u := (s.answering q answer).postAll (givenBack q answer)) reason hline hdeferred
  case van =>
    subst hvo
    refine ⟨fun c answer hanswer hc hckind hcstate hcorder hstation hreleasing hheld hlink hoccupancy hlock hlevel => ?_, fun hgone => ?_⟩
    · refine grant_van hready hrequest hr howner hkind horder hv hanswer (grantTests_van hkind ?_ hstation ?_)
      · rw [horder]
        exact reservedFor_iff.mpr ⟨c, hc, hckind, hcstate, hcorder⟩
      · exact vanTests_none (u := s.answering q answer) hr hreleasing (fun p hp => hheld p (List.mem_filter.mp hp).1 (answering_requests hp))
          hlink hoccupancy hlock hlevel
    · have hnot : (s.answering q .free).reservedFor q.dock q.order = false := by
        rw [horder, Bool.eq_false_iff, ne_eq, reservedFor_iff]
        rintro ⟨c, hc, hreserved⟩
        exact hgone c hc hreserved
      have hrefused := (answerGrant_refuses (q := q) (answer := .free) (.inr (.inr ⟨by simp, grantTests_van_gone hkind hnot⟩))).trans
        (refuseGrant_van_gone .claimed hkind hnot)
      refine ⟨_, claimGrant_next hready hrequest hrefused rfl, dock?_readerDecided _ hr, rfl, ?_, ?_⟩
      · exact (acts_readerDecided _ q.dock _).oth
      · simp [State.answering, State.dropRequest]

end Sys2Proof.Machine
end


section
/-! Reservations and van releases (R75 to R77, R86). -/

namespace Sys2Proof.Machine

section
variable {s : State} {d : DockNo} {r : DockRecord} {v : VanSession} {o : OrderId}

/-! ### Placing a reservation (R75) -/

theorem boundTo_own (hv : s.order.session = some v) : s.boundTo v.order = some v := by
  simp [State.boundTo, hv]

theorem boundTo_other (hv : s.order.session = some v) (ho : o ≠ v.order) : s.boundTo o = none := by
  simp [State.boundTo, hv, Ne.symm ho]

theorem tryReserve_ok {s' : State} (h : s.reserve d o = .ok s') : s.tryReserve d o = s' := by
  unfold State.tryReserve
  rw [h]

theorem tryReserve_error {why : DenyReason} (h : s.reserve d o = .error why) : s.tryReserve d o = s := by
  unfold State.tryReserve
  rw [h]

theorem reserve_claimed (hbound : s.boundTo o = some v) (hr : s.dock? d = some r)
    (h : (s.claimOn d).isSome = true ∨ (s.requestOn d).isSome = true) : s.reserve d o = .error .claimed := by
  unfold State.reserve
  rw [hbound, hr]
  exact if_pos h

theorem reserve_closed (hbound : s.boundTo o = some v) (hr : s.dock? d = some r)
    (h : ¬ ((s.claimOn d).isSome = true ∨ (s.requestOn d).isSome = true)) (hlevel : s.level d = .closed) :
    s.reserve d o = .error .dockLimit := by
  unfold State.reserve
  rw [hbound, hr]
  exact (if_neg h).trans (if_pos hlevel)

theorem reserve_noOrder (hbound : s.boundTo o = none) : s.reserve d o = .error .noOrder := by
  unfold State.reserve
  rw [hbound]

/-- The reservation that is placed: the claim, and the dock among the session docks. -/
theorem reserve_placed (hv : s.order.session = some v) (hr : s.dock? d = some r) (hclaim : s.claimOn d = none)
    (hrequest : s.requestOn d = none) (hlevel : s.level d ≠ .closed) :
    s.reserve d v.order = .ok
      { s with
        release := { s.release with claims := s.release.claims ++ [reservation d v.order] }
        order := { s.order with session := some { v with docks := v.docks.filter (fun p => p.1 != d) ++ [(d, .reserved)] } }
        inFlight := s.inFlight ++ [.dockClaimNotice d] } := by
  unfold State.reserve
  rw [boundTo_own hv, hr]
  dsimp only
  rw [if_neg (by simp [hclaim, hrequest]), if_neg hlevel]
  simp [State.addClaim, State.onRelease, State.onVan, State.onOrders, State.post, VanSession.leave, reservation, hv]

/-! ### Giving a reservation up (R77, R86) -/

theorem endClaim_state : s.endClaim d =
    { s with
      release := { s.release with claims := s.release.claims.filter fun x => x.dock != d }
      inFlight := s.inFlight ++ [.dockClaimNotice d] ++ passDue s } := by
  unfold State.endClaim
  rw [postPass_eq]
  rfl

/-! ### Refusals at the reader of the dock (R76) -/

theorem readerDecided_state (x : ReaderResult) (hr : s.dock? d = some r) : s.readerDecided d x =
    { s with
      dock := { s.dock with
        table := s.dock.table.set d (decidedAt r x)
        poll := s.dock.poll.map fun p => if p.dock = d then { p with superseded := true } else p } } := by
  unfold State.readerDecided State.readerWaits
  rw [onDock_eq _ hr]
  have hset : ({ s with dock := { s.dock with table := s.dock.table.set d { r with checkPending := false } } } : State).dock? d =
      some { r with checkPending := false } := List.getElem?_set_self (dock?_lt hr)
  rw [onDock_eq _ hset]
  simp [State.onDocks, decidedAt]

theorem refuseVan_state (why : DenyReason) (hr : s.dock? d = some r) : s.refuseVan d why =
    { s with
      dock := { s.dock with
        table := s.dock.table.set d (decidedAt r (.deny why))
        poll := s.dock.poll.map fun p => if p.dock = d then { p with superseded := true } else p }
      inFlight := s.inFlight ++ passDue s } := by
  unfold State.refuseVan
  rw [readerDecided_state _ hr, postPass_eq]
  rfl

/-- A refused release leaves its reservation while the session is OPEN. -/
theorem leaveReserved_open (hv : s.order.session = some v) (hopened : v.state = .opened) : s.leaveReserved d (some o) = s := by
  unfold State.leaveReserved State.postIf
  simp [hv, hopened]

theorem vanTests_noBike {card : CardId} (hr : s.dock? d = some r)
    (hreleasing : ∀ c ∈ s.release.claims, c.state.releasing = true → c.holder ≠ some card)
    (hheld : ∀ p ∈ s.release.requests, p.holder ≠ card) (hlink : r.link = .online) (hoccupancy : r.occupancy ≠ .occupied) :
    s.vanTests d card none = some .noBike := by
  have hfree : ¬ (s.releasingHolder card = true ∨ s.heldHolder card none = true) := by
    rw [releasingHolder_any, heldHolder_any]
    rintro (⟨c, hc, hstate, hholder⟩ | ⟨p, hp, hholder⟩)
    · exact hreleasing c hc hstate hholder
    · exact hheld p hp hholder
  unfold State.vanTests
  simp [hr, if_neg hfree, hlink, hoccupancy]

theorem releaseReserved_held {card : CardId} (h : s.vanTests d card none = none) :
    s.releaseReserved d o card =
      s.holdRequest { dock := d, kind := .van, holder := card, origin := .host, owner := .order o, order := some o } := by
  unfold State.releaseReserved
  rw [h]

theorem releaseReserved_refused {card : CardId} {why : DenyReason} (h : s.vanTests d card none = some why) :
    s.releaseReserved d o card = (s.readerDecided d (.deny why)).leaveReserved d (some o) := by
  unfold State.releaseReserved
  rw [h]

/-! ### The requests -/

/-- A release of the reservation that stands for the order is tested. -/
theorem vanRelease_tested {card : CardId} {t : State} (hready : s.ready) (hrequest : s.requestOn d = none)
    (hreserved : s.reservedFor d (some o) = true)
    (ht : (s.taking (.vanReleaseRequest d o card)).releaseReserved d o card = t) (hhost : t.host = s.host) :
    exec (.vanReleaseRequest d o card) s = .next t := by
  have hnone : (s.taking (.vanReleaseRequest d o card)).requestOn d = none := hrequest
  have hfound : (s.taking (.vanReleaseRequest d o card)).reservedFor d (some o) = true := hreserved
  simp only [exec, execVanReleaseRequest]
  refine ready_next hready t ?_ hhost
  rw [hnone, if_neg (by simp), if_pos hfound]
  exact ht

/-- At a dock that carries another claim the release is refused CLAIMED. -/
theorem vanRelease_claimed {c : Claim} {card : CardId} (hready : s.ready) (hr : s.dock? d = some r) (hclaim : s.claimOn d = some c)
    (hother : c.kind ≠ .van ∨ c.state ≠ .reserved) :
    exec (.vanReleaseRequest d o card) s = .next ((s.taking (.vanReleaseRequest d o card)).refuseVan d .claimed) := by
  have hfound : (s.taking (.vanReleaseRequest d o card)).claimOn d = some c := hclaim
  have hnot : ¬ (s.taking (.vanReleaseRequest d o card)).reservedFor d (some o) = true := by
    rw [reservedFor_iff]
    rintro ⟨c', hc', hkind, hstate, -⟩
    cases hfound.symm.trans hc'
    rcases hother with h | h
    · exact h hkind
    · exact h hstate
  simp only [exec, execVanReleaseRequest]
  refine ready_next hready _ ?_ ?_
  · split
    case isTrue => rfl
    case isFalse => exact if_pos (by rw [hfound]; rfl)
  · rw [refuseVan_state (s := s.taking _) _ hr]
    rfl

end

/-- Settles O31: placing, giving up and releasing a reservation. -/
theorem reservationsComeAndGo : Obligations.ReservationsComeAndGo := by
  intro s d r v hready hr hv
  refine ⟨fun hclaim hrequest hlevel => ?_, fun hnot => ?_, fun o ho => ?_, fun c crew hc hdock hstate => ⟨?_, ?_⟩,
    fun c crew hc hdock hstate => ⟨?_, ?_⟩,
    fun c card hc hdock hkind hstate horder hrequest hlink hoccupancy hlock hlevel hreleasing hheld => ?_,
    fun c card hc hdock hkind hstate horder hrequest hopened hlink hoccupancy hreleasing hheld => ?_,
    fun c card hc hdock hother => ?_⟩
  · simp only [exec, execReservationRequest]
    exact ready_next hready _ (tryReserve_ok (reserve_placed (s := s.taking _) hv hr hclaim hrequest hlevel)) rfl
  · refine onlyTaken_of_same hready (by simp only [exec, execReservationRequest]; rfl) ?_
    by_cases h : (s.claimOn d).isSome = true ∨ (s.requestOn d).isSome = true
    · exact tryReserve_error (reserve_claimed (s := s.taking _) (boundTo_own hv) hr h)
    · refine tryReserve_error (reserve_closed (s := s.taking _) (boundTo_own hv) hr h ?_)
      rcases hnot with h' | h' | h'
      · exact absurd (.inl (Option.isSome_iff_ne_none.mpr h')) h
      · exact absurd (.inr (Option.isSome_iff_ne_none.mpr h')) h
      · exact h'
  · exact onlyTaken_of_same hready (by simp only [exec, execReservationRequest]; rfl)
      (tryReserve_error (reserve_noOrder (s := s.taking _) (boundTo_other hv ho)))
  · subst hdock
    simp only [exec, execReservationDrop]
    refine ready_next hready _ ?_ rfl
    simp only [stands_taking _ hc, if_pos hstate, State.dropClaim]
    rw [endClaim_state]
    rfl
  · subst hdock
    simp only [exec, execClaimInsertion]
    refine ready_next hready _ ?_ rfl
    simp only [stands_taking _ hc, if_pos hstate]
    rw [endClaim_state]
    rfl
  · subst hdock
    refine onlyTaken_of_same hready (by simp only [exec, execReservationDrop]; rfl) ?_
    simp only [stands_taking _ hc, if_neg hstate]
  · subst hdock
    refine onlyTaken_of_same hready (by simp only [exec, execClaimInsertion]; rfl) ?_
    simp only [stands_taking _ hc, if_neg hstate]
  · subst hdock
    refine vanRelease_tested hready hrequest (reservedFor_iff.mpr ⟨c, claimOn_stands hc, hkind, hstate, horder⟩) ?_ rfl
    exact releaseReserved_held (vanTests_none (u := s.taking _) hr hreleasing hheld hlink hoccupancy hlock hlevel)
  · subst hdock
    refine vanRelease_tested hready hrequest (reservedFor_iff.mpr ⟨c, claimOn_stands hc, hkind, hstate, horder⟩) ?_ rfl
    rw [releaseReserved_refused (vanTests_noBike (s := s.taking _) hr hreleasing hheld hlink hoccupancy),
      leaveReserved_open (by exact hv) hopened, readerDecided_state (s := s.taking _) _ hr]
    rfl
  · subst hdock
    rw [vanRelease_claimed hready hr (claimOn_stands hc) hother, refuseVan_state (s := s.taking _) _ hr]
    rfl

end Sys2Proof.Machine
end


section
/-! The slot of a dock and its want (R37 to R41), and the level a claim needs (R88). -/

namespace Sys2Proof.Machine

/-! ### Taking the slot's want -/

/-- What the want of its slot makes of a dock: the commanded mode, whether it is withheld, and what is handed on (R37 to R41). -/
def State.slotTaken (s : State) (d : DockNo) (r : DockRecord) : SlotMode × Bool × List Instr :=
  if s.dock.caps.station = .serving ∧ s.level d ≠ .closed ∧ (r.occupancy = .empty ∨ s.bookedAt d = true) then
    (if r.commanded = .opened ∨ r.withheld = true then (r.commanded, r.withheld, [])
     else if r.acknowledged = .opened ∨ s.bookedAt d = true then
       (.opened, false, if r.acknowledged = .opened then [] else [Instr.journalCountNotice d (.slot true)] ++ passDue s)
     else (.shut, true, [.journalWithheldNotice d true]))
  else
    (.shut, false, (if r.withheld = true then [.journalWithheldNotice d false] else [])
      ++ (if r.commanded = .opened ∧ r.acknowledged = .shut then [.journalCountNotice d (.slot false)] ++ passDue s else []))

section
variable {s : State} {d : DockNo} {r : DockRecord}

theorem wantsOpen_iff (hr : s.dock? d = some r) : s.wantsOpen d = true ↔
    s.dock.caps.station = .serving ∧ s.level d ≠ .closed ∧ (r.occupancy = .empty ∨ s.bookedAt d = true) := by
  unfold State.wantsOpen State.level
  rw [hr]
  simp [and_assoc]

theorem changeSlot_state {f : DockRecord → DockRecord} (hr : s.dock? d = some r) : s.changeSlot d f =
    { s with
      dock := { s.dock with table := s.dock.table.set d (f r) }
      inFlight := s.inFlight ++ if (f r).effOpen = r.effOpen then []
        else [.journalCountNotice d (.slot (f r).effOpen)] ++ passDue s } := by
  unfold State.changeSlot
  rw [hr]
  dsimp only
  rw [onDock_eq _ hr]
  split
  case isTrue => simp
  case isFalse =>
    rw [postPass_eq, ← List.append_assoc]
    rfl

theorem mode_shut {m : SlotMode} (h : m ≠ .opened) : m = .shut := by
  cases m
  case opened => exact absurd rfl h
  case shut => rfl

/-- The state once the slot is in a mode, and what that brings is handed on. -/
def State.slotState (s : State) (d : DockNo) (r : DockRecord) (m : SlotMode) (w : Bool) (work : List Instr) : State :=
  { s with
    dock := { s.dock with table := s.dock.table.set d (r.slotted m w) }
    inFlight := s.inFlight ++ work }

theorem slotState_same (hr : s.dock? d = some r) : s.slotState d r r.commanded r.withheld [] = s := by
  have hsame : s.dock.table.set d (r.slotted r.commanded r.withheld) = s.dock.table := set_same hr
  unfold State.slotState
  rw [hsame, List.append_nil]

/-- A slot that is wanted OPEN, and can be opened at once. -/
theorem takeSlot_opens (hr : s.dock? d = some r) (hwants : s.wantsOpen d = true) (hcommanded : r.commanded ≠ .opened)
    (hwithheld : r.withheld = false) (hat : r.acknowledged = .opened ∨ s.bookedAt d = true) :
    s.takeSlot d = s.slotState d r .opened false
      (if r.acknowledged = .opened then [] else [.journalCountNotice d (.slot true)] ++ passDue s) := by
  have hold : r.effOpen = (r.acknowledged == .opened) := by simp [DockRecord.effOpen, mode_shut hcommanded]
  have hnew : ({ r with commanded := .opened } : DockRecord).effOpen = true := by simp [DockRecord.effOpen]
  have hslotted : ({ r with commanded := .opened } : DockRecord) = r.slotted .opened false := by
    rw [DockRecord.slotted, ← hwithheld]
  unfold State.takeSlot
  rw [hr]
  dsimp only
  rw [if_pos hwants, if_neg (by simp [hcommanded, hwithheld]), if_pos hat, changeSlot_state hr, hnew, hold, hslotted]
  by_cases hack : r.acknowledged = .opened
  · simp [hack, State.slotState]
  · simp [mode_shut hack, State.slotState]

/-- A slot that is wanted OPEN, and waits for its admission. -/
theorem takeSlot_waits (hr : s.dock? d = some r) (hwants : s.wantsOpen d = true) (hcommanded : r.commanded ≠ .opened)
    (hwithheld : r.withheld = false) (hat : ¬ (r.acknowledged = .opened ∨ s.bookedAt d = true)) :
    s.takeSlot d = s.slotState d r .shut true [.journalWithheldNotice d true] := by
  have hslotted : ({ r with withheld := true } : DockRecord) = r.slotted .shut true := by
    rw [DockRecord.slotted, ← mode_shut hcommanded]
  unfold State.takeSlot
  rw [hr]
  dsimp only
  rw [if_pos hwants, if_neg (by simp [hcommanded, hwithheld]), if_neg hat, onDock_eq _ hr, hslotted]
  rfl

/-- A slot that is not wanted OPEN. -/
theorem takeSlot_closes (hr : s.dock? d = some r) (hwants : ¬ s.wantsOpen d = true) :
    s.takeSlot d = s.slotState d r .shut false ((if r.withheld = true then [.journalWithheldNotice d false] else [])
      ++ (if r.commanded = .opened ∧ r.acknowledged = .shut then [.journalCountNotice d (.slot false)] ++ passDue s else [])) := by
  unfold State.takeSlot
  rw [hr]
  dsimp only
  rw [if_neg hwants]
  have hshuts : ∀ (u : State) (q : DockRecord) (work : List Instr), u = s.slotState d r r.commanded false work → q = r.slotted r.commanded false →
      (if r.commanded = .opened then u.changeSlot d fun r => { r with commanded := .shut } else u) =
        s.slotState d r .shut false (work ++
          if r.commanded = .opened ∧ r.acknowledged = .shut then [.journalCountNotice d (.slot false)] ++ passDue s else []) := by
    rintro u q work rfl rfl
    by_cases hcommanded : r.commanded = .opened
    case neg =>
      rw [if_neg hcommanded, if_neg (fun h => hcommanded h.1), List.append_nil, mode_shut hcommanded]
    case pos =>
      have hat : (s.slotState d r r.commanded false work).dock? d = some (r.slotted r.commanded false) :=
        List.getElem?_set_self (dock?_lt hr)
      have hpass : passDue (s.slotState d r r.commanded false work) = passDue s := rfl
      rw [if_pos hcommanded, changeSlot_state hat, hpass]
      cases hack : r.acknowledged <;> simp [State.slotState, DockRecord.slotted, DockRecord.effOpen, hcommanded, hack]
  by_cases hwithheld : r.withheld = true
  case pos =>
    rw [if_pos hwithheld, if_pos hwithheld]
    refine hshuts _ _ [.journalWithheldNotice d false] ?_ rfl
    rw [onDock_eq _ hr]
    rfl
  case neg =>
    rw [if_neg hwithheld, if_neg hwithheld]
    refine hshuts _ _ [] ?_ rfl
    have hsame := slotState_same hr
    rw [Bool.eq_false_iff.mpr hwithheld] at hsame
    exact hsame.symm

/-- The want of a slot, as R37 to R41 list its cases. -/
theorem takeSlot_eq (hr : s.dock? d = some r) : ∃ m w work, s.slotTaken d r = (m, w, work)
    ∧ s.takeSlot d = s.slotState d r m w work := by
  unfold State.slotTaken
  by_cases hwants : s.wantsOpen d = true
  case neg =>
    rw [if_neg (mt (wantsOpen_iff hr).mpr hwants)]
    exact ⟨_, _, _, rfl, takeSlot_closes hr hwants⟩
  case pos =>
    rw [if_pos ((wantsOpen_iff hr).mp hwants)]
    by_cases hstands : r.commanded = .opened ∨ r.withheld = true
    case pos =>
      rw [if_pos hstands]
      refine ⟨_, _, _, rfl, ?_⟩
      rw [slotState_same hr]
      unfold State.takeSlot
      rw [hr]
      dsimp only
      rw [if_pos hwants, if_pos hstands]
    case neg =>
      obtain ⟨hcommanded, hwithheld⟩ := not_or.mp hstands
      rw [if_neg hstands]
      by_cases hat : r.acknowledged = .opened ∨ s.bookedAt d = true
      case pos =>
        rw [if_pos hat]
        exact ⟨_, _, _, rfl, takeSlot_opens hr hwants hcommanded (Bool.eq_false_iff.mpr hwithheld) hat⟩
      case neg =>
        rw [if_neg hat]
        exact ⟨_, _, _, rfl, takeSlot_waits hr hwants hcommanded (Bool.eq_false_iff.mpr hwithheld) hat⟩

/-! ### Displacement (R88) -/

theorem displace_permitted {c : Claim} (hc : s.claimOn d = some c) (h : (s.level d).permits c.kind = true) : s.displace d = s := by
  unfold State.displace
  rw [hc]
  exact if_pos h

theorem displace_past {c : Claim} (hc : s.claimOn d = some c) (hreserved : c.state ≠ .reserved) (hsent : c.state ≠ .releaseSent) :
    s.displace d = s := by
  unfold State.displace
  rw [hc]
  dsimp only
  split
  case isTrue => rfl
  case isFalse =>
    cases h : c.state with
    | reserved => exact absurd h hreserved
    | releaseSent => exact absurd h hsent
    | released | relocking | jammedOpen | orphan => rfl

theorem displace_reserved {c : Claim} (hc : s.claimOn d = some c) (h : (s.level d).permits c.kind = false)
    (hstate : c.state = .reserved) : s.displace d = s.dropClaim c .droppedByEvent := by
  unfold State.displace
  rw [hc]
  dsimp only
  rw [if_neg (by simp [h]), hstate]

theorem displace_sent {c : Claim} (hc : s.claimOn d = some c) (h : (s.level d).permits c.kind = false)
    (hstate : c.state = .releaseSent) : s.displace d =
      ((s.onClaim d fun c => { c with state := .relocking, deadline := some (s.now + 5) }).setCommand d .relock).tellDock d := by
  unfold State.displace
  rw [hc]
  dsimp only
  rw [if_neg (by simp [h]), hstate]
  rfl

end

/-- Settles O38: each case of the want, and each case of a displacement. -/
theorem slotsFollowTheirWant : Obligations.SlotsFollowTheirWant := by
  intro s d r hready hr
  refine ⟨?_, fun c hc hdock => ?_⟩
  · let u := s.taking (.dockClaimNotice d)
    obtain ⟨m, w, work, htaken, hslot⟩ := takeSlot_eq (s := u) hr
    have hat : (u.slotState d r m w work).dock? d = some (r.slotted m w) := List.getElem?_set_self (dock?_lt (s := u) hr)
    have hexec : exec (.dockClaimNotice d) s = .next ((u.slotState d r m w work).relamp d) := by
      simp only [exec, execDockClaimNotice]
      refine ready_next hready _ ?_ rfl
      rw [hslot]
    refine ⟨_, { r.slotted m w with lamp := (u.slotState d r m w work).lampOf d (r.slotted m w) }, work, hexec, ?_, htaken.symm, ?_,
      rfl, ⟨?_, fun e he => ?_⟩, ?_⟩
    · rw [State.relamp, dock?_onDock_self, hat]
      rfl
    · exact lampOf_eq_table (u.slotState d r m w work) d _
    · exact (dockCount_onDock (u.slotState d r m w work) d _).trans List.length_set
    · exact (dock?_onDock_other (u.slotState d r m w work) d e _ he).trans (List.getElem?_set_ne he.symm)
    · rw [← hslot]
      simp [u]
  · subst hdock
    have hfound := stands_taking (.displacement c.dock) hc
    refine ⟨fun hpermits => ?_, fun hreserved hsent => ?_, fun hpermits hstate => ?_, fun hpermits hstate => ?_⟩
    · exact onlyTaken_of_same hready (by simp only [exec, execDisplacement]; rfl) (displace_permitted hfound hpermits)
    · exact onlyTaken_of_same hready (by simp only [exec, execDisplacement]; rfl) (displace_past hfound hreserved hsent)
    · refine moves_of hready (by simp only [exec, execDisplacement]; rfl) ?_
      rw [displace_sent hfound hpermits hstate, postAll_nil, postAll_nil, onClaim_stands hc _ (s.taking _) rfl]
      rfl
    · simp only [exec, execDisplacement]
      refine ready_next hready _ ?_ rfl
      rw [displace_reserved hfound hpermits hstate, State.dropClaim, endClaim_state]
      rfl

end Sys2Proof.Machine
end


section
/-! The check of a card that has its record (R51 to R58), and the requests and sales that turn on it. -/

namespace Sys2Proof.Machine

theorem denyPlace_reader (s : State) (d : DockNo) (why : DenyReason) : s.denyPlace (.reader d) why = s.readerDecided d (.deny why) := rfl

theorem denyPlace_terminal (s : State) (x : TerminalId) (attempt : Nat) (why : DenyReason) :
    s.denyPlace (.terminal x attempt) why = s.post (.checkResultAtSession x attempt (.deny why)) := rfl

theorem releasing_iff (s : State) (card : CardId) : s.releasingHolder card = true ↔
    ∃ c ∈ s.release.claims, c.state.releasing = true ∧ c.holder = some card := releasingHolder_any s card

theorem rides_iff (role : Role) : role.rides = true ↔ role = .member ∨ role = .pass := by
  cases role <;> decide

theorem offlineCard_iff (s : State) (r : CardRecord) :
    s.offlineCard r = true ↔ r.role = .member ∧ (s.host.lost = true ∨ r.origin = .provisional) := by
  simp [State.offlineCard]

/-! ### The steps in their order -/

section
variable {s : State} {r : CardRecord}

theorem lookup_reader (d : DockNo) : s.lookup (.reader d) (some r) =
    if s.store.station ≠ .serving then .deny .outOfService
    else if r.standing = .barred then .deny .barred
    else if isExpired s r = true then .deny .expired
    else .found r := by
  unfold State.lookup
  rw [expired_eq]

theorem lookup_terminal (x : TerminalId) (attempt : Nat) : s.lookup (.terminal x attempt) (some r) =
    if s.store.station ≠ .serving then .deny .outOfService
    else if r.role = .service then .deny .role
    else if r.standing = .barred then .deny .barred
    else if isExpired s r = true then .deny .expired
    else .found r := by
  unfold State.lookup
  rw [expired_eq]
  cases hrole : r.role with
  | service => simp [hrole]
  | member | pass | crew => simp [hrole]

theorem lateSteps_reader {d : DockNo} {x : DockRecord} (hx : s.dock? d = some x) : s.lateSteps r (.reader d) =
    if (r.role = .member ∨ r.role = .pass) ∧ r.rights = .standard ∧ x.bike.map (·.cls) = some .electric then some .noRight
    else if ∃ c ∈ s.release.claims, c.state.releasing = true ∧ c.holder = some r.card then some .already
    else if r.role = .member ∧ (s.host.lost = true ∨ r.origin = .provisional) ∧ r.credit ≤ r.used then some .credit
    else none := by
  have hright : s.noRight r (.reader d) = true ↔
      (r.role = .member ∨ r.role = .pass) ∧ r.rights = .standard ∧ x.bike.map (·.cls) = some .electric := by
    simp [State.noRight, hx, rides_iff, and_assoc, Option.any_eq_true]
  have hholder : (Place.reader d).testsHolder r.role = true ∧ s.releasingHolder r.card = true ↔
      ∃ c ∈ s.release.claims, c.state.releasing = true ∧ c.holder = some r.card := by
    rw [releasing_iff]
    exact and_iff_right rfl
  unfold State.lateSteps
  simp only [hright, hholder, offlineCard_iff, and_assoc]

theorem lateSteps_terminal (x : TerminalId) (attempt : Nat) : s.lateSteps r (.terminal x attempt) =
    if (r.role = .member ∨ r.role = .pass) ∧ ∃ c ∈ s.release.claims, c.state.releasing = true ∧ c.holder = some r.card then
      some .already
    else if r.role = .member ∧ (s.host.lost = true ∨ r.origin = .provisional) ∧ r.credit ≤ r.used then some .credit
    else none := by
  have hholder : (Place.terminal x attempt).testsHolder r.role = true ∧ s.releasingHolder r.card = true ↔
      (r.role = .member ∨ r.role = .pass) ∧ ∃ c ∈ s.release.claims, c.state.releasing = true ∧ c.holder = some r.card := by
    rw [releasing_iff, ← rides_iff]
    rfl
  unfold State.lateSteps
  simp only [hholder, offlineCard_iff, and_assoc]
  exact if_neg (by simp [State.noRight])

/-! ### What a passed tap is handed on as (R56 to R58) -/

/-- A tap that passed the check of its record at a dock reader. -/
theorem passTap_reader {d : DockNo} {x : DockRecord} (hx : s.dock? d = some x) : s.passTap r (.reader d) =
    if r.role = .service ∧ x.clearable = false ∧ x.occupancy ≠ .occupied then s.denyPlace (.reader d) .noBike
    else s.post (tapHandedOn d x r) := by
  unfold State.passTap tapHandedOn
  cases hrole : r.role with
  | member | pass | crew => rfl
  | service =>
    simp only [State.passService, hx]
    cases hclear : x.clearable
    case true => simp
    case false =>
      by_cases hocc : x.occupancy = .occupied
      · simp [hocc]
      · simp [hocc]

theorem passTap_terminal {x : TerminalId} {attempt : Nat} (hrole : r.role ≠ .service) : s.passTap r (.terminal x attempt) =
    s.post (if r.role = .crew then .crewTap r.card (.terminal x attempt)
      else .checkResultAtSession x attempt (.member r.card r.origin r.rights)) := by
  unfold State.passTap
  cases h : r.role with
  | service => exact absurd h hrole
  | member | pass | crew => rfl

/-! ### The check as a whole -/

/-- A check with its record, at a dock reader. -/
theorem check_reader {d : DockNo} {x : DockRecord} (absent : State → State) (hx : s.dock? d = some x) :
    s.check (.reader d) (some r) absent =
      match tapRefusal s x r with
      | some why => s.denyPlace (.reader d) why
      | none => s.post (tapHandedOn d x r) := by
  unfold State.check tapRefusal checkRefusal
  rw [lookup_reader]
  by_cases hstation : s.store.station ≠ .serving
  · simp [if_pos hstation]
  by_cases hbarred : r.standing = .barred
  · simp [if_neg hstation, if_pos hbarred]
  by_cases hexpired : isExpired s r = true
  · simp [if_neg hstation, if_neg hbarred, if_pos hexpired]
  simp only [if_neg hstation, if_neg hbarred, if_neg hexpired, State.finishCheck]
  rw [lateSteps_reader hx, passTap_reader hx]
  split_ifs <;> rfl

/-- A check with its record, at a terminal. -/
theorem check_terminal {x : TerminalId} {attempt : Nat} (absent : State → State) :
    s.check (.terminal x attempt) (some r) absent = s.post (terminalHandedOn s x attempt r) := by
  unfold State.check terminalHandedOn refusalAtTerminal
  rw [lookup_terminal]
  by_cases hstation : s.store.station ≠ .serving
  · simp [if_pos hstation, denyPlace_terminal]
  by_cases hrole : r.role = .service
  · simp [if_neg hstation, if_pos hrole, denyPlace_terminal]
  by_cases hbarred : r.standing = .barred
  · simp [if_neg hstation, if_neg hrole, if_pos hbarred, denyPlace_terminal]
  by_cases hexpired : isExpired s r = true
  · simp [if_neg hstation, if_neg hrole, if_neg hbarred, if_pos hexpired, denyPlace_terminal]
  simp only [if_neg hstation, if_neg hrole, if_neg hbarred, if_neg hexpired, State.finishCheck]
  rw [lateSteps_terminal, passTap_terminal hrole]
  split_ifs <;> rfl

end

/-- Settles O33: the steps of the check in their order, at a dock reader and at a terminal. -/
theorem cardCheckAtTheDock : Obligations.CardCheckAtTheDock := by
  refine ⟨fun s d x card r hready hx hr => ⟨fun why hwhy => ?_, fun hpass => ?_⟩, fun s x attempt card r hready hr => ?_⟩
  · refine reader_told (.deny why) hready (by simp only [exec, execCardCheck]; rfl) ?_ hx
    have hfound : (s.taking (.cardCheck card (.reader d))).cardRecord card = some r := hr
    have hrefused : tapRefusal (s.taking (.cardCheck card (.reader d))) x r = some why := hwhy
    rw [hfound, check_reader _ (by exact hx), hrefused]
    rfl
  · have hfound : (s.taking (.cardCheck card (.reader d))).cardRecord card = some r := hr
    have hpassed : tapRefusal (s.taking (.cardCheck card (.reader d))) x r = none := hpass
    simp only [exec, execCardCheck]
    refine ready_next hready _ ?_ rfl
    rw [hfound, check_reader _ (by exact hx), hpassed]
    rfl
  · have hfound : (s.taking (.cardCheck card (.terminal x attempt))).cardRecord card = some r := hr
    simp only [exec, execCardCheck]
    refine ready_next hready _ ?_ rfl
    rw [hfound, check_terminal]
    rfl

end Sys2Proof.Machine
end


section
/-! Levels that follow their caps and the host's setting (R29, R30, R32 to R34, R42). -/

namespace Sys2Proof.Machine

/-! ### What a change of level leaves of a dock -/

/-- What enters the level of a dock, and what no level changes. -/
def DockRecord.standing (r : DockRecord) : Level × DockHolds × BikeHolds × Occupancy × Option Bike × LinkState × LockState :=
  (r.hostSetting, r.dockHolds, r.bikeHolds, r.occupancy, r.bike, r.link, r.lock)

def State.standings (s : State) : List (Level × DockHolds × BikeHolds × Occupancy × Option Bike × LinkState × LockState) :=
  s.dock.table.map DockRecord.standing

theorem standings_onDock {s : State} {d : DockNo} {f : DockRecord → DockRecord} (h : ∀ r, (f r).standing = r.standing) :
    (s.onDock d f).standings = s.standings := map_modify_same h

theorem standings_of_slotsOnly {s t : State} (h : SlotsOnly s t) : t.standings = s.standings := by
  have hread : ∀ u : State, u.standings = (u.dock.table.map DockRecord.slotless).map DockRecord.standing := fun u => by
    rw [List.map_map]
    rfl
  rw [hread, hread, h.table]

theorem standings_postPass (s : State) : s.postPass.standings = s.standings := standings_of_slotsOnly (slotsOnly_postPass s)

theorem standings_dropClaim (s : State) (c : Claim) (news : VanNews) : (s.dropClaim c news).standings = s.standings := by
  unfold State.dropClaim
  rw [endClaim_state]
  rfl

theorem standings_displace (s : State) (d : DockNo) : (s.displace d).standings = s.standings := by
  unfold State.displace
  split
  · rfl
  next c hc =>
    split
    · rfl
    · split
      · exact standings_dropClaim s c _
      · exact standings_onDock (s := s.onClaim d _) (f := fun r => { r with command := .relock }) fun _ => rfl
      all_goals rfl

theorem standings_takeLevel (s : State) (d : DockNo) (before : Level) : (s.takeLevel d before).standings = s.standings := by
  have hslot := standings_of_slotsOnly (slotsOnly_takeSlot s d)
  unfold State.takeLevel
  dsimp only
  split
  · rfl
  · rw [standings_of_slotsOnly (slotsOnly_relamp _ d)]
    split
    · rw [standings_displace, hslot]
    · rw [standings_postPass, hslot]

theorem standings_foldl (l : List (Level × DockNo)) (s : State) :
    (l.foldl (fun s p => s.takeLevel p.2 p.1) s).standings = s.standings := by
  induction l generalizing s with
  | nil => rfl
  | cons p l ih => rw [List.foldl_cons, ih, standings_takeLevel]

theorem standing_at {s t : State} (h : t.standings = s.standings) {d : DockNo} {r : DockRecord} (hr : s.dock? d = some r) :
    ∃ r', t.dock? d = some r' ∧ r'.standing = r.standing := by
  have hat := congrArg (·[d]?) h
  simp only [State.standings, List.getElem?_map] at hat
  rw [show s.dock.table[d]? = some r from hr] at hat
  exact Option.map_eq_some_iff.mp hat

theorem dockCount_of_standings {s t : State} (h : t.standings = s.standings) : t.dockCount = s.dockCount := by
  simpa [State.standings, State.dockCount] using congrArg List.length h

theorem levelByTable_of_standing {r r' : DockRecord} (caps : DockCaps) (h : r'.standing = r.standing) :
    levelByTable caps r' = levelByTable caps r := by
  obtain ⟨hsetting, hdock, hbike, -⟩ : r'.hostSetting = r.hostSetting ∧ r'.dockHolds = r.dockHolds ∧ r'.bikeHolds = r.bikeHolds ∧ True := by
    simp only [DockRecord.standing, Prod.mk.injEq] at h
    exact ⟨h.1, h.2.1, h.2.2.1, trivial⟩
  unfold levelByTable
  rw [hsetting, hdock, hbike]

theorem level_at {s : State} {d : DockNo} {r : DockRecord} (hr : s.dock? d = some r) : s.level d = levelByTable s.dock.caps r := by
  unfold State.level
  rw [hr]
  exact level_eq_table _ _

/-- A level that has fallen to CLOSED has its slot commanded SHUT, and waiting for nothing. -/
theorem shut_of_slotAt {s : State} {d : DockNo} {r : DockRecord} (h : SlotAt s d) (hr : s.dock? d = some r)
    (hlevel : s.level d = .closed) : r.commanded = .shut ∧ r.withheld = false := by
  have hnot := mt (h r hr) (not_not.mpr hlevel)
  obtain ⟨hcommanded, hwithheld⟩ := not_or.mp hnot
  exact ⟨mode_shut hcommanded, by simpa using hwithheld⟩

/-- No other dock is touched. -/
theorem others_displace (s : State) (d : DockNo) : ∀ e, e ≠ d → (s.displace d).dock? e = s.dock? e := by
  intro e he
  unfold State.displace
  split
  · rfl
  next c hc =>
    split
    · rfl
    · split
      · unfold State.dropClaim
        rw [endClaim_state]
        rfl
      · exact dock?_onDock_other (s.onClaim d _) d e (fun r => { r with command := .relock }) he
      all_goals rfl

theorem others_takeLevel (s : State) (d : DockNo) (before : Level) : ∀ e, e ≠ d → (s.takeLevel d before).dock? e = s.dock? e := by
  intro e he
  obtain ⟨_, _, hslot⟩ := acts_takeSlot s d
  obtain ⟨-, hsame⟩ := hslot.oth
  unfold State.takeLevel
  dsimp only
  split
  · rfl
  · rw [State.relamp, dock?_onDock_other _ _ _ _ he]
    split
    · rw [others_displace _ d e he, hsame e he]
    · rw [postPass_eq]
      exact hsame e he

/-! ### The two changes -/

theorem caps_of_fixtures {s t : State} (h : t.view.fixtures = s.view.fixtures) : t.dock.caps = s.dock.caps :=
  congrArg Fixtures.caps h

theorem changeCaps_caps (s : State) (f : DockCaps → DockCaps) : (s.changeCaps f).dock.caps = f s.dock.caps :=
  caps_of_fixtures (fixtures_foldl (fun _ _ => fixtures_takeLevel _ _ _) _ (s.onDocks fun u => { u with caps := f u.caps }))

theorem standings_changeCaps (s : State) (f : DockCaps → DockCaps) : (s.changeCaps f).standings = s.standings :=
  standings_foldl _ (s.onDocks fun u => { u with caps := f u.caps })

theorem slotAt_changeCaps {s : State} (f : DockCaps → DockCaps) {d : DockNo} (hd : d < s.dockCount) (hlevel : s.level d ≠ .closed) :
    SlotAt (s.changeCaps f) d := by
  refine slotAt_foldl_takeLevel _ (Or.inr ⟨(s.level d, d), ?_, rfl, fun hsame => slotAt_of_level ?_⟩)
  · rw [List.mem_zipIdx_iff_getElem?]
    simp [hd]
  · rw [hsame]
    exact hlevel

theorem operands_dockSetService {d : DockNo} (h : d < 256) (l : Level) :
    Operands.dockSetService [byteOf d, byteOf (Code.level l)] = .ok (d, l) := by
  have hdock : fieldAt [byteOf d, byteOf (Code.level l)] 0 1 = d := operands_byte h
  have hlevel : fieldAt [byteOf d, byteOf (Code.level l)] 1 1 = Code.level l := by cases l <;> rfl
  have hcoded : Operands.coded (Code.level? (Code.level l)) = .ok l := by cases l <;> rfl
  simp only [Operands.dockSetService, Operands.fixed, hdock, hlevel, hcoded]
  rfl

/-- Settles O37: a told cap, and a host setting. -/
theorem levelsFollowTheirCaps : Obligations.LevelsFollowTheirCaps := by
  intro s hready
  refine ⟨fun c => ?cap, fun tag d r l hr hd => ?setting, fun tag d l hr hd => ?absent⟩
  case cap =>
    let u := s.taking (.dockCapChange c)
    have honly : Only [.inFlight, .dock, .release] u (u.changeCaps c.apply) := by simp
    refine ⟨u.changeCaps c.apply, ?_, ?_, fun d r hr => ?_, dockCount_of_standings (standings_changeCaps u c.apply),
      Only.trans (by simp [u]) honly⟩
    · simp only [exec, execDockCapChange]
      exact ready_next hready _ rfl (honly .host (by decide))
    · rw [changeCaps_caps]
      cases c <;> rfl
    · obtain ⟨r', hr', hstanding⟩ := standing_at (standings_changeCaps u c.apply) (by exact hr)
      refine ⟨r', hr', ?_, fun hopen hclosed => ?_, hstanding⟩
      · rw [level_at hr', levelByTable_of_standing _ hstanding]
      · exact shut_of_slotAt (slotAt_changeCaps (s := u) c.apply (dock?_lt hr) hopen) hr' hclosed
  case setting =>
    let i := Instr.dockSetService tag [byteOf d, byteOf (Code.level l)]
    let set : DockRecord → DockRecord := fun r => { r with hostSetting := l }
    let u := (s.taking i).onDock d set
    let t := u.takeLevel d (s.level d)
    have hat : u.dock? d = some { r with hostSetting := l } := by
      rw [dock?_onDock_self (s.taking i), show (s.taking i).dock? d = some r from hr]
      rfl
    obtain ⟨r', hr', hstanding⟩ := standing_at (standings_takeLevel u d (s.level d)) hat
    have hcaps : t.dock.caps = s.dock.caps := caps_of_fixtures (s := u) (fixtures_takeLevel u d (s.level d))
    have honly : Only [.inFlight, .dock, .release] s t := by simp [t, u]
    have hsetting : r'.hostSetting = l := congrArg Prod.fst hstanding
    have hexec : exec i s = .next ((t.reply 0x0D tag .ok (.level (t.level d))).onHost HostLink.beginSending) := by
      simp only [i, exec, execDockSetService]
      rw [request_ok hready.1 (operands_dockSetService hd l)]
      exact congrArg (fun w : State => Host.Outcome.next (w.onHost HostLink.beginSending)) (if_pos (dock?_lt hr))
    refine ⟨_, r', hexec, hr', hsetting, ?_, fun hopen hclosed => ?_, reply_answered _ _ _ _ _, ⟨?_, fun e he => ?_⟩, ?_⟩
    · exact (level_at hr').trans ((levelByTable_of_standing _ hstanding).trans (by rw [hcaps]))
    · exact shut_of_slotAt (slotAt_takeLevel_self fun hsame => slotAt_of_level (by rw [hsame]; exact hopen)) hr' hclosed
    · exact (dockCount_of_standings (standings_takeLevel u d (s.level d))).trans (dockCount_onDock (s.taking i) d set)
    · exact (others_takeLevel u d _ e he).trans (dock?_onDock_other (s.taking i) d e set he)
    · exact Only.trans (honly.mono (by simp)) (by simp)
  case absent =>
    have habsent : ¬ d < s.dockCount := fun hlt => by
      have hnone := List.getElem?_eq_none_iff.mp hr
      exact absurd hlt (Nat.not_lt.mpr hnone)
    simp only [exec, execDockSetService]
    refine request_replies (s.taking _) .badField .nothing hready (operands_dockSetService hd l) ?_ hready.2 rfl
    exact if_neg habsent

end Sys2Proof.Machine
end


section
/-! Cards put and dropped, pass sales, charges and refunds (R48 to R50, R59, R60). -/

namespace Sys2Proof.Machine

/-! ### The table -/

section
variable {s : State} {r : CardRecord}

theorem cardRecord_isSome_iff (card : CardId) : (s.cardRecord card).isSome = true ↔ ∃ x ∈ s.card.table, x.card = card := by
  simp [State.cardRecord, List.find?_isSome]

theorem cardRecord_none {card : CardId} (h : s.cardRecord card = none) : ∀ x ∈ s.card.table, x.card ≠ card := fun x hx hcard => by
  have hsome := (cardRecord_isSome_iff card).mpr ⟨x, hx, hcard⟩
  rw [h] at hsome
  cases hsome

/-- The record that was installed is the one found for its card. -/
theorem cardRecord_installed (u : State) (hu : u.card = installed s r) :
    u.cardRecord r.card = some { r with stamp := s.card.installCounter } := by
  unfold State.cardRecord
  rw [hu]
  unfold installed
  dsimp only
  split
  case isTrue hthere =>
    obtain ⟨y, hy⟩ := Option.isSome_iff_exists.mp ((cardRecord_isSome_iff r.card).mpr hthere)
    have hcard : y.card = r.card := by simpa using List.find?_some hy
    have hsame : ((fun x : CardRecord => x.card == r.card) ∘ fun x => if x.card = r.card then { r with stamp := s.card.installCounter } else x)
        = fun x => x.card == r.card := by
      funext x
      by_cases hx : x.card = r.card
      · simp [hx]
      · simp [hx]
    rw [List.find?_map, hsame, show s.card.table.find? (fun x => x.card == r.card) = some y from hy, Option.map_some, if_pos hcard]
  case isFalse hnot =>
    have hnone : s.card.table.find? (fun x => x.card == r.card) = none := by
      rw [List.find?_eq_none]
      exact fun x hx hcard => hnot ⟨x, hx, by simpa using hcard⟩
    rw [List.find?_append, hnone]
    simp

theorem evicted_installCounter (old : CardRecord) :
    ({ s with card := { s.card with table := s.card.table.filter fun x => x.card != old.card } } : State).card.installCounter =
      s.card.installCounter := rfl

/-- The record that was placed is the one found for its card. -/
theorem cardRecord_placed {evictable : List CardRecord} {u : CardUnit} (h : Placed s r evictable u) :
    ({ s with card := u } : State).cardRecord r.card = some { r with stamp := s.card.installCounter } := by
  rcases h with ⟨-, rfl⟩ | ⟨-, old, -, rfl⟩
  · exact cardRecord_installed _ rfl
  · exact cardRecord_installed (s := { s with card := { s.card with table := s.card.table.filter fun x => x.card != old.card } }) _ rfl

theorem placeRecord_sold_none (hroom : ¬ hasSlot s r) (hnone : saleEvicts s = []) : s.placeRecord r true = none := by
  have hexpired : expiredCards s = [] := by
    by_contra h
    exact h (by rwa [saleEvicts, if_neg h] at hnone)
  rw [saleEvicts, if_pos hexpired] at hnone
  have hevictee : s.evictee true = none := by
    unfold State.evictee
    rw [expired_eq, show s.card.table.filter (isExpired s) = [] from hexpired, hnone]
    rfl
  unfold State.placeRecord
  rw [if_neg (mt (hasRoom_iff s r).mp hroom), hevictee]
  rfl

end

theorem cardAt_origin {b : List Byte} {o : Nat} {present : Bool} {r : CardRecord} (h : Operands.cardAt b o present = .ok r) :
    r.origin = .host := by
  obtain ⟨_, _, h⟩ := bind_ok h
  obtain ⟨_, _, h⟩ := bind_ok h
  obtain ⟨_, _, h⟩ := bind_ok h
  obtain ⟨_, _, h⟩ := bind_ok h
  obtain ⟨_, _, h⟩ := bind_ok h
  obtain ⟨_, _, h⟩ := bind_ok h
  obtain ⟨_, _, h⟩ := bind_ok h
  obtain ⟨_, _, h⟩ := bind_ok h
  cases h
  rfl

theorem cardPut_origin {body : List Byte} {r : CardRecord} (h : Operands.cardPut body = .ok r) : r.origin = .host := by
  unfold Operands.cardPut Operands.optional at h
  split at h
  · cases h
  · split at h
    · split at h
      · exact cardAt_origin h
      · cases h
    · split at h
      · exact cardAt_origin h
      · cases h
    · cases h

/-- Settles O32: a record replaced, put in a free slot, refused, or dropped. -/
theorem cardsArePutAndDropped : Obligations.CardsArePutAndDropped := by
  intro s tag hready
  refine ⟨fun body r hbody => ?_, fun card => ?_⟩
  · let u := s.taking (.cardPut tag body)
    have hhost : ({ r with origin := .host } : CardRecord) = r := by rw [← cardPut_origin hbody]
    rw [hhost]
    simp only [exec, execCardPut]
    have hsome : (u.cardRecord r.card).isSome = true ↔ ∃ x ∈ s.card.table, x.card = r.card := cardRecord_isSome_iff r.card
    by_cases hthere : ∃ x ∈ s.card.table, x.card = r.card
    case pos =>
      refine request_replies (u.install r) .replaced .nothing hready hbody (if_pos (hsome.mpr hthere)) hready.2 ?_
      rw [install_eq, if_pos hthere, if_pos (Or.inl hthere)]
      rfl
    case neg =>
      by_cases hfree : s.card.table.length < s.store.layout.journalBase
      case pos =>
        have hroom : u.hasRoom r.card = true := (hasRoom_iff u r).mpr (.inr hfree)
        refine request_replies (u.install r) .ok .nothing hready hbody ((if_neg (mt hsome.mp hthere)).trans (if_pos hroom)) hready.2 ?_
        rw [install_eq, if_neg hthere, if_pos hfree, if_pos (Or.inr hfree)]
        rfl
      case neg =>
        have hroom : ¬ u.hasRoom r.card = true := mt (hasRoom_iff u r).mp (not_or.mpr ⟨hthere, hfree⟩)
        refine request_replies u .tableFull .nothing hready hbody ((if_neg (mt hsome.mp hthere)).trans (if_neg hroom)) hready.2 ?_
        rw [if_neg (not_or.mpr ⟨hthere, hfree⟩), if_neg hthere, if_neg hfree]
        rfl
  · let u := s.taking (.cardDrop tag (bytesWord card))
    simp only [exec, execCardDrop]
    have hsome : (u.cardRecord card).isSome = true ↔ ∃ x ∈ s.card.table, x.card = card := cardRecord_isSome_iff card
    by_cases hthere : ∃ x ∈ s.card.table, x.card = card
    case pos =>
      refine request_replies (u.onCards (·.drop card)) .ok .nothing hready (operands_cardId card) (if_pos (hsome.mpr hthere)) hready.2 ?_
      rw [if_pos hthere]
      rfl
    case neg =>
      refine request_replies u .notFound .nothing hready (operands_cardId card) (if_neg (mt hsome.mp hthere)) hready.2 ?_
      have hsame : s.card.table.filter (fun x => x.card != card) = s.card.table := by
        rw [List.filter_eq_self]
        exact fun x hx => by simpa using fun hcard => hthere ⟨x, hx, hcard⟩
      rw [if_neg hthere, hsame]
      rfl

/-! ### Sales (R50) -/

section
variable {s : State} {x : TerminalId} {attempt : Nat} {code : CardId} {expiry : ClockTime}

theorem saleTests_ok {rights : Rights} (hcode : code.msb = true) (hclock : s.store.clockUnset = true ∨ s.store.clock < expiry) :
    s.saleTests code (byteOf (Code.rights rights)) expiry = .ok (soldPass code rights expiry) := by
  have hrights : Code.rights? (byteOf (Code.rights rights)).toNat = some rights := by cases rights <;> rfl
  have hunreached : ¬ s.clockReached expiry = true := by
    unfold State.clockReached
    rcases hclock with h | h
    · simp [h]
    · simp [BitVec.not_le.mpr h]
  unfold State.saleTests
  rw [if_neg (by simp [hcode]), hrights]
  exact if_neg hunreached

theorem rights_none {n : Nat} (h : 2 ≤ n) : Code.rights? n = none := by
  rcases Option.eq_none_or_eq_some (Code.rights? n) with hnone | ⟨y, hy⟩
  · exact hnone
  · have hn := rights_of_code hy
    have hle : Code.rights y ≤ 1 := by cases y <;> decide
    omega

theorem rights_some {n : Nat} (h : ¬ 2 ≤ n) : ∃ y, Code.rights? n = some y := by
  match n, h with
  | 0, _ => exact ⟨.standard, rfl⟩
  | 1, _ => exact ⟨.standardElectric, rfl⟩
  | n + 2, h => exact absurd (Nat.le_add_left 2 n) h

theorem saleTests_refused {rights : Byte}
    (h : code.msb = false ∨ 2 ≤ rights.toNat ∨ (s.store.clockUnset = false ∧ expiry ≤ s.store.clock)) :
    s.saleTests code rights expiry = .error (if code.msb = false then .role else if 2 ≤ rights.toNat then .noRight else .expired) := by
  unfold State.saleTests
  by_cases hcode : code.msb = false
  case pos => rw [if_pos (by simp [hcode]), if_pos hcode]
  rw [if_neg (by simpa using hcode), if_neg hcode]
  by_cases hrights : 2 ≤ rights.toNat
  case pos =>
    rw [rights_none hrights, if_pos hrights]
  obtain ⟨y, hy⟩ := rights_some hrights
  obtain ⟨hset, hle⟩ := (h.resolve_left hcode).resolve_left hrights
  have hreached : s.clockReached expiry = true := by simp [State.clockReached, hset, hle]
  rw [hy, if_neg hrights]
  exact if_pos hreached

end

/-- What is decided of a card at a terminal turns on the card table in nothing. -/
theorem terminalHandedOn_congr {s t : State} {r : CardRecord} {stamp : Word} (x : TerminalId) (attempt : Nat)
    (hstore : t.store = s.store) (hrelease : t.release = s.release) (hlost : t.host.lost = s.host.lost) :
    terminalHandedOn t x attempt { r with stamp := stamp } = terminalHandedOn s x attempt r := by
  have hrefusal : refusalAtTerminal t { r with stamp := stamp } = refusalAtTerminal s r := by
    simp only [refusalAtTerminal, isExpired, hstore, hrelease, hlost]
    rfl
  simp only [terminalHandedOn, hrefusal]

theorem keepPass_eq (s : State) (x : TerminalId) (attempt : Nat) (r : CardRecord) :
    s.keepPass x attempt r = withTerminal s x fun y =>
      if y.session.state = .checking ∧ y.session.attempt = attempt then { y with session := { y.session with unstored := some r } }
      else y := by
  rw [State.keepPass, State.onSession, withTerminal_eq]
  refine onTerminal_congr ?_
  dsimp only
  split <;> rfl

/-! ### Charges and refunds (R59, R60) -/

theorem charge_due {s : State} {d : DockNo} {q : ClaimRequest} {t : State} (hready : s.ready) (hq : s.requestOn d = some q)
    (ht : (match s.cardRecord q.holder with
      | none => (s.taking (.charge d q.holder)).post (.claimGrant d .free)
      | some r =>
        if ¬ s.offlineCard r then (s.taking (.charge d q.holder)).post (.claimGrant d .free)
        else if r.used < r.credit then ((s.taking (.charge d q.holder)).setUsed q.holder (· + 1)).post (.claimGrant d .charged)
        else (s.taking (.charge d q.holder)).post (.claimGrant d .credit)) = t) (hhost : t.host = s.host) :
    exec (.charge d q.holder) s = .next t := by
  have hheld : ((s.taking (.charge d q.holder)).requestOn d).any (fun y => y.holder == q.holder) = true := by
    rw [show (s.taking (.charge d q.holder)).requestOn d = some q from hq]
    simp
  simp only [exec, execCharge]
  refine ready_next hready t ?_ hhost
  rw [if_pos hheld]
  exact ht

/-- Settles O36: sales placed, kept and refused; charges; refunds. -/
theorem salesChargesAndRefunds : Obligations.SalesChargesAndRefunds := by
  intro s hready
  refine ⟨fun x attempt code rights expiry hcode hclock c r hr hc => ⟨fun u hu => ?_, fun hroom hnone => ?_⟩,
    fun x attempt code rights expiry why hwhy hrefused => ?_, fun d q r hq hr => ?_, fun d q hq hr => ?_, fun card => ?_⟩
  · subst hr hc
    let w := s.taking (.passSale x attempt code (byteOf (Code.rights rights)) expiry)
    have htests := saleTests_ok (s := w) (rights := rights) hcode hclock
    have hplace : w.placeRecord (soldPass code rights expiry) true = some { w with card := u } := placeRecord_of_sold hu
    have hrecord : ({ w with card := u } : State).cardRecord code = some { soldPass code rights expiry with stamp := s.card.installCounter } :=
      cardRecord_placed (s := w) hu
    simp only [exec, execPassSale]
    refine ready_next hready _ ?_ rfl
    rw [htests]
    dsimp only
    rw [hplace]
    dsimp only
    rw [hrecord, check_terminal, terminalHandedOn_congr (s := s) x attempt rfl rfl rfl]
    rfl
  · subst hr hc
    let w := s.taking (.passSale x attempt code (byteOf (Code.rights rights)) expiry)
    have htests := saleTests_ok (s := w) (rights := rights) hcode hclock
    have hplace : w.placeRecord (soldPass code rights expiry) true = none := placeRecord_sold_none hroom hnone
    let u := (w.join .cardTableFull).keepPass x attempt (soldPass code rights expiry)
    have hhanded : terminalHandedOn u x attempt (soldPass code rights expiry) = terminalHandedOn s x attempt (soldPass code rights expiry) :=
      terminalHandedOn_congr (r := soldPass code rights expiry) (stamp := 0) x attempt rfl rfl (join_lost s.host _)
    refine ⟨(u.post (terminalHandedOn s x attempt (soldPass code rights expiry))).onHost HostLink.beginSending, ?_, ?_, ?_, rfl, by simp [u, w]⟩
    · simp only [exec, execPassSale]
      rw [act_running hready.1, htests]
      dsimp only
      rw [hplace]
      dsimp only
      rw [check_terminal, hhanded]
    · have hset : u.host.noticeSet = s.host.noticeSet ||| NoticeKind.cardTableFull.bit := join_noticeSet s.host _
      rw [onHost_host, beginSending_noticeSet, post_host, hset]
      exact inSet_or _ _
    · exact (congrArg State.term (keepPass_eq s x attempt (soldPass code rights expiry)) :)
  · subst hwhy
    let w := s.taking (.passSale x attempt code rights expiry)
    have htests := saleTests_refused (s := w) hrefused
    simp only [exec, execPassSale]
    refine ready_next hready _ ?_ rfl
    rw [htests]
    rfl
  · refine charge_due hready hq ?_ ?_
    · rw [hr]
      dsimp only
      by_cases hoffline : r.role = .member ∧ (s.host.lost = true ∨ r.origin = .provisional)
      case neg =>
        rw [if_pos (mt (offlineCard_iff s r).mp hoffline), if_neg hoffline, if_neg fun h => hoffline (And.imp_right And.left h)]
        rfl
      case pos =>
        obtain ⟨hrole, hconfirm⟩ := hoffline
        rw [if_neg (not_not.mpr ((offlineCard_iff s r).mpr ⟨hrole, hconfirm⟩))]
        by_cases hcredit : r.used < r.credit
        · rw [if_pos hcredit, if_pos (And.intro hrole hconfirm), if_pos hcredit, if_pos ⟨hrole, hconfirm, hcredit⟩]
          rfl
        · rw [if_neg hcredit, if_pos (And.intro hrole hconfirm), if_neg hcredit, if_neg fun h => hcredit h.2.2]
          rfl
    · rfl
  · refine charge_due hready hq ?_ ?_
    · rw [hr]
      rfl
    · rfl
  · simp only [exec, execRefund]
    exact ready_next hready _ rfl rfl

end Sys2Proof.Machine
end


section
/-! Cards without a record: queries, their tags, and the unknown-card rule (R52, R62, R63, R65). -/

namespace Sys2Proof.Machine

/-! ### The first free tag (R62) -/

/-- With fewer than eight queries, one of the next eight tags is free. -/
theorem exists_freeTag {queries : List Query} (hlen : queries.length < 8) (t : Byte) :
    ∃ k < 255, ∀ q ∈ queries, q.tag ≠ tagOn t k := by
  by_contra hnone
  push Not at hnone
  have hsub : ((List.range 8).map (tagOn (tagAfter t))) ⊆ queries.map (·.tag) := by
    intro x hx
    obtain ⟨j, hj, rfl⟩ := List.mem_map.mp hx
    have hlt := List.mem_range.mp hj
    obtain ⟨q, hq, htag⟩ := hnone (j + 1) (by omega)
    exact List.mem_map.mpr ⟨q, hq, htag⟩
  have hdistinct : ((List.range 8).map (tagOn (tagAfter t))).Nodup := by
    refine List.Nodup.map_on (fun i hi j hj hij => ?_) List.nodup_range
    rw [List.mem_range] at hi hj
    have hnat := congrArg BitVec.toNat hij
    rw [(tagOn_facts (tagAfter_ne_zero t) i).2, (tagOn_facts (tagAfter_ne_zero t) j).2] at hnat
    omega
  have hle := (hdistinct.subperm hsub).length_le
  rw [List.length_map, List.length_range, List.length_map] at hle
  omega

/-- The search passes over held tags alone. -/
theorem freeTag_before (queries : List Query) (n : Nat) (t : Byte) :
    ∃ j, freeTag queries n t = tagOn t j ∧ ∀ i < j, ∃ q ∈ queries, q.tag = tagOn t i := by
  induction n generalizing t with
  | zero => exact ⟨0, rfl, fun i hi => absurd hi (Nat.not_lt_zero i)⟩
  | succ n ih =>
    unfold freeTag
    split
    case isFalse => exact ⟨0, rfl, fun i hi => absurd hi (Nat.not_lt_zero i)⟩
    case isTrue hheld =>
      obtain ⟨j, hj, hbefore⟩ := ih (tagAfter t)
      refine ⟨j + 1, hj, fun i hi => ?_⟩
      cases i with
      | zero => simpa [tagOn] using hheld
      | succ i => exact hbefore i (Nat.lt_of_succ_lt_succ hi)

/-! ### Asking the host (R52, R62, R63) -/

section
variable {s : State} {card : CardId} {p : Place}

theorem check_absent (absent : State → State) (hstation : s.store.station = .serving) : s.check p none absent = absent s := by
  unfold State.check State.lookup
  rw [if_neg (by simp [hstation])]

theorem askHost_queried {q : Query} (h : s.card.queries.find? (fun q => q.card == card) = some q) :
    s.askHost card p = s.joinQuery q p := by
  unfold State.askHost
  rw [h]

theorem queries_find_none (h : ∀ q ∈ s.card.queries, q.card ≠ card) : s.card.queries.find? (fun q => q.card == card) = none := by
  rw [List.find?_eq_none]
  exact fun q hq hcard => h q hq (by simpa using hcard)

theorem askHost_new (h : ∀ q ∈ s.card.queries, q.card ≠ card) (hlost : s.host.lost = false) (hlen : s.card.queries.length < 8) :
    s.askHost card p = s.newQuery card p := by
  unfold State.askHost
  rw [queries_find_none h]
  exact if_pos ⟨by simp [hlost], hlen⟩

theorem askHost_unknown (h : ∀ q ∈ s.card.queries, q.card ≠ card) (hno : s.host.lost = true ∨ 8 ≤ s.card.queries.length) :
    s.askHost card p = s.unknownCard card p := by
  unfold State.askHost
  rw [queries_find_none h]
  refine if_neg ?_
  rintro ⟨hup, hlen⟩
  rcases hno with hlost | hfull
  · exact hup hlost
  · exact absurd hlen (Nat.not_lt.mpr hfull)

/-- The query that is found for a card. -/
theorem query_of_find {q : Query} (h : s.card.queries.find? (fun q => q.card == card) = some q) :
    q ∈ s.card.queries ∧ q.card = card :=
  ⟨List.mem_of_find?_eq_some h, by simpa using List.find?_some h⟩

/-- With one query to a card, it is the one found. -/
theorem find_query {q : Query} (hkept : (s.card.queries.map (·.card)).Nodup) (hq : q ∈ s.card.queries) (hcard : q.card = card) :
    s.card.queries.find? (fun q => q.card == card) = some q := by
  rcases Option.eq_none_or_eq_some (s.card.queries.find? fun q => q.card == card) with hnone | ⟨y, hy⟩
  · rw [List.find?_eq_none] at hnone
    exact absurd (by simpa using hcard) (hnone q hq)
  · obtain ⟨hmem, hycard⟩ := query_of_find hy
    rw [hy, List.inj_on_of_nodup_map hkept hmem hq (hycard.trans hcard.symm)]

/-! ### The unknown-card rule (R65) -/

theorem unknownCard_denied (h : s.store.live.unknownCard = .deny ∨ card.msb = true) :
    s.unknownCard card p = s.denyPlace p .unknown := by
  unfold State.unknownCard
  rcases h with h | h
  · rw [State.settings, h]
  · rw [h]
    cases s.settings.unknownCard <;> rfl

/-- The record that the rule installs passes the first steps of the check. -/
theorem check_admitted (absent : State → State) (hstation : s.store.station = .serving) :
    s.check p (some (admitted card)) absent = s.finishCheck (admitted card) p := by
  unfold State.check
  cases p with
  | reader d =>
    rw [lookup_reader, if_neg (by simp [hstation]), if_neg (by simp [admitted]), if_neg (by simp [isExpired, admitted])]
  | terminal x attempt =>
    rw [lookup_terminal, if_neg (by simp [hstation]), if_neg (by simp [admitted]), if_neg (by simp [admitted]),
      if_neg (by simp [isExpired, admitted])]

theorem unknownCard_placed {u : CardUnit} (hrule : s.store.live.unknownCard = .provisional) (hcard : card.msb = false)
    (hstation : s.store.station = .serving) (hu : Placed s (admitted card) (expiredCards s) u) :
    s.unknownCard card p = (s.onCards fun _ => u).check p (some (admitted card)) id := by
  have hplace : s.placeRecord (provisionalRecord card) false = some (s.onCards fun _ => u) := placeRecord_of_placed hu
  unfold State.unknownCard
  rw [State.settings, hrule, hcard, hplace, check_admitted id (by exact hstation)]
  rfl

/-- With the table full and no record expired, no room can be made. -/
theorem placeRecord_admitted_none (hnone : s.cardRecord card = none) (hfull : s.store.layout.journalBase ≤ s.card.table.length)
    (hexpired : expiredCards s = []) : s.placeRecord (admitted card) false = none := by
  have hroom : ¬ hasSlot s (admitted card) := by
    rintro (⟨x, hx, hcard⟩ | hfree)
    · exact cardRecord_none hnone x hx hcard
    · exact absurd hfree (Nat.not_lt.mpr hfull)
  have hevictee : s.evictee false = none := by
    unfold State.evictee
    rw [expired_eq, show s.card.table.filter (isExpired s) = [] from hexpired]
    rfl
  unfold State.placeRecord
  rw [if_neg (mt (hasRoom_iff s (admitted card)).mp hroom), hevictee]
  rfl

theorem unknownCard_full (hrule : s.store.live.unknownCard = .provisional) (hcard : card.msb = false) (hnone : s.cardRecord card = none)
    (hfull : s.store.layout.journalBase ≤ s.card.table.length) (hexpired : expiredCards s = []) :
    s.unknownCard card p = (s.join .cardTableFull).denyPlace p .unknown := by
  have hplace : s.placeRecord (provisionalRecord card) false = none := placeRecord_admitted_none hnone hfull hexpired
  unfold State.unknownCard
  rw [State.settings, hrule, hcard, hplace]
  rfl

/-! ### The checks -/

theorem cardCheck_next {t : State} (hready : s.ready) (hnone : s.cardRecord card = none) (hstation : s.store.station = .serving)
    (ht : (s.taking (.cardCheck card p)).askHost card p = t) (hhost : t.host = s.host) : exec (.cardCheck card p) s = .next t := by
  have habsent : (s.taking (.cardCheck card p)).cardRecord card = none := hnone
  simp only [exec, execCardCheck]
  refine ready_next hready t ?_ hhost
  rw [habsent, check_absent _ (by exact hstation), ht]

theorem cardCheck_begins {u : State} (hready : s.ready) (hnone : s.cardRecord card = none) (hstation : s.store.station = .serving)
    (hu : (s.taking (.cardCheck card p)).askHost card p = u) :
    exec (.cardCheck card p) s = .next (u.onHost HostLink.beginSending) := by
  have habsent : (s.taking (.cardCheck card p)).cardRecord card = none := hnone
  simp only [exec, execCardCheck]
  rw [act_running hready.1, habsent, check_absent _ (by exact hstation), hu]

/-- The reader of a dock is told in a state that differs elsewhere. -/
theorem decided_facts {u w : State} {i : Instr} {d : DockNo} {x : DockRecord} (v : ReaderResult) (hw : w = u.readerDecided d v)
    (hdock : u.dock = s.dock) (hwork : u.inFlight = s.inFlight.erase i) (hx : s.dock? d = some x) :
    w.dock? d = some (decidedAt x v) ∧ HandedOn i s w [] ∧ OtherDocksSame d s w := by
  have hat : u.dock? d = some x := (dock?_of_dock hdock d).trans hx
  obtain ⟨hlength, hothers⟩ := (acts_readerDecided u d v).oth
  subst hw
  refine ⟨dock?_readerDecided v hat, ?_, hlength.trans (by rw [hdock]), fun e he => (hothers e he).trans (dock?_of_dock hdock e)⟩
  exact hwork.trans (List.append_nil _).symm

end

/-- Settles O34: a new query, a query joined, and the rule when the host cannot be asked. -/
theorem unknownCardsAreAsked : Obligations.UnknownCardsAreAsked := by
  intro s card hready hnone hstation
  refine ⟨fun p hlost hlen hothers => ?new, fun p q hq hcard hkept hroom => ?join, fun why hwhy => ?denied,
    fun hno hothers hrule hmsb => ⟨fun u hu => ?placed, fun hfull hexpired => ?full⟩⟩
  case new =>
    obtain ⟨k, hk, hfree⟩ := exists_freeTag hlen s.card.nextTag
    obtain ⟨j, htag, hbefore⟩ := freeTag_before s.card.queries 255 s.card.nextTag
    have hfreej : ∀ q ∈ s.card.queries, q.tag ≠ tagOn s.card.nextTag j := by
      rw [← htag]
      refine (freeTag_on s.card.queries 255 s.card.nextTag).2.resolve_right fun hall => ?_
      obtain ⟨q, hq, hheld⟩ := hall k hk
      exact hfree q hq hheld
    refine ⟨j, tagOn s.card.nextTag j, rfl, hfreej, hbefore, ?_⟩
    have hask : (s.taking (.cardCheck card p)).askHost card p = (s.taking (.cardCheck card p)).newQuery card p :=
      askHost_new (s := s.taking _) hothers hlost hlen
    rw [cardCheck_begins hready hnone hstation hask]
    have htag' : freeTag (s.taking (.cardCheck card p)).card.queries 255 (s.taking (.cardCheck card p)).card.nextTag =
      tagOn s.card.nextTag j := htag
    unfold State.newQuery
    rw [htag', onHost_same (beginSending_send hready.2 (by simp))]
    rfl
  case join =>
    obtain ⟨-, hcards, -⟩ := hkept
    refine cardCheck_next hready hnone hstation ?_ rfl
    rw [askHost_queried (find_query (s := s.taking _) hcards hq hcard)]
    exact if_pos hroom
  case denied =>
    have hask : ∀ p, (s.taking (.cardCheck card p)).askHost card p = (s.taking (.cardCheck card p)).denyPlace p why := fun p => by
      rcases hwhy with ⟨⟨q, hq, hcard⟩, ⟨-, hcards, -⟩, hfull, rfl⟩ | ⟨hno, hothers, hrule, rfl⟩
      · rw [askHost_queried (find_query (s := s.taking _) hcards hq hcard)]
        exact if_neg (Nat.not_lt.mpr (hfull q hq hcard))
      · rw [askHost_unknown (s := s.taking _) hothers hno, unknownCard_denied (s := s.taking _) hrule]
    refine ⟨fun d x hx => ?_, fun x attempt => cardCheck_next hready hnone hstation (hask _) rfl⟩
    obtain ⟨hat, hhanded, hsame⟩ := decided_facts (s := s) (i := .cardCheck card (.reader d))
      (u := s.taking (.cardCheck card (.reader d))) (.deny why) rfl rfl rfl hx
    exact ⟨_, cardCheck_next hready hnone hstation (hask _) rfl, hat, hhanded, rfl, hsame, by simp⟩
  case placed =>
    have hask : ∀ p, (s.taking (.cardCheck card p)).askHost card p =
        ((s.taking (.cardCheck card p)).onCards fun _ => u).check p (some (admitted card)) id := fun p => by
      rw [askHost_unknown (s := s.taking _) hothers hno, unknownCard_placed (s := s.taking _) hrule hmsb hstation hu]
    refine ⟨fun d x hx => ⟨fun hpass => ?_, fun why hwhy => ?_⟩, fun x attempt => ?_⟩
    · refine cardCheck_next hready hnone hstation ((hask _).trans (check_reader _ (by exact hx)) |>.trans ?_) rfl
      rw [show tapRefusal ((s.taking (.cardCheck card (.reader d))).onCards fun _ => u) x (admitted card) = none from hpass]
      rfl
    · obtain ⟨hat, hhanded, hsame⟩ := decided_facts (s := s) (i := .cardCheck card (.reader d))
        (u := (s.taking (.cardCheck card (.reader d))).onCards fun _ => u) (.deny why) rfl rfl rfl hx
      refine ⟨((s.taking (.cardCheck card (.reader d))).onCards fun _ => u).readerDecided d (.deny why),
        cardCheck_next hready hnone hstation ((hask _).trans (check_reader _ (by exact hx)) |>.trans ?_) rfl, hat, rfl, hhanded, hsame,
        by simp⟩
      · rw [show tapRefusal ((s.taking (.cardCheck card (.reader d))).onCards fun _ => u) x (admitted card) = some why from hwhy]
        rfl
    · refine cardCheck_next hready hnone hstation ((hask _).trans (check_terminal _) |>.trans ?_) rfl
      rfl
  case full =>
    have hask : ∀ p, (s.taking (.cardCheck card p)).askHost card p =
        ((s.taking (.cardCheck card p)).join .cardTableFull).denyPlace p .unknown := fun p => by
      rw [askHost_unknown (s := s.taking _) hothers hno, unknownCard_full (s := s.taking _) hrule hmsb hnone hfull hexpired]
    have hset : NoticeKind.cardTableFull.inSet (s.host.join .cardTableFull).beginSending.noticeSet = true := by
      rw [beginSending_noticeSet, join_noticeSet]
      exact inSet_or _ _
    refine ⟨fun d x hx => ?_, fun x attempt => ?_⟩
    · obtain ⟨hat, hhanded, hsame⟩ := decided_facts (s := s) (i := .cardCheck card (.reader d))
        (u := (s.taking (.cardCheck card (.reader d))).join .cardTableFull) (.deny .unknown) rfl rfl rfl hx
      exact ⟨_, cardCheck_begins hready hnone hstation (hask _), hat, hset, hhanded, hsame, by simp⟩
    · exact ⟨_, cardCheck_begins hready hnone hstation (hask _), hset, rfl, by simp [denyPlace_terminal]⟩

end Sys2Proof.Machine
end


section
/-! How the waiters of a query end (R64 to R66): each place is told, in a state that differs in nothing the check reads. -/

namespace Sys2Proof.Machine

/-! ### The end of one waiter -/

/-- How every waiter of a query ends: denied, or checked with this record. -/
inductive Ending where
  | denied (why : DenyReason)
  | checked (r : CardRecord)

/-- The waiter at `p` ends in the state `w`; the stamp of its record is `k`. -/
def State.ending (w : State) (p : Place) (k : Word) : Ending → State
  | .denied why => w.denyPlace p why
  | .checked r => w.check p (some { r with stamp := k }) id

/-- What the waiter at dock `d` has then been told. -/
def Ending.toldAt (e : Ending) (s t : State) (d : DockNo) (x : DockRecord) : Prop :=
  match e with
  | .denied why => t.dock? d = some (decidedAt x (.deny why))
  | .checked r => ReaderResolved s t d x r

/-- From `s` to `t` nothing changed that a check reads, and the work in flight has grown. -/
structure Waits (s t : State) : Prop where
  store : t.store = s.store
  release : t.release = s.release
  lost : t.host.lost = s.host.lost
  work : ∃ l, t.inFlight = s.inFlight ++ l

theorem Waits.refl (s : State) : Waits s s := ⟨rfl, rfl, rfl, [], (List.append_nil _).symm⟩

theorem Waits.trans {s t u : State} (h : Waits s t) (k : Waits t u) : Waits s u := by
  obtain ⟨l, hl⟩ := h.work
  obtain ⟨m, hm⟩ := k.work
  exact ⟨k.store.trans h.store, k.release.trans h.release, k.lost.trans h.lost, l ++ m, by rw [hm, hl, List.append_assoc]⟩

theorem tapRefusal_congr {s t : State} {x : DockRecord} {r : CardRecord} (h : Waits s t) (k : Word) :
    tapRefusal t x { r with stamp := k } = tapRefusal s x r := by
  simp only [tapRefusal, checkRefusal, isExpired, h.store, h.release, h.lost]
  rfl

/-- A check that has its record does not ask what an absent one would bring. -/
theorem check_some (s : State) (p : Place) (r : CardRecord) (f g : State → State) : s.check p (some r) f = s.check p (some r) g := by
  unfold State.check
  cases p with
  | reader d =>
    rw [lookup_reader]
    split_ifs <;> rfl
  | terminal x attempt =>
    rw [lookup_terminal]
    split_ifs <;> rfl

/-- From `s` to `t` the place `p` alone has been told: work has been handed on, or the record of its own dock is changed. -/
structure Tells (p : Place) (s t : State) : Prop where
  only : Only [.dock, .inFlight] s t
  work : ∃ l, t.inFlight = s.inFlight ++ l
  others : ∀ d, p ≠ .reader d → t.dock? d = s.dock? d

theorem Tells.waits {p : Place} {s t : State} (h : Tells p s t) : Waits s t :=
  ⟨h.only .store (by decide), h.only .release (by decide), congrArg HostLink.lost (h.only .host (by decide)), h.work⟩

theorem tells_refl (p : Place) (s : State) : Tells p s s := ⟨by simp, ⟨[], (List.append_nil _).symm⟩, fun _ _ => rfl⟩

theorem tells_post (p : Place) (s : State) (i : Instr) : Tells p s (s.post i) := ⟨by simp, ⟨[i], rfl⟩, fun _ _ => rfl⟩

theorem tells_denyPlace (p : Place) (s : State) (why : DenyReason) : Tells p s (s.denyPlace p why) := by
  cases p with
  | terminal x attempt => exact tells_post _ s _
  | reader f =>
    refine ⟨by simp, ⟨[], (List.append_nil _).symm⟩, fun d hd => ?_⟩
    exact (acts_readerDecided s f (.deny why)).oth.2 d fun h => hd (by rw [h])

theorem tells_passService (p : Place) (s : State) (r : CardRecord) : Tells p s (s.passService r p) := by
  cases p with
  | terminal x attempt => exact tells_denyPlace _ s _
  | reader d =>
    unfold State.passService
    dsimp only
    split
    · exact tells_refl _ s
    · split
      · exact tells_post _ s _
      · split
        · exact tells_post _ s _
        · exact tells_denyPlace _ s _

theorem tells_finishCheck (p : Place) (s : State) (r : CardRecord) : Tells p s (s.finishCheck r p) := by
  unfold State.finishCheck State.passTap
  split
  · exact tells_denyPlace p s _
  · split
    · cases p <;> exact tells_post _ s _
    · cases p <;> exact tells_post _ s _
    · exact tells_post p s _
    · exact tells_passService p s r

theorem tells_check (p : Place) (s : State) (r : CardRecord) (f : State → State) : Tells p s (s.check p (some r) f) := by
  rw [check_some s p r f id]
  unfold State.check
  split
  · exact tells_denyPlace p s _
  · exact tells_finishCheck p s _
  · exact tells_refl p s

theorem tells_ending (p : Place) (w : State) (k : Word) (e : Ending) : Tells p w (w.ending p k e) := by
  cases e with
  | denied why => exact tells_denyPlace p w why
  | checked r => exact tells_check p w _ id

/-! ### The waiter at a dock reader -/

theorem toldAt_of_same {e : Ending} {s t u : State} {d : DockNo} {x : DockRecord} (h : e.toldAt s t d x) (hdock : u.dock? d = t.dock? d)
    (hwork : ∃ l, u.inFlight = t.inFlight ++ l) : e.toldAt s u d x := by
  obtain ⟨l, hl⟩ := hwork
  cases e with
  | denied why => exact hdock.trans h
  | checked r =>
    unfold Ending.toldAt ReaderResolved at *
    dsimp only at *
    split at h
    case h_1 why hwhy => exact hdock.trans h
    case h_2 hnone =>
      obtain ⟨hat, hmem⟩ := h
      rw [hdock, hl]
      exact ⟨hat, List.mem_append_left l hmem⟩

/-- The dock is untouched, or its reader has been told already. -/
def Ending.open (e : Ending) (s u : State) (d : DockNo) (x : DockRecord) : Prop := u.dock? d = some x ∨ e.toldAt s u d x

/-- However often it is told, the waiter at this dock has been told the same. -/
theorem ending_told {e : Ending} {s w : State} {d : DockNo} {x : DockRecord} (k : Word) (hw : Waits s w) (h : e.open s w d x) :
    e.toldAt s (w.ending (.reader d) k e) d x := by
  cases e with
  | denied why =>
    rcases h with hx | htold
    · exact dock?_readerDecided _ hx
    · exact dock?_readerDecided (r := decidedAt x (.deny why)) (.deny why) htold
  | checked r =>
    have hrefusal := tapRefusal_congr (x := x) (r := r) hw k
    unfold Ending.open Ending.toldAt ReaderResolved at *
    dsimp only at *
    rcases Option.eq_none_or_eq_some (tapRefusal s x r) with hpass | ⟨why, hwhy⟩
    · rw [hpass] at h ⊢
      have hx : w.dock? d = some x := h.elim id And.left
      have hending : w.ending (.reader d) k (.checked r) = w.post (tapHandedOn d x r) := by
        rw [State.ending, check_reader id hx, hrefusal, hpass]
        rfl
      rw [hending]
      exact ⟨hx, List.mem_append_right _ (List.mem_singleton.mpr rfl)⟩
    · rw [hwhy] at h ⊢
      have hat : ∃ y, w.dock? d = some y ∧ tapRefusal w y { r with stamp := k } = some why
          ∧ decidedAt y (.deny why) = decidedAt x (.deny why) := by
        rcases h with hx | htold
        · exact ⟨x, hx, hrefusal.trans hwhy, rfl⟩
        · exact ⟨_, htold, (tapRefusal_congr (x := decidedAt x (.deny why)) (r := r) hw k).trans hwhy, rfl⟩
      obtain ⟨y, hy, hrefused, hsame⟩ := hat
      have hending : w.ending (.reader d) k (.checked r) = w.denyPlace (.reader d) why := by
        rw [State.ending, check_reader id hy, hrefused]
      rw [hending, denyPlace_reader, dock?_readerDecided _ hy, hsame]

/-! ### All the waiters -/

/-- What the resolution of one waiter does, whatever the waiters before it have brought: it ends as `e` says, in a state in which `J`
holds, and leaves `K` for the next. -/
structure Resolves (s : State) (card : CardId) (own : Option CardRecord) (e : Ending) (K J : State → Prop) : Prop where
  step : ∀ u p, Waits s u → K u → ∃ w k, Waits u w ∧ w.dock = u.dock ∧ K w ∧ J w ∧ u.resolveWaiter card own p = w.ending p k e
  keeps : ∀ w t, Only [.dock, .inFlight] w t → (K w → K t) ∧ (J w → J t)

section
variable {s : State} {card : CardId} {own : Option CardRecord} {e : Ending} {K J : State → Prop}

/-- One waiter after the other: the one at this dock is told, and the others do not disturb it. -/
theorem resolves_fold (h : Resolves s card own e K J) {d : DockNo} {x : DockRecord} (l : List Place) : ∀ u, Waits s u → K u →
    Waits s (l.foldl (fun s p => s.resolveWaiter card own p) u) ∧ K (l.foldl (fun s p => s.resolveWaiter card own p) u)
    ∧ (l ≠ [] ∨ J u → J (l.foldl (fun s p => s.resolveWaiter card own p) u))
    ∧ (e.open s u d x → .reader d ∈ l ∨ e.toldAt s u d x → e.toldAt s (l.foldl (fun s p => s.resolveWaiter card own p) u) d x)
    ∧ (.reader d ∉ l → (l.foldl (fun s p => s.resolveWaiter card own p) u).dock? d = u.dock? d) := by
  induction l with
  | nil => exact fun u hu hK => ⟨hu, hK, fun hJ => hJ.resolve_left fun h => h rfl, fun _ htold => htold.resolve_left List.not_mem_nil,
      fun _ => rfl⟩
  | cons p l ih =>
    intro u hu hK
    obtain ⟨w, k, huw, hdock, hKw, hJw, hstep⟩ := h.step u p hu hK
    have htells := tells_ending p w k e
    obtain ⟨hkeepK, hkeepJ⟩ := h.keeps w _ htells.only
    have hwaits : Waits s (w.ending p k e) := (hu.trans huw).trans htells.waits
    obtain ⟨hwaits', hK', hJ', htold', hout'⟩ := ih (w.ending p k e) hwaits (hkeepK hKw)
    rw [List.foldl_cons, hstep]
    have hsame : w.dock? d = u.dock? d := dock?_of_dock hdock d
    have hother : p ≠ .reader d → (w.ending p k e).dock? d = u.dock? d := fun hp => (htells.others d hp).trans hsame
    refine ⟨hwaits', hK', fun _ => hJ' (.inr (hkeepJ hJw)), fun hopen hmem => ?_, fun hnot => ?_⟩
    · have hopenw : e.open s w d x := by
        rcases hopen with hx | htold
        · exact .inl (hsame.trans hx)
        · exact .inr (toldAt_of_same htold hsame huw.work)
      by_cases hp : p = .reader d
      case pos =>
        subst hp
        have htold := ending_told k (hu.trans huw) hopenw
        exact htold' (.inr htold) (.inr htold)
      case neg =>
        have hkept : e.toldAt s w d x → e.toldAt s (w.ending p k e) d x := fun ht => toldAt_of_same ht (htells.others d hp) htells.work
        refine htold' (hopenw.imp (fun hx => (htells.others d hp).trans hx) hkept) ?_
        rcases hmem with hin | htold
        · exact .inl ((List.mem_cons.mp hin).resolve_left fun heq => hp heq.symm)
        · exact .inr (hkept (toldAt_of_same htold hsame huw.work))
    · rw [hout' fun hin => hnot (List.mem_cons_of_mem p hin)]
      exact hother fun heq => hnot (heq ▸ List.mem_cons_self)

end

end Sys2Proof.Machine
end


section
/-! What the end of a query brings its waiters: with a record, with none, by the unknown-card rule (R64 to R66, R68). -/

namespace Sys2Proof.Machine

theorem check_closed {s : State} {p : Place} (rec? : Option CardRecord) (f : State → State) (h : s.store.station ≠ .serving) :
    s.check p rec? f = s.denyPlace p .outOfService := by
  unfold State.check State.lookup
  rw [if_pos h]

theorem resolveWaiter_none (u : State) (card : CardId) (p : Place) :
    u.resolveWaiter card none p = u.check p (u.cardRecord card) (·.unknownCard card p) := rfl

section
variable {s : State} {u₀ : State} {card : CardId} {own : Option CardRecord}

/-- The Card Unit stands as it stood when the query ended. -/
def CardStands (u₀ u : State) : Prop := u.card = u₀.card

theorem cardStands_keeps {w t : State} (h : Only [.dock, .inFlight] w t) (hw : CardStands u₀ w) : CardStands u₀ t :=
  Eq.trans (h .card (by decide)) hw

theorem recordFor_congr {u : State} (h : CardStands u₀ u) : u.recordFor card own = u₀.recordFor card own := by
  unfold State.recordFor State.cardRecord
  rw [show u.card = u₀.card from h]

theorem cardRecord_congr {u : State} (h : CardStands u₀ u) : u.cardRecord card = u₀.cardRecord card := by
  unfold State.cardRecord
  rw [show u.card = u₀.card from h]

/-- With its record, every waiter is checked. -/
theorem resolves_known {r : CardRecord} {k : Word} (h : u₀.recordFor card own = some { r with stamp := k }) :
    Resolves s card own (.checked r) (CardStands u₀) fun _ => True where
  step u p _ hK := by
    refine ⟨u, k, .refl u, rfl, hK, trivial, ?_⟩
    unfold State.resolveWaiter
    rw [recordFor_congr hK, h]
    exact check_some u p _ _ _
  keeps _ _ honly := ⟨cardStands_keeps honly, id⟩

/-- Out of service, every waiter is denied. -/
theorem resolves_closed (h : s.store.station ≠ .serving) :
    Resolves s card own (.denied .outOfService) (CardStands u₀) fun _ => True where
  step u p hu hK := ⟨u, 0, .refl u, rfl, hK, trivial, check_closed _ _ (by rw [hu.store]; exact h)⟩
  keeps _ _ honly := ⟨cardStands_keeps honly, id⟩

/-- A card that may not be admitted is denied UNKNOWN. -/
theorem resolves_denied (hnone : u₀.cardRecord card = none) (hstation : s.store.station = .serving)
    (hrule : s.store.live.unknownCard = .deny ∨ card.msb = true) :
    Resolves s card none (.denied .unknown) (CardStands u₀) fun _ => True where
  step u p hu hK := by
    refine ⟨u, 0, .refl u, rfl, hK, trivial, ?_⟩
    rw [resolveWaiter_none, cardRecord_congr hK, hnone, check_absent _ (by rw [hu.store]; exact hstation),
      unknownCard_denied (by rw [hu.store]; exact hrule)]
    rfl
  keeps _ _ honly := ⟨cardStands_keeps honly, id⟩

/-- With no room to be made, the card is denied UNKNOWN, and the host is told. -/
theorem resolves_full (hnone : u₀.cardRecord card = none) (hstation : s.store.station = .serving)
    (hrule : s.store.live.unknownCard = .provisional) (hmsb : card.msb = false)
    (hfull : s.store.layout.journalBase ≤ u₀.card.table.length) (hexpired : u₀.card.table.filter (isExpired s) = []) :
    Resolves s card none (.denied .unknown) (CardStands u₀) fun u => NoticeKind.cardTableFull.inSet u.host.noticeSet = true where
  step u p hu hK := by
    have hcard : u.card = u₀.card := hK
    have hexpired' : expiredCards u = [] := by
      unfold expiredCards isExpired
      rw [hcard, hu.store]
      exact hexpired
    refine ⟨u.join .cardTableFull, 0, ⟨rfl, rfl, join_lost _ _, [], (List.append_nil _).symm⟩, rfl, hK, ?_, ?_⟩
    · rw [join_host, join_noticeSet]
      exact inSet_or _ _
    · rw [resolveWaiter_none, cardRecord_congr hK, hnone, check_absent _ (by rw [hu.store]; exact hstation),
        unknownCard_full (by rw [hu.store]; exact hrule) hmsb ((cardRecord_congr hK).trans hnone) (by rw [hu.store, hcard]; exact hfull) hexpired']
      rfl
  keeps w t honly := by
    refine ⟨cardStands_keeps honly, fun hset => ?_⟩
    rw [show t.host = w.host from honly .host (by decide)]
    exact hset

/-- The provisional record: not yet there, or installed for a waiter before. -/
def Admitting (u₀ : State) (card : CardId) (u : State) : Prop :=
  CardStands u₀ u ∨ ∃ k, u.cardRecord card = some { admitted card with stamp := k }

theorem exists_placed {u : State} {r : CardRecord} (h : hasSlot u r ∨ expiredCards u ≠ []) : ∃ c, Placed u r (expiredCards u) c := by
  by_cases hroom : hasSlot u r
  case pos => exact ⟨_, .inl ⟨hroom, rfl⟩⟩
  case neg =>
    have hsome := h.resolve_left hroom
    rcases Option.eq_none_or_eq_some (firstLargest (behind u) (expiredCards u)) with hnone | ⟨old, hold⟩
    · exact absurd ((firstLargest_eq_none _ _).mp hnone) hsome
    · exact ⟨_, .inr ⟨hroom, old, firstLargest_split hold, rfl⟩⟩

/-- With room, the card is admitted for the first waiter, and its record is there for the others. -/
theorem resolves_admitted (hnone : u₀.cardRecord card = none) (hstation : s.store.station = .serving)
    (hrule : s.store.live.unknownCard = .provisional) (hmsb : card.msb = false)
    (hroom : u₀.card.table.length < s.store.layout.journalBase ∨ u₀.card.table.filter (isExpired s) ≠ []) :
    Resolves s card none (.checked (admitted card)) (Admitting u₀ card) fun _ => True where
  step u p hu hK := by
    rcases hK with hK | ⟨k, hk⟩
    case inr =>
      refine ⟨u, k, .refl u, rfl, .inr ⟨k, hk⟩, trivial, ?_⟩
      rw [resolveWaiter_none, hk]
      exact check_some u p _ _ _
    case inl =>
      have hcard : u.card = u₀.card := hK
      have hplaced : ∃ c, Placed u (admitted card) (expiredCards u) c := by
        refine exists_placed (hroom.imp (fun hlt => ?_) fun hsome => ?_)
        · refine .inr ?_
          rw [hcard, hu.store]
          exact hlt
        · unfold expiredCards isExpired
          rw [hcard, hu.store]
          exact hsome
      obtain ⟨c, hc⟩ := hplaced
      have hrecord : (u.onCards fun _ => c).cardRecord card = some { admitted card with stamp := u.card.installCounter } :=
        cardRecord_placed hc
      refine ⟨u.onCards fun _ => c, 0, ⟨rfl, rfl, rfl, [], (List.append_nil _).symm⟩, rfl, .inr ⟨_, hrecord⟩, trivial, ?_⟩
      rw [resolveWaiter_none, cardRecord_congr hK, hnone, check_absent _ (by rw [hu.store]; exact hstation),
        unknownCard_placed (by rw [hu.store]; exact hrule) hmsb (by rw [hu.store]; exact hstation) hc]
      rfl
  keeps w t honly := by
    refine ⟨fun h => h.imp (cardStands_keeps honly) ?_, id⟩
    rintro ⟨k, hk⟩
    refine ⟨k, ?_⟩
    unfold State.cardRecord at *
    rw [show t.card = w.card from honly .card (by decide)]
    exact hk

/-! ### A query that ends -/

/-- With a record for its card, the waiter at the reader is checked with it, and the Card Unit stands. -/
theorem resolveQuery_known {q : Query} {r : CardRecord} {k : Word} {d : DockNo} {x : DockRecord} (hu : Waits s u₀)
    (hrecord : u₀.recordFor q.card own = some { r with stamp := k }) :
    (u₀.resolveQuery q own).card = u₀.card
      ∧ (.reader d ∈ q.waiters → u₀.dock? d = some x → ReaderResolved s (u₀.resolveQuery q own) d x r) := by
  obtain ⟨-, hcard, -, htold, -⟩ := resolves_fold (resolves_known (s := s) hrecord) (d := d) (x := x) q.waiters u₀ hu rfl
  exact ⟨hcard, fun hmem hx => htold (.inl hx) (.inl hmem)⟩

/-- A query that ends without a verdict: what the waiter at this reader is told. -/
theorem resolveQuery_without {q : Query} {d : DockNo} {x : DockRecord} (hu : Waits s u₀) (htable : u₀.card.table = s.card.table)
    (hx : u₀.dock? d = some x) (hmem : .reader d ∈ q.waiters) : ReaderEndsWithout s (u₀.resolveQuery q none) d x q.card := by
  have hrecord : u₀.cardRecord q.card = s.cardRecord q.card := by
    unfold State.cardRecord
    rw [htable]
  have hlist : q.waiters ≠ [] := List.ne_nil_of_mem hmem
  refine ⟨fun r hr => ?_, fun hnone hstation => ?_, fun hnone hstation hrule => ?_, fun hnone hstation hrule hmsb =>
    ⟨fun hroom => ?_, fun hfull hexpired => ?_⟩⟩
  · exact (resolveQuery_known (own := none) (r := r) (k := r.stamp) hu (hrecord.trans hr)).2 hmem hx
  · obtain ⟨-, -, -, htold, -⟩ := resolves_fold (resolves_closed (s := s) hstation) (d := d) (x := x) q.waiters u₀ hu rfl
    exact htold (.inl hx) (.inl hmem)
  · obtain ⟨-, -, -, htold, -⟩ := resolves_fold (resolves_denied (hrecord.trans hnone) hstation hrule) (d := d) (x := x) q.waiters u₀ hu rfl
    exact htold (.inl hx) (.inl hmem)
  · rw [← htable, expiredCards, ← htable] at hroom
    obtain ⟨-, -, -, htold, -⟩ := resolves_fold (resolves_admitted (hrecord.trans hnone) hstation hrule hmsb hroom) (d := d) (x := x)
      q.waiters u₀ hu (.inl rfl)
    exact htold (.inl hx) (.inl hmem)
  · rw [← htable] at hfull
    rw [expiredCards, ← htable] at hexpired
    obtain ⟨-, -, hset, htold, -⟩ := resolves_fold (resolves_full (hrecord.trans hnone) hstation hrule hmsb hfull hexpired) (d := d) (x := x)
      q.waiters u₀ hu rfl
    exact ⟨htold (.inl hx) (.inl hmem), hset (.inl hlist)⟩

/-- Where unknown cards are denied, the end of a query leaves the Card Unit, and every dock that does not wait on it. -/
theorem resolveQuery_aside_deny {q : Query} {d : DockNo} (hu : Waits s u₀) (hrule : s.store.live.unknownCard = .deny) :
    Waits s (u₀.resolveQuery q none) ∧ (u₀.resolveQuery q none).card = u₀.card
      ∧ (.reader d ∉ q.waiters → (u₀.resolveQuery q none).dock? d = u₀.dock? d) := by
  have hends : ∀ e : Ending, Resolves s q.card none e (CardStands u₀) (fun _ => True) →
      Waits s (u₀.resolveQuery q none) ∧ (u₀.resolveQuery q none).card = u₀.card
        ∧ (.reader d ∉ q.waiters → (u₀.resolveQuery q none).dock? d = u₀.dock? d) := fun e h => by
    obtain ⟨hwaits, hcard, -, -, hout⟩ := resolves_fold h (d := d) (x := {}) q.waiters u₀ hu rfl
    exact ⟨hwaits, hcard, hout⟩
  by_cases hstation : s.store.station = .serving
  case neg => exact hends _ (resolves_closed hstation)
  case pos =>
    rcases Option.eq_none_or_eq_some (u₀.cardRecord q.card) with hnone | ⟨r, hr⟩
    · exact hends _ (resolves_denied hnone hstation (.inl hrule))
    · exact hends _ (resolves_known (k := r.stamp) hr)

/-- What was told stays told while the dock stands, work is handed on and notices join. -/
theorem readerEndsWithout_grows {t t' : State} {d : DockNo} {x : DockRecord} (h : ReaderEndsWithout s t d x card)
    (hdock : t'.dock? d = t.dock? d) (hwork : ∃ l, t'.inFlight = t.inFlight ++ l)
    (hset : NoticeKind.cardTableFull.inSet t.host.noticeSet = true → NoticeKind.cardTableFull.inSet t'.host.noticeSet = true) :
    ReaderEndsWithout s t' d x card := by
  have hresolved : ∀ r, ReaderResolved s t d x r → ReaderResolved s t' d x r := fun r hr =>
    toldAt_of_same (e := .checked r) hr hdock hwork
  obtain ⟨hfound, hclosed, hdenied, hadmitted⟩ := h
  refine ⟨fun r hr => hresolved r (hfound r hr), fun hnone hstation => hdock.trans (hclosed hnone hstation),
    fun hnone hstation hrule => hdock.trans (hdenied hnone hstation hrule), fun hnone hstation hrule hmsb => ?_⟩
  obtain ⟨hroom, hfull⟩ := hadmitted hnone hstation hrule hmsb
  refine ⟨fun hr => hresolved _ (hroom hr), fun hlen hexpired => ?_⟩
  obtain ⟨hat, hin⟩ := hfull hlen hexpired
  exact ⟨hdock.trans hat, hset hin⟩

end

end Sys2Proof.Machine
end


section
/-! Verdicts, the deadline of a query, and the loss of the link (R64, R66, R68, R69). -/

namespace Sys2Proof.Machine

/-! ### The query of a tag -/

section
variable {s : State} {q : Query}

theorem find_tag (hkept : (s.card.queries.map (·.tag)).Nodup) (hq : q ∈ s.card.queries) {p : Query → Bool}
    (hp : p q = true) (htag : ∀ y, p y = true → y.tag = q.tag) : s.card.queries.find? p = some q := by
  rcases Option.eq_none_or_eq_some (s.card.queries.find? p) with hnone | ⟨y, hy⟩
  · rw [List.find?_eq_none] at hnone
    exact absurd hp (hnone q hq)
  · rw [hy, List.inj_on_of_nodup_map hkept (List.mem_of_find?_eq_some hy) hq (htag y (List.find?_some hy))]

theorem find_tag_none {tag : Byte} (h : ∀ q ∈ s.card.queries, q.tag ≠ tag) : s.card.queries.find? (fun q => q.tag == tag) = none := by
  rw [List.find?_eq_none]
  exact fun y hy htag => h y hy (by simpa using htag)

/-- A query that has left the list. -/
theorem removeQuery_waits (s : State) (tag : Byte) : Waits s (s.removeQuery tag) := ⟨rfl, rfl, rfl, [], (List.append_nil _).symm⟩

theorem resolveQuery_queries (u : State) (q : Query) (own : Option CardRecord) :
    (u.resolveQuery q own).card.queries = u.card.queries := (resolveQuery_aside u q own).1

end

/-! ### Verdicts -/

theorem verdict_card {v : Operands.Verdict} {r : CardRecord} (h : v.record = .ok (some r)) : r.card = v.card := by
  unfold Operands.Verdict.record at h
  split at h
  · cases h
  · split at h
    next hcard =>
      cases h
      exact hcard
    · cases h
  · cases h
    rfl
  · cases h

theorem verdictHead_zero {b : List Byte} (h : wordAt b 1 = 0) : Operands.verdictHead b = .error .badField := by
  unfold Operands.verdictHead Operands.demand
  rw [h]
  split <;> rfl

/-- The record of a verdict has its room. -/
def VerdictFits (s : State) (rec : Option CardRecord) : Prop := ∀ r, rec = some r → hasSlot s r

theorem installVerdict_none (s : State) : s.installVerdict none = (s, none) := rfl

theorem installVerdict_fits {s : State} {r : CardRecord} (h : hasSlot s r) : s.installVerdict (some r) = (s.install r, none) := by
  unfold State.installVerdict
  dsimp only
  rw [if_pos ((hasRoom_iff s r).mpr h)]

theorem installVerdict_full {s : State} {r : CardRecord} (h : ¬ hasSlot s r) : s.installVerdict (some r) = (s, some r) := by
  unfold State.installVerdict
  dsimp only
  rw [if_neg (mt (hasRoom_iff s r).mp h)]

section
variable {s : State} {tag : Byte} {body : List Byte} {v : Operands.Verdict} {rec : Option CardRecord}

/-- A verdict for a query in the list. -/
theorem exec_verdictFor {q : Query} (hready : s.ready) (hbody : Operands.cardVerdict body = .ok v) (hrec : v.record = .ok rec)
    (hkept : s.queriesKept) (hq : q ∈ s.card.queries) (htag : q.tag = v.queryTag) (hcard : q.card = v.card) :
    exec (.cardVerdict tag body) s =
      .next (((s.taking (.cardVerdict tag body)).verdictFor tag q rec).onHost HostLink.beginSending) := by
  obtain ⟨-, -, htags, -⟩ := hkept
  have hfound : (s.taking (.cardVerdict tag body)).card.queries.find? (fun q => q.tag == v.queryTag) = some q :=
    find_tag (s := s.taking _) htags hq (by simpa using htag) fun y hy => (by simpa using hy : y.tag = v.queryTag).trans htag.symm
  simp only [exec, execCardVerdict]
  rw [request_ok hready.1 hbody, hfound]
  dsimp only
  rw [if_neg (not_not.mpr hcard), hrec]

/-- What a verdict leaves in the state, its reply and the sending aside. -/
theorem verdict_state (w : State) (q : Query) (rec : Option CardRecord) :
    w.verdictFor tag q rec = ((((w.installVerdict rec).1.removeQuery q.tag).resolveQuery q (w.installVerdict rec).2).reply 0x11 tag
      (if (w.installVerdict rec).2.isSome then .tableFull else .ok)) := rfl

theorem resolved_replied {u t : State} {k : Nat} {code : ReplyCode} {p : Payload} {d : DockNo} {x : DockRecord} {r : CardRecord}
    (h : ReaderResolved s u d x r) (ht : t = (u.reply k tag code p).onHost HostLink.beginSending) : ReaderResolved s t d x r := by
  subst ht
  exact toldAt_of_same (e := .checked r) h rfl ⟨[], (List.append_nil _).symm⟩

theorem endsWithout_replied {u t : State} {k : Nat} {code : ReplyCode} {p : Payload} {d : DockNo} {x : DockRecord} {card : CardId}
    (h : ReaderEndsWithout s u d x card) (ht : t = (u.reply k tag code p).onHost HostLink.beginSending) :
    ReaderEndsWithout s t d x card := by
  subst ht
  refine readerEndsWithout_grows h rfl ⟨[], (List.append_nil _).symm⟩ fun hset => ?_
  rw [onHost_host, beginSending_noticeSet]
  exact hset

theorem queries_replied (u : State) (k : Nat) (code : ReplyCode) (p : Payload) :
    ((u.reply k tag code p).onHost HostLink.beginSending).card = u.card := rfl

/-- The three courses of a verdict for a query: NONE, a record that has its room, and one that has none. -/
theorem verdict_ends (q : Query) (w : State) (hcard : ∀ r, rec = some r → r.card = q.card) :
    ∃ u code, (w.verdictFor tag q rec) = u.reply 0x11 tag code
      ∧ u.card.queries = w.card.queries.filter (fun y => y.tag != q.tag)
      ∧ (∀ r, rec = some r → VerdictFits w rec → u.card = { installed w r with queries := u.card.queries })
      ∧ (VerdictFits w rec → code = .ok) ∧ (¬ VerdictFits w rec → code = .tableFull ∧ u.card = { w.card with queries := u.card.queries })
      ∧ ∀ d x, .reader d ∈ q.waiters → w.dock? d = some x →
          (∀ r, rec = some r → ReaderResolved w u d x r) ∧ (rec = none → ReaderEndsWithout w u d x q.card) := by
  cases rec with
  | none =>
    have hfits : VerdictFits w none := fun _ hr => nomatch hr
    refine ⟨(w.removeQuery q.tag).resolveQuery q none, .ok, rfl, resolveQuery_queries _ q none, (fun _ hr => nomatch hr),
      fun _ => rfl, fun hnot => absurd hfits hnot, fun d x hmem hx => ⟨(fun _ hr => nomatch hr), fun _ => ?_⟩⟩
    exact resolveQuery_without (removeQuery_waits w q.tag) rfl hx hmem
  | some r =>
    have hfits : VerdictFits w (some r) ↔ hasSlot w r := ⟨fun h => h r rfl, fun h r' hr' => by cases hr'; exact h⟩
    by_cases hroom : hasSlot w r
    case pos =>
      let u₀ := (w.install r).removeQuery q.tag
      have hwaits : Waits w u₀ := ⟨rfl, rfl, rfl, [], (List.append_nil _).symm⟩
      have hrecord : u₀.recordFor q.card none = some { r with stamp := w.card.installCounter } := by
        rw [← hcard r rfl]
        exact cardRecord_installed (s := w) (w.install r) (by rw [install_eq])
      have hcardIs : u₀.card = { installed w r with queries := w.card.queries.filter fun y => y.tag != q.tag } := by
        simp only [u₀, install_eq]
        rfl
      refine ⟨u₀.resolveQuery q none, .ok, ?_, resolveQuery_queries _ q none, fun r' hr' _ => ?_, fun _ => rfl,
        fun hnot => absurd (hfits.mpr hroom) hnot, fun d x hmem hx => ⟨fun r' hr' => ?_, fun hnone => nomatch hnone⟩⟩
      · rw [verdict_state, installVerdict_fits hroom]
        rfl
      · cases hr'
        rw [resolveQuery_queries, (resolveQuery_known (d := 0) (x := {}) hwaits hrecord).1, hcardIs]
      · cases hr'
        exact (resolveQuery_known hwaits hrecord).2 hmem hx
    case neg =>
      have hwaits := removeQuery_waits w q.tag
      have hrecord : (w.removeQuery q.tag).recordFor q.card (some r) = some { r with stamp := r.stamp } := rfl
      refine ⟨(w.removeQuery q.tag).resolveQuery q (some r), .tableFull, ?_, resolveQuery_queries _ q _,
        fun r' hr' h => absurd (hfits.mp h) hroom, fun h => absurd (hfits.mp h) hroom, fun _ => ⟨rfl, ?_⟩,
        fun d x hmem hx => ⟨fun r' hr' => ?_, fun hnone => nomatch hnone⟩⟩
      · rw [verdict_state, installVerdict_full hroom]
        rfl
      · rw [resolveQuery_queries, (resolveQuery_known (d := 0) (x := {}) hwaits hrecord).1]
        rfl
      · cases hr'
        exact (resolveQuery_known hwaits hrecord).2 hmem hx

end

/-! ### The silence of the link (R66, R197) -/

section
variable {s : State} {u₀ : State}

/-- Where unknown cards are denied, the queries that a dock does not wait on leave it. -/
theorem endQueries_aside_deny (l : List Query) {d : DockNo} (hrule : s.store.live.unknownCard = .deny)
    (hnot : ∀ y ∈ l, .reader d ∉ y.waiters) : ∀ u, Waits s u →
    Waits s (l.foldl (fun s q => s.resolveQuery q none) u) ∧ (l.foldl (fun s q => s.resolveQuery q none) u).card = u.card
      ∧ (l.foldl (fun s q => s.resolveQuery q none) u).dock? d = u.dock? d := by
  induction l with
  | nil => exact fun u hu => ⟨hu, rfl, rfl⟩
  | cons y l ih =>
    intro u hu
    obtain ⟨hwaits, hcard, hdock⟩ := resolveQuery_aside_deny (q := y) (d := d) hu hrule
    obtain ⟨hwaits', hcard', hdock'⟩ := ih (fun z hz => hnot z (List.mem_cons_of_mem y hz)) _ hwaits
    exact ⟨hwaits', hcard'.trans hcard, hdock'.trans (hdock (hnot y List.mem_cons_self))⟩

/-- Of the queries that end together, the one that this dock alone waits on. -/
theorem endQueries_told {q : Query} {l : List Query} {d : DockNo} {x : DockRecord} (hu : Waits s u₀)
    (htable : u₀.card.table = s.card.table) (hx : u₀.dock? d = some x) (hq : q ∈ l) (hmem : .reader d ∈ q.waiters)
    (h : l = [q] ∨ (s.store.live.unknownCard = .deny ∧ l.Nodup ∧ ∀ y ∈ l, .reader d ∈ y.waiters → y = q)) :
    ReaderEndsWithout s (l.foldl (fun s q => s.resolveQuery q none) u₀) d x q.card := by
  rcases h with rfl | ⟨hrule, hnodup, halone⟩
  · exact resolveQuery_without hu htable hx hmem
  · obtain ⟨before, after, rfl⟩ := List.append_of_mem hq
    obtain ⟨-, hrest, hdisjoint⟩ := List.nodup_append.mp hnodup
    have hbefore : ∀ y ∈ before, .reader d ∉ y.waiters := fun y hy hwait =>
      hdisjoint y hy q List.mem_cons_self (halone y (List.mem_append_left _ hy) hwait)
    have hafter : ∀ y ∈ after, .reader d ∉ y.waiters := fun y hy hwait => by
      have heq := halone y (List.mem_append_right _ (List.mem_cons_of_mem q hy)) hwait
      exact (List.nodup_cons.mp hrest).1 (heq ▸ hy)
    obtain ⟨hwaits, hcard, hdock⟩ := endQueries_aside_deny before hrule hbefore u₀ hu
    have htold := resolveQuery_without (q := q) (d := d) (x := x) hwaits (by rw [hcard]; exact htable) (hdock.trans hx) hmem
    obtain ⟨hwaitsq, -, -⟩ := resolveQuery_aside_deny (q := q) (d := d) hwaits hrule
    rw [List.foldl_append, List.foldl_cons]
    generalize (before.foldl (fun s q => s.resolveQuery q none) u₀).resolveQuery q none = v at htold hwaitsq
    obtain ⟨hwaitsv, -, hdockv⟩ := endQueries_aside_deny (s := v) after (by rw [hwaitsq.store]; exact hrule) hafter v (.refl v)
    obtain ⟨-, -, -, -, hset⟩ := foldl_aside (fun (s : State) q => s.resolveQuery q none) (fun t y => resolveQuery_aside t y none) after v
    exact readerEndsWithout_grows htold hdockv hwaitsv.work (hset .cardTableFull)

/-- What is told in the act stays told when the act ends and hands on its own work. -/
theorem endsWithout_sent {t : State} {d : DockNo} {x : DockRecord} {card : CardId} (h : ReaderEndsWithout s t d x card) (work : List Instr) :
    ReaderEndsWithout s ((t.postAll work).onHost HostLink.beginSending) d x card := by
  refine readerEndsWithout_grows h rfl ⟨work, rfl⟩ fun hset => ?_
  rw [onHost_host, beginSending_noticeSet]
  exact hset

/-- A verdict that finds no query. -/
theorem exec_lateVerdict {tag : Byte} {body : List Byte} {v : Operands.Verdict} {rec : Option CardRecord} {u t : State} {code : ReplyCode}
    (hready : s.ready) (hbody : Operands.cardVerdict body = .ok v) (hrec : v.record = .ok rec)
    (hnone : ∀ q ∈ s.card.queries, q.tag ≠ v.queryTag)
    (hu : (s.taking (.cardVerdict tag body)).lateVerdict tag rec = u.reply 0x11 tag code) (hhost : u.host = s.host)
    (ht : u.reply 0x11 tag code = t) : exec (.cardVerdict tag body) s = .next t := by
  have hfound : (s.taking (.cardVerdict tag body)).card.queries.find? (fun q => q.tag == v.queryTag) = none :=
    find_tag_none (s := s.taking _) hnone
  simp only [exec, execCardVerdict]
  refine request_replies u code .nothing hready hbody ?_ (by rw [hhost]; exact hready.2) ht
  rw [hfound]
  dsimp only
  rw [hrec]
  exact hu

end

/-- Settles O35: verdicts in time and late, the deadline of a query, and the loss of the link. -/
theorem queriesEnd : Obligations.QueriesEnd := by
  refine ⟨fun s tag body v rec hready hbody hrec room hroom => ?verdict, fun s tag queryTag outcome hready htag houtcome => ?zero,
    fun s hready hkept q hq => ?ends⟩
  case verdict =>
    have hfits : room ↔ VerdictFits s rec := by rw [hroom]; exact Iff.rfl
    refine ⟨fun q hq hqtag hqcard hkept => ?_, fun hnone hr => ?_, fun hnone hr => ?_, fun q hq hqtag hqcard hkept => ?_⟩
    · have hexec := exec_verdictFor (tag := tag) hready hbody hrec hkept hq hqtag hqcard
      obtain ⟨u, code, hu, hqueries, hinstalled, hok, hfull, hreaders⟩ := verdict_ends (tag := tag) (rec := rec) q
        (s.taking (.cardVerdict tag body)) fun r hr => (verdict_card (hr ▸ hrec)).trans hqcard.symm
      rw [hu] at hexec
      refine ⟨_, hexec, hqueries, fun r hr h => hinstalled r hr (hfits.mp h), fun h => ?_, fun h => ?_, fun d x hmem hx => ?_,
        (exec_only _ _ _ hexec).mono (by simp [parts])⟩
      · obtain ⟨hcode, hcard⟩ := hfull (mt hfits.mpr h)
        refine ⟨hcard, ?_⟩
        rw [hcode]
        exact reply_answered _ _ _ _ _
      · rw [hok (hfits.mp h)]
        exact reply_answered _ _ _ _ _
      · obtain ⟨hresolved, hwithout⟩ := hreaders d x hmem hx
        exact ⟨fun r hr => resolved_replied (hresolved r hr) rfl, fun h => endsWithout_replied (hwithout h) rfl⟩
    · cases hcase : rec with
      | none => exact exec_lateVerdict (u := s.taking _) hready hbody (hcase ▸ hrec) hnone rfl rfl rfl
      | some r =>
        have hslot : hasSlot (s.taking (.cardVerdict tag body)) r := hfits.mp hr r hcase
        refine exec_lateVerdict (u := (s.taking (.cardVerdict tag body)).install r) (code := .late) hready hbody (hcase ▸ hrec) hnone ?_ rfl ?_
        · rw [State.lateVerdict, installVerdict_fits hslot]
          rfl
        · rw [install_eq]
          rfl
    · cases hcase : rec with
      | none => exact absurd (hfits.mpr fun r h => nomatch hcase.symm.trans h) hr
      | some r =>
        have hslot : ¬ hasSlot (s.taking (.cardVerdict tag body)) r := fun hslot => hr (hfits.mpr fun r' h => by
          cases hcase.symm.trans h
          exact hslot)
        refine exec_lateVerdict (u := s.taking _) (code := .tableFull) hready hbody (hcase ▸ hrec) hnone ?_ rfl rfl
        rw [State.lateVerdict, installVerdict_full hslot]
        rfl
    · obtain ⟨-, -, htags, -⟩ := hkept
      have hfound : (s.taking (.cardVerdict tag body)).card.queries.find? (fun q => q.tag == v.queryTag) = some q :=
        find_tag (s := s.taking _) htags hq (by simpa using hqtag) fun y hy => (by simpa using hy : y.tag = v.queryTag).trans hqtag.symm
      simp only [exec, execCardVerdict]
      refine request_replies (s.taking _) .mismatch .nothing hready hbody ?_ hready.2 rfl
      rw [hfound]
      exact if_pos hqcard
  case zero =>
    have hrefused : Operands.cardVerdict (queryTag :: bytesWord 0 ++ [outcome]) = .error .badField := by
      rcases houtcome with rfl | rfl
      · exact congrArg (Except.map _) (verdictHead_zero (b := queryTag :: bytesWord 0 ++ [1]) rfl)
      · exact congrArg (Except.map _) (verdictHead_zero (b := queryTag :: bytesWord 0 ++ [2]) rfl)
    simp only [exec, execCardVerdict]
    exact request_refused hready hrefused
  case ends =>
    obtain ⟨-, hcards, htags, -⟩ := hkept
    have hnodup : s.card.queries.Nodup := List.Nodup.of_map _ hcards
    refine ⟨fun hdue => ?_, fun hearly => ?_, fun y hlost hy hle => ?_⟩
    · have hfound : (s.taking (.queryDeadline q.tag)).card.queries.find? (fun y => y.tag == q.tag && y.deadline ≤ s.now) = some q :=
        find_tag (s := s.taking _) htags hq (by simpa using hdue) fun y hy => by
          obtain ⟨htag, -⟩ := (Bool.and_eq_true _ _).mp hy
          simpa using htag
      have hexec : exec (.queryDeadline q.tag) s = .next
          ((((s.taking (.queryDeadline q.tag)).removeQuery q.tag).resolveQuery q none).onHost HostLink.beginSending) := by
        simp only [exec, execQueryDeadline]
        rw [act_running hready.1]
        refine congrArg (fun w : State => Host.Outcome.next (w.onHost HostLink.beginSending)) ?_
        exact (congrArg (fun o : Option Query => match o with
          | none => s.taking (.queryDeadline q.tag)
          | some q' => ((s.taking (.queryDeadline q.tag)).removeQuery q.tag).resolveQuery q' none) hfound :)
      refine ⟨_, hexec, resolveQuery_queries _ q none, fun d x hmem hx => ?_, (exec_only _ _ _ hexec).mono (by simp [parts])⟩
      have htold := resolveQuery_without (removeQuery_waits (s.taking (.queryDeadline q.tag)) q.tag) rfl hx hmem
      have hsent := endsWithout_sent htold []
      rw [postAll_nil] at hsent
      exact hsent
    · have hnone : (s.taking (.queryDeadline q.tag)).card.queries.find? (fun y => y.tag == q.tag && y.deadline ≤ s.now) = none := by
        rw [List.find?_eq_none]
        intro y hy hdue
        obtain ⟨htag, hle⟩ := (Bool.and_eq_true _ _).mp hdue
        have heq : y = q := List.inj_on_of_nodup_map htags hy hq (by simpa using htag)
        exact absurd hearly (Nat.not_lt.mpr (by simpa [heq] using hle))
      refine onlyTaken_of_same hready (by simp only [exec, execQueryDeadline]; rfl) ?_
      exact (congrArg (fun o : Option Query => match o with
        | none => s.taking (.queryDeadline q.tag)
        | some q' => ((s.taking (.queryDeadline q.tag)).removeQuery q.tag).resolveQuery q' none) hnone :)
    · let w := (s.taking .silenceDeadline).onHost fun h => { h with lost := true, deadline := none }
      let u := s.card.queries.foldl (fun s q => s.resolveQuery q none) (w.onCards fun c => { c with queries := [] })
      have hexec : exec .silenceDeadline s = .next ((u.postAll [.dockCapChange (.hostLink true)]).onHost HostLink.beginSending) := by
        simp only [exec, execSilenceDeadline]
        rw [act_running hready.1]
        refine congrArg (fun w : State => Host.Outcome.next (w.onHost HostLink.beginSending)) ?_
        exact if_pos ⟨by simpa [State.taking] using hlost, reached_of_le (s := s.taking .silenceDeadline) hy hle⟩
      refine ⟨_, hexec, fun d x hmem hx halone => ?_⟩
      have htold := endQueries_told (s := w) (u₀ := w.onCards fun c => { c with queries := [] }) (l := s.card.queries) (q := q) (d := d) (x := x)
        ⟨rfl, rfl, rfl, [], (List.append_nil _).symm⟩ rfl hx hq hmem (halone.imp id fun ⟨hrule, hsame⟩ =>
          ⟨hrule, hnodup, fun z hz hwait => List.inj_on_of_nodup_map hcards hz hq (hsame z hz hwait)⟩)
      exact endsWithout_sent htold [.dockCapChange (.hostLink true)]

end Sys2Proof.Machine
end


section
/-! The Fault Unit: holds that change, records that are raised, repeated, lost and resolved (R155 to R160). -/

namespace Sys2Proof.Machine

/-! ### A change of holds (R157, R160) -/

/-- One dock's record after its holds changed: what enters its level is as the change made it, and no other dock is touched. -/
structure HoldsChanged (d : DockNo) (r : DockRecord) (f : DockRecord → DockRecord) (s t : State) : Prop where
  record : ∃ r', t.dock? d = some r' ∧ r'.standing = (f r).standing
  others : OtherDocksSame d s t
  only : Only [.inFlight, .dock, .release] s t

theorem holdsChanged {s : State} {d : DockNo} {r : DockRecord} (f : DockRecord → DockRecord) (hr : s.dock? d = some r) :
    HoldsChanged d r f s (s.changeHolds d f) := by
  have hat : (s.onDock d f).dock? d = some (f r) := by
    rw [dock?_onDock_self, hr]
    rfl
  obtain ⟨r', hr', hstanding⟩ := standing_at (standings_takeLevel (s.onDock d f) d (s.level d)) hat
  have hlength := dockCount_of_standings (standings_takeLevel (s.onDock d f) d (s.level d))
  have hothers : OtherDocksSame d s (s.changeInput d (·.onDock d f)) := ⟨hlength.trans (dockCount_onDock s d f), fun e he =>
    (others_takeLevel (s.onDock d f) d _ e he).trans (dock?_onDock_other s d e f he)⟩
  have honly : Only [.inFlight, .dock, .release] s (s.changeHolds d f) := by simp
  unfold State.changeHolds at *
  dsimp only at *
  split at honly
  case isFalse h =>
    rw [if_neg h]
    exact ⟨⟨r', hr', hstanding⟩, hothers, honly⟩
  case isTrue h =>
    rw [if_pos h]
    refine ⟨⟨r', ?_, hstanding⟩, ?_, honly⟩
    · rw [postPass_eq]
      exact hr'
    · rw [postPass_eq]
      exact hothers

theorem HoldsChanged.holds {d : DockNo} {r : DockRecord} {f : DockRecord → DockRecord} {s t : State} (h : HoldsChanged d r f s t) :
    ∃ r', t.dock? d = some r' ∧ r'.dockHolds = (f r).dockHolds ∧ r'.bikeHolds = (f r).bikeHolds := by
  obtain ⟨r', hr', hstanding⟩ := h.record
  simp only [DockRecord.standing, Prod.mk.injEq] at hstanding
  exact ⟨r', hr', hstanding.2.1, hstanding.2.2.1⟩

/-! ### Records (R158, R159) -/

section
variable {s : State} {x : FaultSubject} {k : FaultKind} {context : Option DockContext}

theorem recordRaise_new (hnone : s.faultOf x k = none) (hroom : s.fault.table.length < s.faultRoom) :
    s.recordRaise x k context = (s.onFaults fun u => { u with table := u.table ++
      [{ subject := x, kind := k, firstTime := s.store.clock, firstUnset := s.store.clockUnset, lastTime := s.store.clock,
         lastUnset := s.store.clockUnset, repeats := 0, condition := .active, report := .new, context := context
         power := s.supply.power }] }).join .faultNew := by
  unfold State.recordRaise
  rw [hnone, if_neg (by simp), if_pos hroom]

theorem recordRaise_repeat {y : FaultRecord} (hsome : s.faultOf x k = some y) :
    s.recordRaise x k context = s.onRecord x k (·.repeated s.store.clock s.store.clockUnset) := by
  unfold State.recordRaise
  rw [hsome]
  rfl

theorem recordRaise_lost (hnone : s.faultOf x k = none) (hfull : s.faultRoom ≤ s.fault.table.length) :
    s.recordRaise x k context = (s.onFaults fun u => { u with lost := min 65535 (u.lost + 1) }).join .faultOverflow := by
  unfold State.recordRaise
  rw [hnone, if_neg (by simp), if_neg (Nat.not_lt.mpr hfull)]
  rfl

/-- A notice that joined in the act is in the set when the act ends. -/
theorem joined_inSet (u : State) (n : NoticeKind) : n.inSet ((u.join n).onHost HostLink.beginSending).host.noticeSet = true := by
  rw [onHost_host, beginSending_noticeSet, join_host, join_noticeSet]
  exact inSet_or _ _

/-- What a raise makes of the fault table, read in a state `u` whose table, clock and supply are those of `s`. -/
theorem raise_records {u : State} (hfault : u.fault = s.fault) (hstore : u.store = s.store) (hsupply : u.supply = s.supply) :
    (s.faultOf x k = none → s.fault.table.length < s.faultRoom →
      ((u.recordRaise x k context).onHost HostLink.beginSending).fault = { s.fault with table := s.fault.table ++
        [{ subject := x, kind := k, firstTime := s.store.clock, firstUnset := s.store.clockUnset, lastTime := s.store.clock
           lastUnset := s.store.clockUnset, repeats := 0, condition := .active, report := .new, context := context
           power := s.supply.power }] }
      ∧ NoticeKind.faultNew.inSet ((u.recordRaise x k context).onHost HostLink.beginSending).host.noticeSet = true)
    ∧ (∀ y, s.faultOf x k = some y →
      ((u.recordRaise x k context).onHost HostLink.beginSending).fault = { s.fault with
        table := s.fault.table.map fun y => if y.subject = x ∧ y.kind = k then
          { y with repeats := min 255 (y.repeats + 1), lastTime := s.store.clock, lastUnset := s.store.clockUnset
                   condition := .active } else y })
    ∧ (s.faultOf x k = none → s.faultRoom ≤ s.fault.table.length →
      ((u.recordRaise x k context).onHost HostLink.beginSending).fault = { s.fault with lost := min 65535 (s.fault.lost + 1) }
      ∧ NoticeKind.faultOverflow.inSet ((u.recordRaise x k context).onHost HostLink.beginSending).host.noticeSet = true) := by
  have hof : u.faultOf x k = s.faultOf x k := by
    unfold State.faultOf
    rw [hfault]
  have hroom : u.faultRoom = s.faultRoom := by
    unfold State.faultRoom
    rw [hstore]
  refine ⟨fun hnone hfree => ?_, fun y hsome => ?_, fun hnone hfull => ?_⟩
  · rw [recordRaise_new (hof.trans hnone) (by rw [hfault, hroom]; exact hfree), ← hfault, ← hstore, ← hsupply]
    exact ⟨rfl, joined_inSet _ _⟩
  · rw [recordRaise_repeat (hof.trans hsome), ← hfault, ← hstore]
    rfl
  · rw [recordRaise_lost (hof.trans hnone) (by rw [hfault, hroom]; exact hfull), ← hfault]
    exact ⟨rfl, joined_inSet _ _⟩

/-- A raise of a kind that its subject can have. -/
theorem exec_faultRaise {dock : Option DockNo} {carried : Carried} (hready : s.ready)
    (h : (s.taking (.faultRaise x k dock carried)).raisable x k = true) :
    exec (.faultRaise x k dock carried) s = .next
      ((((s.taking (.faultRaise x k dock carried)).setHold x k dock true).recordRaise x k
        ((x.contextDock dock).bind ((s.taking (.faultRaise x k dock carried)).contextOf · carried))).onHost HostLink.beginSending) := by
  simp only [exec, execFaultRaise]
  rw [act_running hready.1, if_pos h]

end

/-- A hold of the dock itself, written or taken out. -/
def DockRecord.dockHeld (k : FaultKind) (on : Bool) (r : DockRecord) : DockRecord := { r with dockHolds := r.dockHolds.put k on }

/-- A hold of the bike in the dock, written or taken out. -/
def DockRecord.bikeHeld (k : FaultKind) (on : Bool) (r : DockRecord) : DockRecord := { r with bikeHolds := r.bikeHolds.put k on }

theorem recordRaise_dock (u : State) (x : FaultSubject) (k : FaultKind) (context : Option DockContext) :
    (u.recordRaise x k context).dock = u.dock :=
  (show Only [.host, .fault] u (u.recordRaise x k context) by simp) .dock (by decide)

theorem recordRaise_inFlight (u : State) (x : FaultSubject) (k : FaultKind) (context : Option DockContext) :
    (u.recordRaise x k context).inFlight = u.inFlight :=
  (show Only [.host, .fault] u (u.recordRaise x k context) by simp) .inFlight (by decide)

theorem otherDocks_of_dock {d : DockNo} {s t u : State} (h : OtherDocksSame d s t) (hdock : u.dock = t.dock) : OtherDocksSame d s u := by
  obtain ⟨hlength, hothers⟩ := h
  exact ⟨by rw [hdock]; exact hlength, fun e he => (dock?_of_dock hdock e).trans (hothers e he)⟩

/-- The context of a raise at a dock, read before its hold is written (R155). -/
theorem contextOf_eq {s : State} {d : DockNo} {r : DockRecord} (carried : Carried) (hr : s.dock? d = some r) :
    s.contextOf d carried = some
      { dock := d, link := r.link, lock := r.lock, occupancy := r.occupancy, commanded := r.commanded
        acknowledged := r.acknowledged, claim := s.contextClaim d carried, lastTap := r.lastTap, lastSense := r.lastSense
        bike := r.contextBike carried, unrecorded := r.unrecorded } := by
  unfold State.contextOf
  rw [hr]
  rfl

/-- Settles O48: a raise at a dock, of a bike and of a terminal, and a resolution at a dock. -/
theorem faultsAreRaisedAndResolved : Obligations.FaultsAreRaisedAndResolved := by
  intro s d r k hready hr hfits
  have hlt : d < s.dockCount := dock?_lt hr
  refine ⟨fun carried => ?_, ?_, fun b kind hbike hkind => ?_, fun x => ?_⟩
  · have hchanged := holdsChanged (s := s.taking (.faultRaise (.dock d) k (some d) carried)) (.dockHeld k true) hr
    obtain ⟨r', hr', hdock, -⟩ := hchanged.holds
    have hraisable : (s.taking (.faultRaise (.dock d) k (some d) carried)).raisable (.dock d) k = true := by
      unfold State.raisable
      rw [hfits]
      exact decide_eq_true hlt
    have hexec := exec_faultRaise hready hraisable
    rw [show (FaultSubject.dock d).contextDock (some d) = some d from rfl, Option.bind_some, contextOf_eq carried (by exact hr)] at hexec
    obtain ⟨hnew, hrepeat, hlost⟩ := raise_records (s := s) (x := .dock d) (k := k)
      (context := some
        { dock := d, link := r.link, lock := r.lock, occupancy := r.occupancy, commanded := r.commanded
          acknowledged := r.acknowledged, claim := s.contextClaim d carried, lastTap := r.lastTap, lastSense := r.lastSense
          bike := r.contextBike carried, unrecorded := r.unrecorded })
      (hchanged.only .fault (by decide)) (hchanged.only .store (by decide)) (hchanged.only .supply (by decide))
    refine ⟨_, r', hexec, ?_, hdock, fun hnone hfree => ?_, hrepeat, hlost, ?_, (exec_only _ _ _ hexec).mono (by simp [parts])⟩
    · exact (dock?_of_dock (recordRaise_dock _ _ _ _) d).trans hr'
    · obtain ⟨hfault, hset⟩ := hnew hnone hfree
      refine ⟨hfault.trans ?_, hset⟩
      cases carried <;> rfl
    · exact otherDocks_of_dock (t := (s.taking (.faultRaise (.dock d) k (some d) carried)).changeHolds d (.dockHeld k true)) hchanged.others
        (recordRaise_dock _ _ _ _)
  · have hchanged := holdsChanged (s := s.taking (.faultResolution (.dock d) k none)) (.dockHeld k false) hr
    obtain ⟨r', hr', hdock, -⟩ := hchanged.holds
    refine ⟨((s.taking (.faultResolution (.dock d) k none)).changeHolds d (.dockHeld k false)).resolveRecord (.dock d) k, r', ?_, hr', hdock, ?_,
      hchanged.others, ?_⟩
    · simp only [exec, execFaultResolution]
      exact ready_next hready _ rfl (hchanged.only .host (by decide))
    · have hfault : ((s.taking (.faultResolution (.dock d) k none)).changeHolds d (.dockHeld k false)).fault = s.fault :=
        hchanged.only .fault (by decide)
      rw [State.resolveRecord, onFaults_fault, hfault]
    · rw [only_resolveRecord _ _ _ _ _ (by simp)]
      exact Only.trans (by simp) (hchanged.only.mono (by simp))
  · have hchanged := holdsChanged (s := s.taking (.faultRaise (.bike b) kind (some d) .nothing)) (.bikeHeld kind true) hr
    obtain ⟨r', hr', -, hbikeHolds⟩ := hchanged.holds
    have hraisable : (s.taking (.faultRaise (.bike b) kind (some d) .nothing)).raisable (.bike b) kind = true := by
      unfold State.raisable
      rw [hkind]
      rfl
    have hholds : (s.taking (.faultRaise (.bike b) kind (some d) .nothing)).dockHolds d b = true := by
      unfold State.dockHolds
      rw [show (s.taking (.faultRaise (.bike b) kind (some d) .nothing)).dock? d = some r from hr]
      obtain ⟨y, hy, hid⟩ := Option.map_eq_some_iff.mp hbike
      simp [hy, hid]
    have hset : (s.taking (.faultRaise (.bike b) kind (some d) .nothing)).setHold (.bike b) kind (some d) true =
        (s.taking (.faultRaise (.bike b) kind (some d) .nothing)).changeHolds d (.bikeHeld kind true) := if_pos hholds
    have hexec := exec_faultRaise hready hraisable
    rw [show (FaultSubject.bike b).contextDock (some d) = some d from rfl, Option.bind_some, contextOf_eq .nothing (by exact hr), hset] at hexec
    obtain ⟨hnew, -, -⟩ := raise_records (s := s) (x := .bike b) (k := kind)
      (context := some
        { dock := d, link := r.link, lock := r.lock, occupancy := r.occupancy, commanded := r.commanded
          acknowledged := r.acknowledged, claim := s.contextClaim d .nothing, lastTap := r.lastTap, lastSense := r.lastSense
          bike := r.contextBike .nothing, unrecorded := r.unrecorded })
      (hchanged.only .fault (by decide)) (hchanged.only .store (by decide)) (hchanged.only .supply (by decide))
    refine ⟨_, r', hexec, ?_, hbikeHolds, fun hnone hfree => ?_, ?_, (exec_only _ _ _ hexec).mono (by simp [parts])⟩
    · exact (dock?_of_dock (recordRaise_dock _ _ _ _) d).trans hr'
    · refine (congrArg FaultUnit.table (hnew hnone hfree).1).trans ?_
      rw [← hbike]
      rfl
    · exact otherDocks_of_dock hchanged.others (recordRaise_dock _ _ _ _)
  · have hexec := exec_faultRaise (s := s) (x := .terminal x) (k := .lineFailed) (dock := none) (carried := .nothing) hready rfl
    obtain ⟨hnew, -, -⟩ := raise_records (s := s) (x := .terminal x) (k := .lineFailed) (context := none)
      (u := s.taking (.faultRaise (.terminal x) .lineFailed none .nothing)) rfl rfl rfl
    refine ⟨_, hexec, fun hnone hfree => ?_, ?_, ?_⟩
    · obtain ⟨hfault, hset⟩ := hnew hnone hfree
      exact ⟨congrArg FaultUnit.table hfault, hset⟩
    · exact (recordRaise_inFlight _ _ _ _).trans (List.append_nil _).symm
    · simp [State.setHold]

end Sys2Proof.Machine
end


section
/-! Holds that a clear takes out and that follow the bike (R161, R163, R164). -/

namespace Sys2Proof.Machine

/-! ### Records that stay RESOLVED -/

/-- No record of this subject and kind is ACTIVE. -/
def State.resolvedAt (s : State) (x : FaultSubject) (k : FaultKind) : Prop :=
  ∀ y ∈ s.fault.table, y.subject = x → y.kind = k → y.condition = .resolved

theorem resolvedAt_self (s : State) (x : FaultSubject) (k : FaultKind) : (s.resolveRecord x k).resolvedAt x k :=
  fun _ hy hsubject hkind => resolveRecord_resolved hy hsubject hkind

/-- A resolution leaves the other records as they are. -/
theorem resolvedAt_resolveRecord {s : State} {x x' : FaultSubject} {k k' : FaultKind} (h : s.resolvedAt x k) :
    (s.resolveRecord x' k').resolvedAt x k := by
  intro y hy hsubject hkind
  unfold State.resolveRecord at hy
  simp only [onFaults_fault, List.mem_map, List.mem_filter] at hy
  obtain ⟨z, ⟨hz, -⟩, rfl⟩ := hy
  split
  case isTrue => rfl
  case isFalse hother =>
    rw [if_neg hother] at hsubject hkind
    exact h z hz hsubject hkind

theorem resolvedAt_foldl_keeps {x : FaultSubject} {d : DockNo} {k : FaultKind} : ∀ (kinds : List FaultKind) (s : State),
    s.resolvedAt x k → (kinds.foldl (fun s k => s.resolveRecord (.dock d) k) s).resolvedAt x k
  | [], _, h => h
  | k' :: kinds, s, h => resolvedAt_foldl_keeps kinds (s.resolveRecord (.dock d) k') (resolvedAt_resolveRecord h)

theorem resolvedAt_foldl {d : DockNo} {k : FaultKind} : ∀ (kinds : List FaultKind) (s : State), k ∈ kinds →
    (kinds.foldl (fun s k => s.resolveRecord (.dock d) k) s).resolvedAt (.dock d) k
  | [], _, h => nomatch h
  | k' :: kinds, s, h => by
    rcases List.mem_cons.mp h with rfl | h
    · exact resolvedAt_foldl_keeps kinds _ (resolvedAt_self s (.dock d) k)
    · exact resolvedAt_foldl kinds _ h

theorem resolveRecord_same (s : State) (x : FaultSubject) (k : FaultKind) : Only [.fault] s (s.resolveRecord x k) := by simp

theorem foldl_resolveRecord_same (d : DockNo) (kinds : List FaultKind) (s : State) :
    Only [.fault] s (kinds.foldl (fun s k => s.resolveRecord (.dock d) k) s) :=
  (only_foldl (w := [.fault]) (s := s) (fun (s : State) k => s.resolveRecord (.dock d) k)
    (fun t k => only_resolveRecord [.fault] s t _ k (by decide)) kinds s).mpr (Only.refl _ _)

/-! ### The claim that a jam has left open -/

/-- A claim past RELEASE_SENT is not displaced: what a change of a dock's holds does to its level leaves the claim. -/
theorem changeHolds_release {s : State} {d : DockNo} {c : Claim} (f : DockRecord → DockRecord) (hc : s.claimOn d = some c)
    (hreserved : c.state ≠ .reserved) (hsent : c.state ≠ .releaseSent) : (s.changeHolds d f).release = s.release := by
  have hslot : ((s.onDock d f).takeSlot d).release = s.release :=
    (show Only [.inFlight, .dock] s ((s.onDock d f).takeSlot d) by simp) .release (by decide)
  have hclaim : ((s.onDock d f).takeSlot d).claimOn d = some c := by
    unfold State.claimOn
    rw [hslot]
    exact hc
  have hlevel : ((s.onDock d f).takeLevel d (s.level d)).release = s.release := by
    unfold State.takeLevel
    dsimp only
    split
    · rfl
    · rw [displace_past hclaim hreserved hsent, ← hslot]
      split
      · rfl
      · exact (show Only [.inFlight, .dock] ((s.onDock d f).takeSlot d) (((s.onDock d f).takeSlot d).postPass.relamp d) by simp)
          .release (by decide)
  unfold State.changeHolds State.changeInput
  dsimp only
  split
  · rw [postPass_eq]
    exact hlevel
  · exact hlevel

theorem mem_tellJamCleared {s : State} {d : DockNo} {c : Claim} (hc : s.claimOn d = some c) (hstate : c.state = .jammedOpen) :
    .lockJamCleared d ∈ (s.tellJamCleared d).inFlight := by
  unfold State.tellJamCleared
  simp [postIf_inFlight, hc, hstate]

theorem jamStands_of_hold {s : State} {d : DockNo} {r : DockRecord} (hr : s.dock? d = some r) (h : r.dockHolds.lockJam = true) :
    s.jamStands d = true := by
  unfold State.jamStands
  rw [hr]
  simp [h]

/-! ### The hold clear (R161) -/

/-- The fault records as a hold clear leaves them: every clearable kind of the dock, and RIDER_REPORT of a bike that is held. -/
def State.recordsCleared (s : State) (d : DockNo) (r : DockRecord) : State :=
  let u := clearableKinds.foldl (fun s k => s.resolveRecord (.dock d) k) s
  match r.bikeHolds.riderReport, r.bike with
  | true, some b => u.resolveRecord (.bike b.id) .riderReport
  | true, none => u
  | false, _ => u

theorem clearHolds_eq (s : State) (d : DockNo) (r : DockRecord) : s.clearHolds d r =
    if s.jamStands d then ((s.changeHolds d DockRecord.cleared).recordsCleared d r).tellJamCleared d
    else (s.changeHolds d DockRecord.cleared).recordsCleared d r := rfl

theorem recordsCleared_same (s : State) (d : DockNo) (r : DockRecord) : Only [.fault] s (s.recordsCleared d r) := by
  have hfold := foldl_resolveRecord_same d clearableKinds s
  unfold State.recordsCleared
  dsimp only
  split
  · exact hfold.trans (resolveRecord_same _ _ _)
  · exact hfold
  · exact hfold

theorem recordsCleared_resolvedAt (s : State) (d : DockNo) (r : DockRecord) {k : FaultKind} (hk : k ∈ clearableKinds) :
    (s.recordsCleared d r).resolvedAt (.dock d) k := by
  have hfold := resolvedAt_foldl (d := d) clearableKinds s hk
  unfold State.recordsCleared
  dsimp only
  split
  · exact resolvedAt_resolveRecord hfold
  · exact hfold
  · exact hfold

theorem clearHolds_dock (s : State) (d : DockNo) (r : DockRecord) :
    (s.clearHolds d r).dock = (s.changeHolds d DockRecord.cleared).dock := by
  have hsame := (recordsCleared_same (s.changeHolds d DockRecord.cleared) d r) .dock (by decide)
  rw [clearHolds_eq]
  split
  · exact SamePart.trans hsame ((show Only [.inFlight] ((s.changeHolds d DockRecord.cleared).recordsCleared d r)
      (((s.changeHolds d DockRecord.cleared).recordsCleared d r).tellJamCleared d) by simp) .dock (by decide))
  · exact hsame

theorem clearHolds_fault (s : State) (d : DockNo) (r : DockRecord) :
    (s.clearHolds d r).fault = ((s.changeHolds d DockRecord.cleared).recordsCleared d r).fault := by
  rw [clearHolds_eq]
  split
  · exact (show Only [.inFlight] _ _ by simp) .fault (by decide)
  · rfl

theorem clearHolds_tells {s : State} {d : DockNo} {r : DockRecord} {c : Claim} (hr : s.dock? d = some r)
    (hjam : r.dockHolds.lockJam = true) (hc : s.claimOn d = some c) (hstate : c.state = .jammedOpen) :
    .lockJamCleared d ∈ (s.clearHolds d r).inFlight := by
  rw [clearHolds_eq, if_pos (jamStands_of_hold hr hjam)]
  refine mem_tellJamCleared (c := c) ?_ hstate
  have hrelease : ((s.changeHolds d DockRecord.cleared).recordsCleared d r).release = s.release :=
    SamePart.trans (p := .release) (changeHolds_release _ hc (by rw [hstate]; decide) (by rw [hstate]; decide))
      (recordsCleared_same _ d r .release (by decide))
  unfold State.claimOn
  rw [hrelease]
  exact hc

theorem holdClear_settles {s : State} {d : DockNo} {r : DockRecord} (hready : s.ready) (hr : s.dock? d = some r) :
    ∃ t r', exec (.holdClear d) s = .next t ∧ t.dock? d = some r' ∧ r'.dockHolds = {}
      ∧ r'.bikeHolds = { r.bikeHolds with riderReport := false } ∧ r'.readerResult = some .allow ∧ r'.checkPending = false
      ∧ (∀ y ∈ t.fault.table, y.subject = .dock d → y.kind ∈ clearableKinds → y.condition = .resolved)
      ∧ (∀ c, stands s c → c.dock = d → c.state = .jammedOpen → r.dockHolds.lockJam = true → .lockJamCleared d ∈ t.inFlight)
      ∧ OtherDocksSame d s t ∧ Only [.inFlight, .dock, .release, .fault] s t := by
  have hat : (s.taking (.holdClear d)).dock? d = some r := hr
  have hchanged := holdsChanged (s := s.taking (.holdClear d)) DockRecord.cleared hat
  obtain ⟨r', hr', hdock, hbike⟩ := hchanged.holds
  have hsame := clearHolds_dock (s.taking (.holdClear d)) d r
  have hat' := (dock?_of_dock hsame d).trans hr'
  have hothers := otherDocks_of_dock hchanged.others hsame
  have hacts := acts_readerDecided ((s.taking (.holdClear d)).clearHolds d r) d .allow
  have honly : Only [.inFlight, .dock, .release, .fault] s (((s.taking (.holdClear d)).clearHolds d r).readerDecided d .allow) := by
    simp
  refine ⟨((s.taking (.holdClear d)).clearHolds d r).readerDecided d .allow, decidedAt r' .allow, ?_, dock?_readerDecided .allow hat', hdock,
    hbike, rfl, rfl, fun y hy hsubject hkind => ?_, fun c hc hcd hstate hjam => ?_, ?_, honly⟩
  · simp only [exec, execHoldClear]
    refine ready_next hready _ ?_ (honly .host (by decide))
    rw [hat]
  · refine recordsCleared_resolvedAt ((s.taking (.holdClear d)).changeHolds d DockRecord.cleared) d r hkind y ?_ hsubject rfl
    rw [← clearHolds_fault]
    exact hy
  · subst hcd
    exact clearHolds_tells hat hjam (claimOn_stands (by exact hc)) hstate
  · obtain ⟨hlen, hsame⟩ := hacts.oth
    exact ⟨hlen.trans hothers.1, fun e he => (hsame e he).trans (hothers.2 e he)⟩

/-! ### Bikes that come and go (R163, R164) -/

theorem dockHolds_of_bike {s : State} {d : DockNo} {r : DockRecord} {b : BikeId} (hr : s.dock? d = some r)
    (hbike : r.bike.map (·.id) = some b) : s.dockHolds d b = true := by
  obtain ⟨y, hy, hid⟩ := Option.map_eq_some_iff.mp hbike
  unfold State.dockHolds
  rw [hr]
  simp [hy, hid]

theorem bikeArrival_settles {s : State} {d : DockNo} {r : DockRecord} {b : BikeId} (hready : s.ready) (hr : s.dock? d = some r)
    (hbike : r.bike.map (·.id) = some b) : ∃ t r', exec (.bikeArrivalNotice d b) s = .next t ∧ t.dock? d = some r'
      ∧ r'.bikeHolds = (if ∃ y, s.faultOf (.bike b) .riderReport = some y ∧ y.condition = .active then
          { r.bikeHolds with riderReport := true } else r.bikeHolds)
      ∧ t.fault = s.fault ∧ OtherDocksSame d s t ∧ Only [.inFlight, .dock, .release] s t := by
  by_cases hactive : ∃ y, s.faultOf (.bike b) .riderReport = some y ∧ y.condition = .active
  case pos =>
    have hchanged := holdsChanged (s := s.taking (.bikeArrivalNotice d b)) (.bikeHeld .riderReport true) hr
    obtain ⟨r', hr', -, hholds⟩ := hchanged.holds
    refine ⟨_, r', ?_, hr', by rw [if_pos hactive]; exact hholds, hchanged.only .fault (by decide), hchanged.others,
      Only.trans (by simp) hchanged.only⟩
    obtain ⟨y, hy, hcondition⟩ := hactive
    simp only [exec, execBikeArrivalNotice]
    refine ready_next hready _ ?_ (hchanged.only .host (by decide))
    rw [show (s.taking (.bikeArrivalNotice d b)).faultOf (.bike b) .riderReport = some y from hy, if_pos (by simp [hcondition])]
    exact if_pos (dockHolds_of_bike hr hbike)
  case neg =>
    refine ⟨s.taking (.bikeArrivalNotice d b), r, ?_, hr, by rw [if_neg hactive], rfl, ⟨rfl, fun _ _ => rfl⟩, by simp⟩
    simp only [exec, execBikeArrivalNotice]
    refine ready_next hready _ (if_neg fun h => hactive ?_) rfl
    obtain ⟨y, hy, hcondition⟩ := (Option.any_eq_true _ _).mp h
    exact ⟨y, hy, beq_iff_eq.mp hcondition⟩

/-- The fault records as a removal leaves them: the tag kinds of the dock and, of a bike that was held, BATTERY_LOW. -/
def State.recordsGone (s : State) (d : DockNo) (bike : Option BikeId) : State :=
  let u := (s.resolveRecord (.dock d) .tagUnread).resolveRecord (.dock d) .tagConflict
  match bike with
  | some b => u.resolveRecord (.bike b) .batteryLow
  | none => u

theorem recordsGone_same (s : State) (d : DockNo) (bike : Option BikeId) : Only [.fault] s (s.recordsGone d bike) := by
  cases bike <;> simp [State.recordsGone]

theorem recordsGone_resolved (s : State) (d : DockNo) (bike : Option BikeId) : ∀ y ∈ (s.recordsGone d bike).fault.table,
    (y.subject = .dock d ∧ (y.kind = .tagUnread ∨ y.kind = .tagConflict))
      ∨ (∃ b, bike = some b ∧ y.subject = .bike b ∧ y.kind = .batteryLow) → y.condition = .resolved := by
  have hunread : ((s.resolveRecord (.dock d) .tagUnread).resolveRecord (.dock d) .tagConflict).resolvedAt (.dock d) .tagUnread :=
    resolvedAt_resolveRecord (resolvedAt_self _ _ _)
  have hconflict : ((s.resolveRecord (.dock d) .tagUnread).resolveRecord (.dock d) .tagConflict).resolvedAt (.dock d) .tagConflict :=
    resolvedAt_self _ _ _
  intro y hy h
  cases bike with
  | none =>
    rcases h with ⟨hsubject, hkind | hkind⟩ | ⟨b, hb, -⟩
    · exact hunread y hy hsubject hkind
    · exact hconflict y hy hsubject hkind
    · exact nomatch hb
  | some b =>
    rcases h with ⟨hsubject, hkind | hkind⟩ | ⟨b', hb, hsubject, hkind⟩
    · exact resolvedAt_resolveRecord hunread y hy hsubject hkind
    · exact resolvedAt_resolveRecord hconflict y hy hsubject hkind
    · obtain rfl := Option.some.inj hb
      exact resolvedAt_self _ _ _ y hy hsubject hkind

theorem faultRemoval_settles {s : State} {d : DockNo} {r : DockRecord} (hready : s.ready) (hr : s.dock? d = some r)
    (bike : Option BikeId) : ∃ t r', exec (.faultRemovalNotice d bike) s = .next t ∧ t.dock? d = some r'
      ∧ r'.dockHolds = { r.dockHolds with tagUnread := false, tagConflict := false }
      ∧ r'.bikeHolds = (if bike = none then r.bikeHolds else {})
      ∧ (∀ y ∈ t.fault.table, (y.subject = .dock d ∧ (y.kind = .tagUnread ∨ y.kind = .tagConflict))
            ∨ (∃ b, bike = some b ∧ y.subject = .bike b ∧ y.kind = .batteryLow) → y.condition = .resolved)
      ∧ OtherDocksSame d s t ∧ Only [.inFlight, .dock, .release, .fault] s t := by
  have hchanged := holdsChanged (s := s.taking (.faultRemovalNotice d bike)) (·.bikeGone bike) hr
  obtain ⟨r', hr', hdock, hbike⟩ := hchanged.holds
  have hsame := recordsGone_same ((s.taking (.faultRemovalNotice d bike)).changeHolds d (·.bikeGone bike)) d bike
  have hdocks := hsame .dock (by decide)
  refine ⟨((s.taking (.faultRemovalNotice d bike)).changeHolds d (·.bikeGone bike)).recordsGone d bike, r', ?_,
    (dock?_of_dock hdocks d).trans hr', hdock, ?_, recordsGone_resolved _ d bike, otherDocks_of_dock hchanged.others hdocks, ?_⟩
  · simp only [exec, execFaultRemovalNotice]
    exact ready_next hready _ rfl (SamePart.trans (p := .host) (hchanged.only .host (by decide)) (hsame .host (by decide)))
  · rw [hbike]
    cases bike <;> rfl
  · exact Only.trans (by simp) ((hchanged.only.mono (by simp)).trans (hsame.mono (by simp)))

/-- Settles O49: a hold clear, a bike that arrives, and a removal. -/
theorem holdsFollowTheBike : Obligations.HoldsFollowTheBike := fun _ _ _ hready hr =>
  ⟨holdClear_settles hready hr, fun _ hbike => bikeArrival_settles hready hr hbike, faultRemoval_settles hready hr⟩

end Sys2Proof.Machine
end


section
/-! The requests of the Fault Unit (R162, R165, R166). -/

namespace Sys2Proof.Machine

section
variable {s : State} {tag : Byte} {body : List Byte} {x : FaultSubject} {k : FaultKind} {d : DockNo} {r : DockRecord}

/-! ### What a resolution makes of the state -/

theorem resolveRecord_fault {u : State} (hfault : u.fault = s.fault) :
    (u.resolveRecord x k).fault = { s.fault with table := resolvedIn s x k } := by
  rw [State.resolveRecord, onFaults_fault, hfault]
  rfl

theorem resolveFault_unheld (h : s.setHold x k none false = s) : s.resolveFault x k none =
    { s with fault := { s.fault with table := resolvedIn s x k } } := by
  unfold State.resolveFault
  rw [h]
  rfl

/-- LINK_LOSS is no hold: nothing of the dock's level changes with it. -/
theorem setHold_linkLoss (d : DockNo) (on : Bool) : s.setHold (.dock d) .linkLoss none on = s := by
  have hsame : s.onDock d (fun r => { r with dockHolds := r.dockHolds.put .linkLoss on }) = s := by
    rw [show (fun r : DockRecord => { r with dockHolds := r.dockHolds.put .linkLoss on }) = id from rfl]
    exact congrArg (fun table => { s with dock := { s.dock with table := table } }) (List.modify_id d s.dock.table)
  show s.changeHolds d (fun r => { r with dockHolds := r.dockHolds.put .linkLoss on }) = s
  unfold State.changeHolds State.changeInput State.takeLevel
  simp only [hsame, if_true]
  exact if_neg (by simp [DockHolds.put])

/-! ### What FAULT_CLEAR answers -/

theorem faultClear_next {code : ReplyCode} {u : State} (hready : s.ready) (hnamed : Operands.faultName s body = .ok (x, k))
    (hclear : (s.taking (.faultClear tag body)).clearFault x k = (code, u)) :
    exec (.faultClear tag body) s = .next ((u.reply 0x19 tag code).onHost HostLink.beginSending) := by
  simp only [exec, execFaultClear]
  rw [request_ok hready.1 hnamed]
  dsimp only
  rw [hclear]

theorem faultClear_refused {code : ReplyCode} (hready : s.ready) (hnamed : Operands.faultName s body = .ok (x, k))
    (hclear : (s.taking (.faultClear tag body)).clearFault x k = (code, s.taking (.faultClear tag body))) :
    OnlyRefused (.faultClear tag body) s 0x19 tag code := by
  unfold OnlyRefused
  simp only [exec, execFaultClear]
  refine request_replies (s.taking _) code .nothing hready hnamed ?_ hready.2 rfl
  dsimp only
  rw [hclear]

theorem faultClear_resolves (hready : s.ready) (hnamed : Operands.faultName s body = .ok (x, k))
    (hclear : (s.taking (.faultClear tag body)).clearFault x k = (.ok,
      { s.taking (.faultClear tag body) with fault := { s.fault with table := resolvedIn s x k } })) :
    exec (.faultClear tag body) s = .next
      { s with
        fault := { s.fault with table := resolvedIn s x k }
        host := { s.host with outgoing := s.host.outgoing ++ [.reply 0x99 tag .ok .nothing] }
        inFlight := s.inFlight.erase (.faultClear tag body) } := by
  simp only [exec, execFaultClear]
  refine request_replies { s.taking (.faultClear tag body) with fault := { s.fault with table := resolvedIn s x k } } .ok .nothing
    hready hnamed ?_ hready.2 rfl
  dsimp only
  rw [hclear]

theorem wrongState_of_kind (u : State) (x : FaultSubject)
    (hk : k ∈ [FaultKind.tagUnread, .tagConflict, .batteryLow, .lineFailed]) : u.clearFault x k = (.wrongState, u) := by
  simp only [List.mem_cons, List.not_mem_nil, or_false] at hk
  cases x <;> rcases hk with rfl | rfl | rfl | rfl <;> rfl

/-! ### A hold of a dock -/

theorem clearFault_dock (u : State) (d : DockNo) (hk : k ∈ [FaultKind.lockJam, .sensor, .chatter, .forcedRemoval]) :
    u.clearFault (.dock d) k = u.clearDockKind d k := by
  simp only [List.mem_cons, List.not_mem_nil, or_false] at hk
  rcases hk with rfl | rfl | rfl | rfl <;> rfl

/-- The state in which a dock's hold and its record are cleared, before the Release Controller is told. -/
def State.dockCleared (s : State) (d : DockNo) (k : FaultKind) : State := (s.changeHolds d (.dockHeld k false)).resolveRecord (.dock d) k

/-- The same with the news of a cleared LOCK_JAM to the Release Controller. -/
def State.dockClearTold (s : State) (d : DockNo) (k : FaultKind) : State :=
  if k = .lockJam ∧ s.jamStands d then (s.dockCleared d k).tellJamCleared d else s.dockCleared d k

theorem clearDockKind_ok (hr : s.dock? d = some r) (h : r.dockHolds.has k = true ∨ s.faultOf (.dock d) k ≠ none) :
    s.clearDockKind d k = (.ok, s.dockClearTold d k) := by
  unfold State.clearDockKind
  rw [if_pos (h.symm.imp Option.isSome_iff_ne_none.mpr fun h => by rw [hr]; exact h)]
  rfl

theorem clearDockKind_none (hr : s.dock? d = some r) (hhold : r.dockHolds.has k = false) (hnone : s.faultOf (.dock d) k = none) :
    s.clearDockKind d k = (.notFound, s) := by
  unfold State.clearDockKind
  rw [hr, hnone]
  exact if_neg (by simp [hhold])

theorem dockCleared_release {c : Claim} (hc : s.claimOn d = some c) (hstate : c.state = .jammedOpen) :
    (s.dockCleared d k).release = s.release :=
  SamePart.trans (p := .release) (changeHolds_release _ hc (by rw [hstate]; decide) (by rw [hstate]; decide))
    (resolveRecord_same _ _ _ .release (by decide))

/-- A cleared dock, with or without the news to the Release Controller. -/
structure DockCleared (d : DockNo) (r : DockRecord) (k : FaultKind) (s u : State) : Prop where
  dock : u.dock = (s.dockCleared d k).dock
  fault : u.fault = { s.fault with table := resolvedIn s (.dock d) k }
  told : ∀ c, s.claimOn d = some c → c.state = .jammedOpen → k = .lockJam → r.dockHolds.lockJam = true →
    .lockJamCleared d ∈ u.inFlight
  only : Only [.inFlight, .dock, .release, .fault] s u

theorem dockCleared_fault (s : State) (d : DockNo) (k : FaultKind) :
    (s.dockCleared d k).fault = { s.fault with table := resolvedIn s (.dock d) k } :=
  resolveRecord_fault ((show Only [.inFlight, .dock, .release] s (s.changeHolds d (.dockHeld k false)) by simp) .fault (by decide))

theorem dockCleared_of_clear (k : FaultKind) (hr : s.dock? d = some r) : DockCleared d r k s (s.dockClearTold d k) := by
  have honly : Only [.inFlight, .dock, .release, .fault] s (s.dockCleared d k) := by simp [State.dockCleared]
  have htells : Only [.inFlight] (s.dockCleared d k) ((s.dockCleared d k).tellJamCleared d) := by simp
  unfold State.dockClearTold
  split
  case isTrue =>
    refine ⟨htells .dock (by decide), Eq.trans (htells .fault (by decide)) (dockCleared_fault s d k),
      fun c hc hstate _ _ => mem_tellJamCleared (c := c) ?_ hstate, honly.trans (htells.mono (by simp))⟩
    unfold State.claimOn
    rw [dockCleared_release hc hstate]
    exact hc
  case isFalse h =>
    exact ⟨rfl, dockCleared_fault s d k, fun c _ _ hk hjam => absurd ⟨hk, jamStands_of_hold hr hjam⟩ h, honly⟩

theorem faultClear_dock (hready : s.ready) (hnamed : Operands.faultName s body = .ok (.dock d, k))
    (hk : k ∈ [FaultKind.lockJam, .sensor, .chatter, .forcedRemoval]) (hr : s.dock? d = some r)
    (h : r.dockHolds.has k = true ∨ s.faultOf (.dock d) k ≠ none) :
    ∃ t r', exec (.faultClear tag body) s = .next t ∧ t.dock? d = some r'
        ∧ r'.dockHolds = r.dockHolds.put k false ∧ t.fault = { s.fault with table := resolvedIn s (.dock d) k }
        ∧ (∀ c, stands s c → c.dock = d → c.state = .jammedOpen → k = .lockJam → r.dockHolds.lockJam = true →
            .lockJamCleared d ∈ t.inFlight)
        ∧ Answered t 0x19 tag .ok .nothing ∧ OtherDocksSame d s t ∧ Only [.host, .inFlight, .dock, .release, .fault] s t := by
  have hcleared := dockCleared_of_clear (s := s.taking (.faultClear tag body)) k hr
  have hexec := faultClear_next (tag := tag) hready hnamed
    ((clearFault_dock (s.taking (.faultClear tag body)) d hk).trans (clearDockKind_ok (s := s.taking _) hr h))
  generalize (s.taking (.faultClear tag body)).dockClearTold d k = u at hcleared hexec
  have hchanged := holdsChanged (s := s.taking (.faultClear tag body)) (.dockHeld k false) hr
  obtain ⟨r', hr', hholds, -⟩ := hchanged.holds
  have hdock : u.dock = ((s.taking (.faultClear tag body)).changeHolds d (.dockHeld k false)).dock := hcleared.dock
  refine ⟨_, r', hexec, (dock?_of_dock hdock d).trans hr', hholds, hcleared.fault, fun c hc hcd hstate hjam hhold => ?_,
    reply_answered _ _ _ _ _, otherDocks_of_dock hchanged.others hdock, ?_⟩
  · subst hcd
    exact hcleared.told c (claimOn_stands (by exact hc)) hstate hjam hhold
  · have hreply : Only [.host] u ((u.reply 0x19 tag .ok).onHost HostLink.beginSending) := by simp
    exact Only.trans (by simp) ((hcleared.only.mono (by simp)).trans (hreply.mono (by simp)))

/-! ### RIDER_REPORT of a bike -/

theorem dockHolds_iff {b : BikeId} : s.dockHolds d b = true ↔ ∃ r, s.dock? d = some r ∧ r.bike.map (·.id) = some b := by
  unfold State.dockHolds
  cases s.dock? d with
  | none => simp
  | some r => simp [Option.any_eq_true]

theorem bikeAt_unique {e : DockNo} {b : BikeId} {r' : DockRecord} (hkept : bikesKept s) (hr : s.dock? d = some r)
    (hbike : r.bike.map (·.id) = some b) (hr' : s.dock? e = some r') (hbike' : r'.bike.map (·.id) = some b) : e = d := by
  obtain ⟨hd, hrd⟩ := List.getElem?_eq_some_iff.mp hr
  obtain ⟨he, hre⟩ := List.getElem?_eq_some_iff.mp hr'
  have hpairs := List.pairwise_filterMap.mp hkept
  rcases Nat.lt_trichotomy e d with hlt | heq | hlt
  · exact absurd rfl (List.pairwise_iff_getElem.mp hpairs e d he hd hlt b (by rw [hre]; exact hbike') b (by rw [hrd]; exact hbike))
  · exact heq
  · exact absurd rfl (List.pairwise_iff_getElem.mp hpairs d e hd he hlt b (by rw [hrd]; exact hbike) b (by rw [hre]; exact hbike'))

theorem dockOfBike_at {b : BikeId} (hkept : bikesKept s) (hr : s.dock? d = some r) (hbike : r.bike.map (·.id) = some b) :
    s.dockOfBike b = some d := by
  unfold State.dockOfBike
  cases hfound : (List.range s.dockCount).find? (s.dockHolds · b) with
  | none => exact absurd (dockHolds_of_bike hr hbike) (List.find?_eq_none.mp hfound d (List.mem_range.mpr (dock?_lt hr)))
  | some e =>
    obtain ⟨r', hr', hbike'⟩ := dockHolds_iff.mp (List.find?_some (p := (s.dockHolds · b)) hfound)
    exact congrArg some (bikeAt_unique hkept hr hbike hr' hbike')

theorem dockOfBike_none {b : BikeId} (h : ∀ d r, s.dock? d = some r → r.bike.map (·.id) ≠ some b) : s.dockOfBike b = none :=
  List.find?_eq_none.mpr fun d _ hholds => by
    obtain ⟨r, hr, hbike⟩ := dockHolds_iff.mp hholds
    exact h d r hr hbike

theorem dockOfBike_holds {b : BikeId} (hd : s.dockOfBike b = some d) : ∃ r, s.dock? d = some r ∧ r.bike.map (·.id) = some b :=
  dockHolds_iff.mp (List.find?_some (p := (s.dockHolds · b)) hd)

theorem clearRiderReport_ok {b : BikeId}
    (h : s.faultOf (.bike b) .riderReport ≠ none ∨ ((s.dockOfBike b).bind s.dock?).any (fun r => r.bikeHolds.riderReport) = true) :
    s.clearRiderReport b = (.ok, s.resolveFault (.bike b) .riderReport (s.dockOfBike b)) :=
  if_pos (h.imp_left Option.isSome_iff_ne_none.mpr)

theorem clearRiderReport_none {b : BikeId} (hnone : s.faultOf (.bike b) .riderReport = none)
    (h : ∀ d r, s.dock? d = some r → r.bike.map (·.id) = some b → r.bikeHolds.riderReport = false) :
    s.clearRiderReport b = (.notFound, s) := by
  refine if_neg ?_
  rw [hnone]
  rintro (hsome | hany)
  · exact nomatch hsome
  · obtain ⟨r, hr, hreport⟩ := (Option.any_eq_true _ _).mp hany
    obtain ⟨d, hd, hr⟩ := Option.bind_eq_some_iff.mp hr
    obtain ⟨r', hr', hbike⟩ := dockOfBike_holds hd
    obtain rfl := Option.some.inj (hr.symm.trans hr')
    rw [h d r hr hbike] at hreport
    exact nomatch hreport

theorem faultClear_bike {b : BikeId} (hready : s.ready) (hnamed : Operands.faultName s body = .ok (.bike b, .riderReport))
    (hkept : bikesKept s) (hr : s.dock? d = some r) (hbike : r.bike.map (·.id) = some b)
    (h : r.bikeHolds.riderReport = true ∨ s.faultOf (.bike b) .riderReport ≠ none) :
    ∃ t r', exec (.faultClear tag body) s = .next t ∧ t.dock? d = some r'
          ∧ r'.bikeHolds = { r.bikeHolds with riderReport := false }
          ∧ t.fault = { s.fault with table := resolvedIn s (.bike b) .riderReport } ∧ Answered t 0x19 tag .ok .nothing
          ∧ OtherDocksSame d s t ∧ Only [.host, .inFlight, .dock, .release, .fault] s t := by
  have hdock : (s.taking (.faultClear tag body)).dockOfBike b = some d := dockOfBike_at (s := s.taking _) hkept hr hbike
  have hset : (s.taking (.faultClear tag body)).setHold (.bike b) .riderReport (some d) false =
      (s.taking (.faultClear tag body)).changeHolds d (.bikeHeld .riderReport false) :=
    if_pos (dockHolds_of_bike (s := s.taking _) hr hbike)
  have hchanged := holdsChanged (s := s.taking (.faultClear tag body)) (.bikeHeld .riderReport false) hr
  obtain ⟨r', hr', -, hholds⟩ := hchanged.holds
  have hclear : (s.taking (.faultClear tag body)).clearFault (.bike b) .riderReport = (.ok,
      ((s.taking (.faultClear tag body)).changeHolds d (.bikeHeld .riderReport false)).resolveRecord (.bike b) .riderReport) := by
    refine (clearRiderReport_ok (s := s.taking _) ?_).trans ?_
    · rw [hdock]
      exact h.symm.imp_right fun hreport => by
        rw [Option.bind_some, show (s.taking (.faultClear tag body)).dock? d = some r from hr]
        exact hreport
    · rw [hdock, State.resolveFault, hset]
  refine ⟨_, r', faultClear_next hready hnamed hclear, hr', hholds, resolveRecord_fault (hchanged.only .fault (by decide)),
    reply_answered _ _ _ _ _, hchanged.others, ?_⟩
  simp

theorem faultClear_absentBike {b : BikeId} (hready : s.ready) (hnamed : Operands.faultName s body = .ok (.bike b, .riderReport))
    (habsent : ∀ d r, s.dock? d = some r → r.bike.map (·.id) ≠ some b) (h : s.faultOf (.bike b) .riderReport ≠ none) :
    exec (.faultClear tag body) s = .next
      { s with
        fault := { s.fault with table := resolvedIn s (.bike b) .riderReport }
        host := { s.host with outgoing := s.host.outgoing ++ [.reply 0x99 tag .ok .nothing] }
        inFlight := s.inFlight.erase (.faultClear tag body) } := by
  refine faultClear_resolves hready hnamed ((clearRiderReport_ok (s := s.taking _) (.inl h)).trans ?_)
  rw [dockOfBike_none (s := s.taking _) habsent]
  rfl

/-! ### LINK_LOSS of a LOST dock -/

theorem clearLinkLoss_linked (hr : s.dock? d = some r) (hlink : r.link ≠ .lost) : s.clearLinkLoss d = (.wrongState, s) := by
  unfold State.clearLinkLoss
  rw [hr]
  exact if_neg (by simp [hlink])

theorem clearLinkLoss_orphan {c : Claim} (hr : s.dock? d = some r) (hlink : r.link = .lost) (hc : s.claimOn d = some c)
    (horphan : c.state = .orphan) : s.clearLinkLoss d = (.ok, (s.resolveFault (.dock d) .linkLoss none).lapse c .none) := by
  unfold State.clearLinkLoss
  rw [hr, hc]
  simp [hlink, horphan, Option.filter]

theorem clearLinkLoss_other (hr : s.dock? d = some r) (hlink : r.link = .lost)
    (hc : ∀ c, s.claimOn d = some c → c.state ≠ .orphan) : s.clearLinkLoss d =
      if (s.faultOf (.dock d) .linkLoss).isSome then (.ok, s.resolveFault (.dock d) .linkLoss none) else (.notFound, s) := by
  have hnone : (s.claimOn d).filter (fun c => c.state == .orphan) = none :=
    Option.filter_eq_none_iff.mpr fun c h => by simp [hc c h]
  unfold State.clearLinkLoss
  rw [hr, if_pos (by simp [hlink]), hnone]

theorem resolveFault_linkLoss (s : State) (d : DockNo) : s.resolveFault (.dock d) .linkLoss none =
    { s with fault := { s.fault with table := resolvedIn s (.dock d) .linkLoss } } := resolveFault_unheld (setHold_linkLoss d false)

theorem faultClear_orphan {c : Claim} (hready : s.ready) (hnamed : Operands.faultName s body = .ok (.dock d, .linkLoss))
    (hr : s.dock? d = some r) (hlink : r.link = .lost) (hc : stands s c) (hcd : c.dock = d) (horphan : c.state = .orphan) :
    ∃ t, exec (.faultClear tag body) s = .next t
        ∧ t.release.claims = s.release.claims.filter (fun x => x.dock != d)
        ∧ t.fault = { s.fault with table := resolvedIn s (.dock d) .linkLoss }
        ∧ HandedOn (.faultClear tag body) s t (untakenTold s c .lapsed) ∧ Answered t 0x19 tag .ok .nothing
        ∧ Only [.host, .inFlight, .dock, .release, .fault] s t := by
  subst hcd
  have hexec := faultClear_next (tag := tag) hready hnamed
    (clearLinkLoss_orphan (s := s.taking _) hr hlink (claimOn_stands (by exact hc)) horphan)
  rw [State.lapse, resolveFault_linkLoss, endUntaken_eq] at hexec
  refine ⟨_, hexec, rfl, rfl, rfl, reply_answered _ _ _ _ _, (exec_only _ _ _ hexec).mono (by simp [parts])⟩

theorem faultClear_linkLoss (hready : s.ready) (hnamed : Operands.faultName s body = .ok (.dock d, .linkLoss))
    (hr : s.dock? d = some r) (hlink : r.link = .lost) (hc : ∀ c, s.claimOn d = some c → c.state ≠ .orphan) :
    (s.faultOf (.dock d) .linkLoss ≠ none → exec (.faultClear tag body) s = .next
      { s with
        fault := { s.fault with table := resolvedIn s (.dock d) .linkLoss }
        host := { s.host with outgoing := s.host.outgoing ++ [.reply 0x99 tag .ok .nothing] }
        inFlight := s.inFlight.erase (.faultClear tag body) })
    ∧ (s.faultOf (.dock d) .linkLoss = none → OnlyRefused (.faultClear tag body) s 0x19 tag .notFound) := by
  have hclear := clearLinkLoss_other (s := s.taking (.faultClear tag body)) hr hlink hc
  refine ⟨fun hsome => faultClear_resolves hready hnamed (hclear.trans ?_), fun hnone => faultClear_refused hready hnamed (hclear.trans ?_)⟩
  · rw [resolveFault_linkLoss]
    exact if_pos (Option.isSome_iff_ne_none.mpr hsome)
  · exact if_neg (by rw [show (s.taking (.faultClear tag body)).faultOf (.dock d) .linkLoss = none from hnone]; decide)

/-! ### FAULT_LIST and FAULT_ACK -/

theorem faultList_answers {sel : Bool} {skip max : Nat} (hready : s.ready) (hbody : Operands.faultList body = .ok (sel, skip, max)) :
    ∀ chosen, chosen = (if sel then s.fault.table.filter (fun y => y.report == .new) else s.fault.table) →
      exec (.faultList tag body) s = .next
        { s with
          host := { s.host with outgoing := s.host.outgoing ++ [.reply 0x97 tag .ok (.faults
            { held := s.fault.table.length, selected := chosen.length, size := 4096 - s.store.layout.faultBase
              lost := s.fault.lost, records := (chosen.drop skip).take max })] }
          inFlight := s.inFlight.erase (.faultList tag body) } := by
  rintro chosen rfl
  simp only [exec, execFaultList]
  exact request_replies (s.taking _) .ok _ hready hbody rfl hready.2 rfl

theorem faultAck_acknowledges {y : FaultRecord} (hready : s.ready) (hnamed : Operands.faultName s body = .ok (x, k))
    (hy : s.faultOf x k = some y) : exec (.faultAck tag body) s = .next
      { s with
        fault := { s.fault with table :=
          (s.fault.table.filter fun z => !(z.subject == x && z.kind == k && z.condition == .resolved)).map fun z =>
            if z.subject = x ∧ z.kind = k then { z with report := .acked } else z }
        host := { s.host with outgoing := s.host.outgoing ++ [.reply 0x98 tag .ok (.condition y.condition)] }
        inFlight := s.inFlight.erase (.faultAck tag body) } := by
  simp only [exec, execFaultAck]
  refine request_replies ((s.taking (.faultAck tag body)).acknowledge x k) .ok (.condition y.condition) hready hnamed ?_ hready.2 rfl
  dsimp only
  rw [show (s.taking (.faultAck tag body)).faultOf x k = some y from hy]

theorem faultAck_missing (hready : s.ready) (hnamed : Operands.faultName s body = .ok (x, k)) (hnone : s.faultOf x k = none) :
    exec (.faultAck tag body) s = .next
      { s with
        host := { s.host with outgoing := s.host.outgoing ++ [.reply 0x98 tag .notFound .nothing] }
        inFlight := s.inFlight.erase (.faultAck tag body) } := by
  simp only [exec, execFaultAck]
  refine request_replies (s.taking (.faultAck tag body)) .notFound .nothing hready hnamed ?_ hready.2 rfl
  dsimp only
  rw [show (s.taking (.faultAck tag body)).faultOf x k = none from hnone]

end

/-- Settles O50: the list, the acknowledgement, and a clear by what it names. -/
theorem faultRequestsAreAnswered : Obligations.FaultRequestsAreAnswered := by
  intro s tag hready
  refine ⟨fun _ _ _ _ hbody => faultList_answers hready hbody, fun _ _ _ _ hnamed => faultAck_acknowledges hready hnamed,
    fun _ _ _ hnamed => faultAck_missing hready hnamed, fun body d r k hnamed hk hr => ⟨faultClear_dock hready hnamed hk hr, ?_⟩,
    fun body x k hnamed hk => faultClear_refused hready hnamed (wrongState_of_kind _ x hk), fun body b hnamed hkept => ⟨?_, ?_, ?_⟩,
    fun body d r hnamed hr => ⟨?_, ?_, ?_⟩⟩
  · exact fun hhold hnone => faultClear_refused hready hnamed
      ((clearFault_dock _ d hk).trans (clearDockKind_none (s := s.taking _) hr hhold hnone))
  · exact fun d r hr hbike h => faultClear_bike hready hnamed hkept hr hbike h
  · exact faultClear_absentBike hready hnamed
  · exact fun h hnone => faultClear_refused hready hnamed (clearRiderReport_none (s := s.taking _) hnone h)
  · exact fun hlink => faultClear_refused hready hnamed (clearLinkLoss_linked (s := s.taking _) hr hlink)
  · exact fun c hlink hc hcd horphan => faultClear_orphan hready hnamed hr hlink hc hcd horphan
  · exact faultClear_linkLoss hready hnamed hr

end Sys2Proof.Machine
end


section
/-! The van session: the end of a session and what it withdraws (R151, R152), and the order requests (R133, R134). -/

namespace Sys2Proof.Machine

/-! ### Entering CLOSING (R151) -/

/-- What the docks hold once the crew windows of these docks are withdrawn. -/
def State.withdrawWindows (s : State) (docks : List DockNo) : State :=
  docks.foldl (fun s d => s.onDock d fun r => { r with crewWindow := none }) s

theorem withdrawWindows_only : ∀ (docks : List DockNo) (s : State), Only [.dock] s (s.withdrawWindows docks)
  | [], s => Only.refl _ s
  | d :: docks, s => (show Only [.dock] s (s.onDock d fun r => { r with crewWindow := none }) by simp).trans
      (withdrawWindows_only docks _)

/-- No crew window stands at the dock. -/
def State.windowless (s : State) (d : DockNo) : Prop := ∀ r, s.dock? d = some r → r.crewWindow = none

theorem windowless_onDock {s : State} {w : DockNo} (d : DockNo) (h : w = d ∨ s.windowless w) :
    (s.onDock d fun r => { r with crewWindow := none }).windowless w := by
  intro r hr
  by_cases hw : w = d
  case pos =>
    subst hw
    rw [dock?_onDock_self] at hr
    obtain ⟨y, -, rfl⟩ := Option.map_eq_some_iff.mp hr
    rfl
  case neg =>
    rw [dock?_onDock_other s d w _ hw] at hr
    exact h.resolve_left hw r hr

theorem windowless_withdraw {w : DockNo} : ∀ (docks : List DockNo) (s : State), w ∈ docks ∨ s.windowless w →
    (s.withdrawWindows docks).windowless w
  | [], _, h => h.resolve_left (List.not_mem_nil)
  | d :: docks, s, h => windowless_withdraw docks _ (by
      rcases h with h | h
      · rcases List.mem_cons.mp h with rfl | h
        · exact .inr (windowless_onDock w (.inl rfl))
        · exact .inl h
      · exact .inr (windowless_onDock d (.inr h)))

theorem windowless_of_dock {s t : State} {w : DockNo} (h : s.windowless w) (hdock : t.dock = s.dock) : t.windowless w :=
  fun r hr => h r ((dock?_of_dock hdock w).symm.trans hr)

/-- The session as it stands in CLOSING. -/
def VanSession.closing (v : VanSession) (cause : CloseCause) : VanSession :=
  { v with state := .closing, cause := some cause, idleDeadline := none, windows := [] }

/-- The drops that a session asks for when it closes. -/
def VanSession.drops (v : VanSession) : List Instr := (v.docks.filter fun p => p.2 == .reserved).map fun p => .reservationDrop p.1

/-- The state of a session that has entered CLOSING, before its completion is tested. -/
def State.closingAs (s : State) (v : VanSession) (cause : CloseCause) : State :=
  ((s.postAll v.drops).withdrawWindows v.windows).onVan fun v => v.closing cause

/-- A session in CLOSING, as the act that closes it leaves it. -/
structure Closes (v : VanSession) (cause : CloseCause) (s t : State) : Prop where
  order : t.order = { s.order with session := some (v.closing cause) }
  inFlight : t.inFlight = s.inFlight ++ v.drops
  windows : ∀ w ∈ v.windows, t.windowless w
  only : Only [.inFlight, .dock, .order] s t

section
variable {s : State} {v : VanSession} {o : Order}

theorem closes_closingAs (cause : CloseCause) (hv : s.order.session = some v) : Closes v cause s (s.closingAs v cause) := by
  have honly := withdrawWindows_only v.windows (s.postAll v.drops)
  have horder : ((s.postAll v.drops).withdrawWindows v.windows).order = s.order := honly .order (by decide)
  refine ⟨?_, honly .inFlight (by decide), fun w hw => ?_, ?_⟩
  · unfold State.closingAs State.onVan State.onOrders
    dsimp only
    rw [horder, hv]
    rfl
  · exact windowless_of_dock (windowless_withdraw v.windows (s.postAll v.drops) (.inl hw)) rfl
  · exact (show Only [.inFlight, .dock, .order] s (s.postAll v.drops) by simp).trans ((honly.mono (by simp)).trans (by simp [State.closingAs]))

theorem enterClosing_eq (cause : CloseCause) (hv : s.order.session = some v) (hopened : v.state = .opened) :
    s.enterClosing cause = (s.closingAs v cause).testComplete := by
  unfold State.enterClosing
  rw [hv]
  dsimp only
  rw [if_pos hopened, List.map_map]
  rfl

/-- A CLOSING session with session docks left stays. -/
theorem testComplete_waits (hv : s.order.session = some v) (hdocks : v.docks ≠ []) : s.testComplete = s := by
  unfold State.testComplete
  rw [hv]
  exact if_neg fun h => hdocks h.2

theorem testComplete_opened (hv : s.order.session = some v) (hopened : v.state = .opened) : s.testComplete = s := by
  unfold State.testComplete
  rw [hv]
  exact if_neg fun h => by rw [hopened] at h; exact nomatch h.1

theorem testComplete_none (hv : s.order.session = none) : s.testComplete = s := by
  unfold State.testComplete
  rw [hv]

theorem testComplete_closes (hv : s.order.session = some v) (hclosing : v.state = .closing) (hdocks : v.docks = []) :
    s.testComplete = s.closeSession v := by
  unfold State.testComplete
  rw [hv]
  exact if_pos ⟨hclosing, hdocks⟩

/-- A session with session docks outstanding enters CLOSING and stays in it. -/
theorem enterClosing_waits (cause : CloseCause) (hv : s.order.session = some v) (hopened : v.state = .opened) (hdocks : v.docks ≠ []) :
    Closes v cause s (s.enterClosing cause) := by
  have hcloses := closes_closingAs cause hv
  rw [enterClosing_eq cause hv hopened,
    testComplete_waits (v := v.closing cause) (congrArg OrderUnit.session hcloses.order) hdocks]
  exact hcloses

/-! ### The requests (R133, R134) -/

theorem orderOf_isSome_iff {id : OrderId} : (s.orderOf id).isSome = true ↔ ∃ x ∈ s.order.queue, x.id = id := by
  simp [State.orderOf, List.find?_isSome]

theorem orderOf_none {id : OrderId} (h : ∀ x ∈ s.order.queue, x.id ≠ id) : s.orderOf id = none :=
  List.find?_eq_none.mpr fun x hx => by simpa using h x hx

theorem orderOf_id {id : OrderId} (h : s.orderOf id = some o) : o.id = id := by
  simpa using List.find?_some h

theorem orderOf_mem {id : OrderId} (h : s.orderOf id = some o) : o ∈ s.order.queue := List.mem_of_find?_eq_some h

theorem operands_orderId (id : OrderId) : Operands.orderId (bytesHalf id) = .ok id := by
  have hlen : (bytesHalf id).length = 2 := rfl
  have hfield : fieldAt (bytesHalf id) 0 2 = id.toNat := by
    have hlt := id.isLt
    simp only [fieldAt, bytesHalf, bytes2, natOfBytes, List.drop_zero, List.take, List.foldl, byteOf, BitVec.toNat_ofNat]
    omega
  unfold Operands.orderId Operands.fixed
  rw [if_pos hlen]
  simp [halfAt, hfield]

theorem cancelSession_opened (hv : s.order.session = some v) (hopened : v.state = .opened) :
    s.cancelSession = s.enterClosing .cancelled := if_pos (by simp [State.sessionOpen, hv, hopened])

theorem cancelSession_closing (hv : s.order.session = some v) (hclosing : v.state = .closing) :
    s.cancelSession = { s with order := { s.order with session := some { v with cause := some .cancelled } } } := by
  unfold State.cancelSession
  rw [if_neg (by simp [State.sessionOpen, hv, hclosing])]
  simp [State.onVan, State.onOrders, hv]

theorem orderAdd_answers {tag : Byte} {body : List Byte} (hready : s.ready) (hbody : Operands.orderAdd body = .ok o) :
    exec (.orderAdd tag body) s = .next
      { s with
        order := if (∀ x ∈ s.order.queue, x.id ≠ o.id) ∧ s.order.queue.length < 8 then
            { s.order with queue := s.order.queue ++ [o] } else s.order
        host := { s.host with outgoing := s.host.outgoing
          ++ [.reply 0x94 tag (if ∃ x ∈ s.order.queue, x.id = o.id then .duplicate
              else if s.order.queue.length < 8 then .ok else .tableFull) .nothing] }
        inFlight := s.inFlight.erase (.orderAdd tag body) } := by
  have hsome : ((s.taking (.orderAdd tag body)).orderOf o.id).isSome = true ↔ ∃ x ∈ s.order.queue, x.id = o.id :=
    orderOf_isSome_iff (s := s.taking _)
  simp only [exec, execOrderAdd]
  by_cases hheld : ∃ x ∈ s.order.queue, x.id = o.id
  case pos =>
    obtain ⟨x, hx, hid⟩ := id hheld
    rw [if_pos hheld, if_neg fun h => h.1 x hx hid]
    exact request_replies (s.taking _) .duplicate .nothing hready hbody (if_pos (hsome.mpr hheld)) hready.2 rfl
  case neg =>
    have hnew : ∀ x ∈ s.order.queue, x.id ≠ o.id := fun x hx hid => hheld ⟨x, hx, hid⟩
    rw [if_neg hheld]
    by_cases hroom : s.order.queue.length < 8
    case pos =>
      rw [if_pos hroom, if_pos ⟨hnew, hroom⟩]
      exact request_replies ((s.taking _).onOrders fun u => { u with queue := u.queue ++ [o] }) .ok .nothing hready hbody
        ((if_neg fun h => hheld (hsome.mp h)).trans (if_pos hroom)) hready.2 rfl
    case neg =>
      rw [if_neg hroom, if_neg fun h => hroom h.2]
      exact request_replies (s.taking _) .tableFull .nothing hready hbody
        ((if_neg fun h => hheld (hsome.mp h)).trans (if_neg hroom)) hready.2 rfl

theorem cancel_opened {tag : Byte} {i : Instr} (hi : i = .orderCancel tag (bytesHalf o.id)) (hready : s.ready)
    (ho : s.orderOf o.id = some o) (hactive : o.state = .active) (hv : s.order.session = some v) (hopened : v.state = .opened)
    (hdocks : v.docks ≠ []) :
    ∃ t, exec i s = .next t
        ∧ t.order = { s.order with session := some { v with state := .closing, cause := some .cancelled, idleDeadline := none,
                                                            windows := [] } }
        ∧ HandedOn i s t ((v.docks.filter fun p => p.2 == .reserved).map fun p => .reservationDrop p.1)
        ∧ Answered t 0x15 tag .ok .nothing ∧ Only [.host, .inFlight, .dock, .order] s t := by
  subst hi
  have hcloses := enterClosing_waits .cancelled (s := s.taking (.orderCancel tag (bytesHalf o.id))) hv hopened hdocks
  have hexec : exec (.orderCancel tag (bytesHalf o.id)) s = .next
      ((((s.taking (.orderCancel tag (bytesHalf o.id))).enterClosing .cancelled).reply 0x15 tag .ok).onHost HostLink.beginSending) := by
    simp only [exec, execOrderCancel]
    rw [request_ok hready.1 (operands_orderId o.id)]
    rw [show (s.taking (.orderCancel tag (bytesHalf o.id))).orderOf o.id = some o from ho]
    dsimp only
    rw [hactive]
    dsimp only
    rw [cancelSession_opened (s := s.taking _) hv hopened]
  have hreply : ∀ u : State, Only [.host] u ((u.reply 0x15 tag .ok).onHost HostLink.beginSending) := fun u => by simp
  exact ⟨_, hexec, hcloses.order, hcloses.inFlight, reply_answered _ _ _ _ _,
    Only.trans (by simp) ((hcloses.only.mono (by simp)).trans ((hreply _).mono (by simp)))⟩

end

/-- Settles O44: an order joins the queue, leaves it, or closes its session. -/
theorem ordersAreQueuedAndCancelled : Obligations.OrdersAreQueuedAndCancelled := by
  intro s tag hready
  refine ⟨fun _ _ hbody => orderAdd_answers hready hbody, fun id hnone => ?_, fun o ho hqueued => ?_,
    fun o v ho hactive hv hopened hdocks => cancel_opened rfl hready ho hactive hv hopened hdocks,
    fun o v ho hactive hv hclosing => ?_⟩
  · simp only [exec, execOrderCancel]
    refine request_replies (s.taking _) .notFound .nothing hready (operands_orderId id) ?_ hready.2 rfl
    rw [orderOf_none (s := s.taking _) hnone]
  · simp only [exec, execOrderCancel]
    refine request_replies ((s.taking _).onOrders fun u => { u with queue := u.queue.filter fun x => x.id != o.id }) .ok .nothing hready
      (operands_orderId o.id) ?_ hready.2 rfl
    rw [show (s.taking (.orderCancel tag (bytesHalf o.id))).orderOf o.id = some o from ho]
    dsimp only
    rw [hqueued]
  · simp only [exec, execOrderCancel]
    refine request_replies { s.taking (.orderCancel tag (bytesHalf o.id)) with
      order := { s.order with session := some { v with cause := some .cancelled } } } .ok .nothing hready (operands_orderId o.id) ?_
      hready.2 rfl
    dsimp only
    rw [show (s.taking (.orderCancel tag (bytesHalf o.id))).orderOf o.id = some o from ho]
    dsimp only
    rw [hactive]
    dsimp only
    rw [cancelSession_closing (s := s.taking _) hv hclosing]
    rfl

end Sys2Proof.Machine
end


section
/-! A session that opens, with its first placement pass (R123, R137, R138, R142). -/

namespace Sys2Proof.Machine

section
variable {s : State} {v : VanSession} {o : Order} {d : DockNo}

/-! ### A placement pass (R142) -/

/-- The state in which a pass has taken these docks, in this order. -/
def State.reserving (s : State) (v : VanSession) (taken : List DockNo) : State :=
  { s with
    release := { s.release with claims := s.release.claims ++ taken.map fun e => reservation e v.order }
    order := { s.order with session := some { v with
      docks := taken.foldl (fun docks e => docks.filter (fun p => p.1 != e) ++ [(e, .reserved)]) v.docks } }
    inFlight := s.inFlight ++ taken.map .dockClaimNotice }

theorem reserving_nil (hv : s.order.session = some v) : s.reserving v [] = s := by
  have horder : { s.order with session := some v } = s.order := by rw [← hv]
  unfold State.reserving
  simp only [List.map_nil, List.append_nil, List.foldl_nil, horder]

/-- A session once a dock has joined its session docks. -/
def VanSession.joined (v : VanSession) (d : DockNo) : VanSession :=
  { v with docks := v.docks.filter (fun p => p.1 != d) ++ [(d, .reserved)] }

theorem reserving_cons (s : State) (v : VanSession) (d : DockNo) (taken : List DockNo) :
    s.reserving v (d :: taken) = (s.reserving v [d]).reserving (v.joined d) taken := by
  unfold State.reserving VanSession.joined
  simp

/-- A dock that a pass can take. -/
def State.passable (s : State) (o : Order) (e : DockNo) : Bool := s.reservable o e && (s.requestOn e).isNone

theorem reservable_parts (h : s.reservable o d = true) : ∃ r, s.dock? d = some r ∧ s.claimOn d = none ∧ s.level d ≠ .closed := by
  unfold State.reservable at h
  cases hr : s.dock? d with
  | none =>
    rw [hr] at h
    exact nomatch h
  | some r =>
    rw [hr] at h
    simp only [Bool.and_eq_true, Option.isNone_iff_eq_none, bne_iff_ne] at h
    refine ⟨r, rfl, h.1.1.2, ?_⟩
    unfold State.level
    rw [hr]
    exact h.1.2

theorem passDock_takes (hv : s.order.session = some v) (ho : s.orderOf v.order = some o) (hroom : v.docks.length < s.target v)
    (h : s.passable o d = true) : s.passDock d = s.reserving v [d] := by
  obtain ⟨hreservable, hrequest⟩ := Bool.and_eq_true_iff.mp h
  obtain ⟨r, hr, hclaim, hlevel⟩ := reservable_parts hreservable
  unfold State.passDock
  rw [hv]
  dsimp only
  rw [ho]
  dsimp only
  rw [if_pos ⟨hroom, hreservable⟩,
    tryReserve_ok (reserve_placed hv hr hclaim (Option.isNone_iff_eq_none.mp hrequest) hlevel)]
  rfl

theorem passDock_skips (hv : s.order.session = some v) (ho : s.orderOf v.order = some o)
    (h : ¬ (v.docks.length < s.target v ∧ s.passable o d = true)) : s.passDock d = s := by
  unfold State.passDock
  rw [hv]
  dsimp only
  rw [ho]
  dsimp only
  split
  case isFalse => rfl
  case isTrue hpass =>
    obtain ⟨r, hr, -, -⟩ := reservable_parts hpass.2
    refine tryReserve_error (reserve_claimed (boundTo_own hv) hr (.inr ?_))
    refine Option.isSome_iff_ne_none.mpr fun hnone => h ⟨hpass.1, ?_⟩
    rw [State.passable, hpass.2, hnone]
    rfl

theorem passable_reserving {e : DockNo} (he : e ≠ d) : (s.reserving v [d]).passable o e = s.passable o e := by
  have hclaim : (s.reserving v [d]).claimOn e = s.claimOn e := by
    unfold State.claimOn State.reserving
    simp [List.find?_append, reservation, Ne.symm he]
  unfold State.passable State.reservable
  rw [hclaim]
  rfl

/-- A pass takes the docks of the lowest numbers that it can, while the session docks are fewer than the target. -/
theorem foldl_passDock : ∀ (docks : List DockNo) (s : State) (v : VanSession), docks.Nodup → s.order.session = some v →
    s.orderOf v.order = some o → docks.foldl State.passDock s =
      s.reserving v (passTakes (o.quantity - o.done - v.awaiting) v.docks (docks.filter (s.passable o)))
  | [], s, v, _, hv, _ => (reserving_nil hv).symm
  | d :: docks, s, v, hnodup, hv, ho => by
    have htarget : s.target v = o.quantity - o.done - v.awaiting := by
      unfold State.target
      rw [ho]
    obtain ⟨hd, hnodup⟩ := List.nodup_cons.mp hnodup
    rw [List.foldl_cons]
    by_cases hpass : s.passable o d = true
    case neg =>
      rw [passDock_skips hv ho fun h => hpass h.2, foldl_passDock docks s v hnodup hv ho, List.filter_cons_of_neg hpass]
    case pos =>
      rw [List.filter_cons_of_pos hpass]
      by_cases hroom : v.docks.length < s.target v
      case neg =>
        have htakes : ∀ candidates, passTakes (o.quantity - o.done - v.awaiting) v.docks candidates = [] := fun candidates => by
          cases candidates with
          | nil => rfl
          | cons e candidates => exact if_neg (htarget ▸ hroom)
        rw [passDock_skips hv ho fun h => hroom h.1, foldl_passDock docks s v hnodup hv ho, htakes, htakes]
      case pos =>
        have hsame : docks.filter ((s.reserving v [d]).passable o) = docks.filter (s.passable o) :=
          List.filter_congr fun e he => passable_reserving fun h => hd (h ▸ he)
        rw [passDock_takes hv ho hroom hpass,
          foldl_passDock docks (s.reserving v [d]) (v.joined d) hnodup rfl ho, hsame, passTakes,
          if_pos (htarget ▸ hroom)]
        exact (reserving_cons s v d _).symm

theorem placementPass_eq (hv : s.order.session = some v) (ho : s.orderOf v.order = some o) (hopened : v.state = .opened)
    (hpower : s.supply.power ≠ .reserve) : s.placementPass =
      s.reserving v (passTakes (o.quantity - o.done - v.awaiting) v.docks ((List.range s.dockCount).filter (s.passable o))) :=
  (if_pos ⟨by simp [State.sessionOpen, hv, hopened], hpower⟩).trans (foldl_passDock _ s v List.nodup_range hv ho)

theorem placementPass_none (h : s.sessionOpen = false ∨ s.supply.power = .reserve) : s.placementPass = s :=
  if_neg fun ⟨hopen, hpower⟩ => h.elim (fun h => by rw [h] at hopen; exact nomatch hopen) hpower

/-- The docks that a pass adds to a session without docks stay within its target. -/
theorem passTakes_length (target : Nat) : ∀ (candidates : List DockNo) (docks : List (DockNo × Mark)), docks.length ≤ target →
    ((passTakes target docks candidates).foldl (fun docks e => docks.filter (fun p => p.1 != e) ++ [(e, .reserved)]) docks).length
      ≤ target
  | [], _, h => h
  | e :: candidates, docks, h => by
    unfold passTakes
    split
    case isFalse => exact h
    case isTrue hroom =>
      rw [List.foldl_cons]
      refine passTakes_length target candidates _ ?_
      have hfilter := List.length_filter_le (fun p : DockNo × Mark => p.1 != e) docks
      rw [List.length_append, List.length_singleton]
      omega

/-! ### The opening conditions (R138) -/

theorem orderEligible_iff : s.orderEligible o = true ↔
    o.state = .queued ∧ ∀ x, o.notBefore = some x → s.store.clockUnset = false ∧ x ≤ s.store.clock := by
  unfold State.orderEligible State.clockReached
  cases o.notBefore <;> simp

theorem openingDenied_eq : s.openingDenied = (if s.store.station ≠ .serving then some .outOfService
      else if s.supply.power = .reserve then some .power
      else if ∀ o ∈ s.order.queue, ¬ (o.state = .queued
          ∧ ∀ x, o.notBefore = some x → s.store.clockUnset = false ∧ x ≤ s.store.clock) then some .noOrder
      else none) := by
  unfold State.openingDenied
  have hany : s.order.queue.any s.orderEligible = true ↔ ¬ ∀ o ∈ s.order.queue, ¬ (o.state = .queued
      ∧ ∀ x, o.notBefore = some x → s.store.clockUnset = false ∧ x ≤ s.store.clock) := by
    simp only [List.any_eq_true, orderEligible_iff, not_forall, not_not, exists_prop]
  by_cases heligible : s.order.queue.any s.orderEligible = true
  · simp only [heligible, if_true, if_neg (hany.mp heligible)]
  · simp only [if_neg heligible, if_pos (not_not.mp fun h => heligible (hany.mpr h))]

end

end Sys2Proof.Machine
end


section
/-! The tap that opens the session (R123, R137, R138). -/

namespace Sys2Proof.Machine

section
variable {s : State} {v : VanSession} {o : Order} {d : DockNo} {card : CardId} {place : Place}

/-! ### The order that becomes ACTIVE -/

/-- An order as its session makes it. -/
def Order.activeIf (id : OrderId) (x : Order) : Order := if x.id = id then { x with state := .active } else x

theorem activeIf_id (id : OrderId) (x : Order) : (x.activeIf id).id = x.id := by
  unfold Order.activeIf
  split <;> rfl

theorem orderOf_of_mem (hkept : s.ordersKept) (ho : o ∈ s.order.queue) : s.orderOf o.id = some o := by
  obtain ⟨-, hnodup, -⟩ := hkept
  unfold State.orderOf
  cases hfound : s.order.queue.find? (fun x => x.id == o.id) with
  | none => exact absurd (by simp) (List.find?_eq_none.mp hfound o ho)
  | some x =>
    have hid : x.id = o.id := by simpa using List.find?_some hfound
    exact congrArg some (List.inj_on_of_nodup_map hnodup (List.mem_of_find?_eq_some hfound) ho hid)

/-- A change of the queue that keeps every id leads an id to the changed order. -/
theorem find?_map_order {id : OrderId} {f : Order → Order} (hf : ∀ x, (f x).id = x.id) (queue : List Order) :
    (queue.map f).find? (fun x => x.id == id) = (queue.find? (fun x => x.id == id)).map f := by
  rw [List.find?_map]
  congr 2
  exact funext fun x => by simp [hf x]

/-! ### The opening (R138) -/

/-- The session as it opens. -/
def State.sessionFor (s : State) (card : CardId) (o : Order) : VanSession :=
  { state := .opened, order := o.id, card := card, cause := none, idleDeadline := some (s.now + s.settings.vanIdle), docks := []
    awaiting := 0, windows := [] }

/-- The booking is answered and the session stands, before the place is told. -/
def State.booked (s : State) (card : CardId) (o : Order) : State :=
  (s.journalArrival (·.onJournal fun j => { j with vanBooked := true })).onOrders fun u =>
    { queue := u.queue.map (Order.activeIf o.id), session := some (s.sessionFor card o) }

theorem openSession_def : s.openSession card place o = ((s.booked card o).tellPlace place .vanOpened).placementPass := rfl

theorem tellPlace_only (s : State) (place : Place) (x : CheckResult) : Only [.inFlight, .dock] s (s.tellPlace place x) := by
  cases place <;> simp [State.tellPlace]

/-- The docks that the first pass takes. -/
def State.firstDocks (s : State) (o : Order) : List DockNo :=
  passTakes (o.quantity - o.done) [] ((List.range s.dockCount).filter (s.passable { o with state := .active }))

theorem openSession_eq (hkept : s.ordersKept) (ho : o ∈ s.order.queue) (hpower : s.supply.power ≠ .reserve) :
    s.openSession card place o = ((s.booked card o).tellPlace place .vanOpened).reserving (s.sessionFor card o)
      (((s.booked card o).tellPlace place .vanOpened).firstDocks o) := by
  have honly := tellPlace_only (s.booked card o) place .vanOpened
  have harrived := arrived_journalArrival s (·.onJournal fun j => { j with vanBooked := true })
  have horder : ((s.booked card o).tellPlace place .vanOpened).order = (s.booked card o).order := honly .order (by decide)
  have hsupply : ((s.booked card o).tellPlace place .vanOpened).supply = s.supply :=
    SamePart.trans (p := .supply) (harrived.only .supply (by decide)) (honly .supply (by decide))
  have hqueue : (s.booked card o).order.queue = s.order.queue.map (Order.activeIf o.id) := by
    have hsame : (s.journalArrival (·.onJournal fun j => { j with vanBooked := true })).order = s.order := harrived.only .order (by decide)
    exact congrArg (fun u : OrderUnit => u.queue.map (Order.activeIf o.id)) hsame
  have hfound : ((s.booked card o).tellPlace place .vanOpened).orderOf o.id = some { o with state := .active } := by
    have hof : s.order.queue.find? (fun x => x.id == o.id) = some o := orderOf_of_mem hkept ho
    unfold State.orderOf
    rw [horder, hqueue, find?_map_order (activeIf_id o.id), hof, Option.map_some, Order.activeIf, if_pos rfl]
  rw [openSession_def, placementPass_eq (v := s.sessionFor card o) (congrArg OrderUnit.session horder) hfound rfl (by rw [hsupply]; exact hpower)]
  rfl

/-- A session that has opened on the order `o`, and what of it the act leaves elsewhere. -/
structure Opened (card : CardId) (o : Order) (s t : State) (v : VanSession) : Prop where
  session : t.order.session = some v
  state : v.state = .opened
  order : v.order = o.id
  card : v.card = card
  cause : v.cause = none
  idle : v.idleDeadline = some (s.now + s.store.live.vanIdle)
  awaiting : v.awaiting = 0
  windows : v.windows = []
  docks : v.docks.length ≤ o.quantity - o.done
  queue : t.order.queue = s.order.queue.map (fun x => if x.id = o.id then { x with state := .active } else x)
  booked : t.journal.vanBooked = true
  falls : FallIsNoticed s t

theorem opened_of_eq {c : Instr} {t : State} {taken : List DockNo}
    (htaken : taken = ((((s.taking c).booked card o).tellPlace place .vanOpened).firstDocks o))
    (ht : t = ((((s.taking c).booked card o).tellPlace place .vanOpened).reserving ((s.taking c).sessionFor card o) taken).onHost
      HostLink.beginSending) :
    Opened card o s t { (s.taking c).sessionFor card o with
      docks := taken.foldl (fun docks e => docks.filter (fun p => p.1 != e) ++ [(e, .reserved)]) [] } := by
  have honly := tellPlace_only ((s.taking c).booked card o) place .vanOpened
  have harrived := arrived_journalArrival (s.taking c) (·.onJournal fun j => { j with vanBooked := true })
  have hjournal : t.journal = ((s.taking c).journalArrival (·.onJournal fun j => { j with vanBooked := true })).journal := by
    rw [ht]
    exact honly .journal (by decide)
  have hstore : t.store = ((s.taking c).journalArrival (·.onJournal fun j => { j with vanBooked := true })).store := by
    rw [ht]
    exact honly .store (by decide)
  have hhost : t.host = (((s.taking c).journalArrival (·.onJournal fun j => { j with vanBooked := true })).host).beginSending := by
    rw [ht]
    exact congrArg HostLink.beginSending (honly .host (by decide))
  refine ⟨by rw [ht]; rfl, rfl, rfl, rfl, rfl, rfl, rfl, rfl, ?_, ?_, ?_,
    fall_of_arrival (c := c) (f := (·.onJournal fun j => { j with vanBooked := true })) ?_ (slack_of_parts hjournal hstore)⟩
  · rw [htaken]
    exact passTakes_length (o.quantity - o.done) _ [] (Nat.zero_le _)
  · have hqueue : t.order.queue = ((((s.taking c).booked card o).tellPlace place .vanOpened).order).queue := by
      rw [ht]
      rfl
    rw [hqueue, honly .order (by decide)]
    have hsame : ((s.taking c).journalArrival (·.onJournal fun j => { j with vanBooked := true })).order = s.order :=
      harrived.only .order (by decide)
    exact congrArg (fun u : OrderUnit => u.queue.map (Order.activeIf o.id)) hsame
  · rw [hjournal]
    exact harrived.vanBooked
  · rw [hhost]
    exact beginSending_noticeSet _

/-! ### The statement -/

theorem vanBooking_denied {why : DenyReason} {t : State} (hready : s.ready) (hv : s.order.session = none)
    (hwhy : s.openingDenied = some why) (ht : (s.taking (.vanBooking card place)).denyPlace place why = t) (hhost : t.host = s.host) :
    exec (.vanBooking card place) s = .next t := by
  simp only [exec, execVanBooking]
  refine ready_next hready t ?_ hhost
  rw [show (s.taking (.vanBooking card place)).order.session = none from hv,
    show (s.taking (.vanBooking card place)).openingDenied = some why from hwhy]
  exact ht

theorem vanBooking_tight {t : State} (hready : s.ready) (hv : s.order.session = none) (hwhy : s.openingDenied = none)
    (ho : s.order.queue.find? s.orderEligible = some o) (hslack : ¬ 1 ≤ s.slack)
    (ht : (s.taking (.vanBooking card place)).denyPlace place .tight = t) (hhost : t.host = s.host) :
    exec (.vanBooking card place) s = .next t := by
  simp only [exec, execVanBooking]
  refine ready_next hready t ?_ hhost
  rw [show (s.taking (.vanBooking card place)).order.session = none from hv,
    show (s.taking (.vanBooking card place)).openingDenied = none from hwhy,
    show (s.taking (.vanBooking card place)).order.queue.find? (s.taking (.vanBooking card place)).orderEligible = some o from ho]
  exact (if_neg hslack).trans ht

theorem vanBooking_opens (hready : s.ready) (hv : s.order.session = none) (hwhy : s.openingDenied = none)
    (ho : s.order.queue.find? s.orderEligible = some o) (hslack : 1 ≤ s.slack) : exec (.vanBooking card place) s = .next
      (((s.taking (.vanBooking card place)).openSession card place o).onHost HostLink.beginSending) := by
  simp only [exec, execVanBooking]
  rw [act_running hready.1, show (s.taking (.vanBooking card place)).order.session = none from hv,
    show (s.taking (.vanBooking card place)).openingDenied = none from hwhy,
    show (s.taking (.vanBooking card place)).order.queue.find? (s.taking (.vanBooking card place)).orderEligible = some o from ho]
  dsimp only
  rw [if_neg (by simp), if_pos (show 1 ≤ (s.taking (.vanBooking card place)).slack from hslack)]

theorem crewTap_denied {why : DenyReason} {t : State} (hready : s.ready) (hv : s.order.session = none)
    (hwhy : s.openingDenied = some why) (ht : (s.taking (.crewTap card place)).denyPlace place why = t) (hhost : t.host = s.host) :
    exec (.crewTap card place) s = .next t := by
  simp only [exec, execCrewTap]
  refine ready_next hready t ?_ hhost
  rw [show (s.taking (.crewTap card place)).order.session = none from hv,
    show (s.taking (.crewTap card place)).openingDenied = some why from hwhy]
  exact ht

theorem eligible_of_allowed (hwhy : s.openingDenied = none) : s.supply.power ≠ .reserve
    ∧ ∃ o, s.order.queue.find? s.orderEligible = some o := by
  unfold State.openingDenied at hwhy
  split at hwhy
  case isTrue => exact nomatch hwhy
  case isFalse =>
    split at hwhy
    case isTrue => exact nomatch hwhy
    case isFalse hpower =>
      split at hwhy
      case isFalse => exact nomatch hwhy
      case isTrue hany => exact ⟨hpower, Option.isSome_iff_exists.mp (List.find?_isSome.mpr (List.any_eq_true.mp hany))⟩

/-- An act whose effect is what the reader of a dock is told. -/
theorem reader_only {c : Instr} {r : DockRecord} (x : ReaderResult) (hr : s.dock? d = some r)
    (hexec : exec c s = .next ((s.taking c).readerDecided d x)) :
    ∃ t, exec c s = .next t ∧ t.dock? d = some { r with checkPending := false, readerResult := some x }
      ∧ HandedOn c s t [] ∧ OtherDocksSame d s t ∧ Only [.inFlight, .dock] s t :=
  ⟨_, hexec, dock?_readerDecided (s := s.taking c) x hr, (List.append_nil _).symm, (acts_readerDecided (s.taking c) d x).oth, by simp⟩

theorem opening_told {u : State} {x : TerminalId} {attempt : Nat} (taken : List DockNo) (w : VanSession) :
    .checkResultAtSession x attempt .vanOpened ∈ ((u.tellPlace (.terminal x attempt) .vanOpened).reserving w taken).inFlight :=
  List.mem_append_left _ (List.mem_append_right _ (List.mem_singleton_self _))

theorem opening_allowed {u t : State} (hdock : t.dock = (u.tellPlace (.reader d) .vanOpened).dock) : ∀ r', t.dock? d = some r' →
    r'.readerResult = some .allow ∧ r'.checkPending = false := by
  intro r' hr'
  have hat : (u.readerDecided d .allow).dock? d = some r' := (dock?_of_dock hdock d).symm.trans hr'
  rw [(acts_readerDecided u d .allow).at_] at hat
  obtain ⟨y, -, rfl⟩ := Option.map_eq_some_iff.mp hat
  exact ⟨rfl, rfl⟩

end

/-- Settles O45: the opening conditions, refused at a terminal and at a reader, and the session that opens. -/
theorem crewTapOpensTheSession : Obligations.CrewTapOpensTheSession := by
  intro s d r card why hready hr hkept hv hwhy
  rw [← openingDenied_eq] at hwhy
  subst hwhy
  refine ⟨fun place hnone => ?_, fun y x attempt hsome c hc => ?_, fun y hsome c hc => ?_, fun hnone hslack => ?_,
    fun x attempt hnone hslack => ?_, fun o x attempt hnone hslack ho => ?_, fun o hnone hslack ho => ?_⟩
  · simp only [exec, execCrewTap]
    refine ready_next hready _ ?_ rfl
    rw [show (s.taking (.crewTap card place)).order.session = none from hv,
      show (s.taking (.crewTap card place)).openingDenied = none from hnone]
    rfl
  · rcases List.mem_pair.mp hc with rfl | rfl
    · exact crewTap_denied hready hv hsome rfl rfl
    · exact vanBooking_denied hready hv hsome rfl rfl
  · rcases List.mem_pair.mp hc with rfl | rfl
    · exact reader_only (.deny y) hr (crewTap_denied hready hv hsome rfl rfl)
    · exact reader_only (.deny y) hr (vanBooking_denied hready hv hsome rfl rfl)
  · obtain ⟨-, o, ho⟩ := eligible_of_allowed hnone
    exact reader_only (.deny .tight) hr (vanBooking_tight hready hv hnone ho (by omega) rfl rfl)
  · obtain ⟨-, o, ho⟩ := eligible_of_allowed hnone
    exact vanBooking_tight hready hv hnone ho (by omega) rfl rfl
  · obtain ⟨hpower, -⟩ := eligible_of_allowed hnone
    have hexec := vanBooking_opens (card := card) (place := .terminal x attempt) hready hv hnone ho hslack
    rw [openSession_eq (s := s.taking _) hkept (List.mem_of_find?_eq_some ho) hpower] at hexec
    have hopened := opened_of_eq (s := s) (o := o) (card := card) (place := .terminal x attempt)
      (c := .vanBooking card (.terminal x attempt)) rfl rfl
    exact ⟨_, _, hexec, hopened.session, hopened.state, hopened.order, hopened.card, hopened.idle, hopened.queue, hopened.booked,
      hopened.falls, opening_told _ (s.sessionFor card o), (exec_only _ _ _ hexec).mono (by simp [parts])⟩
  · obtain ⟨hpower, -⟩ := eligible_of_allowed hnone
    have hexec := vanBooking_opens (card := card) (place := .reader d) hready hv hnone ho hslack
    rw [openSession_eq (s := s.taking _) hkept (List.mem_of_find?_eq_some ho) hpower] at hexec
    have hopened := opened_of_eq (s := s) (o := o) (card := card) (place := .reader d) (c := .vanBooking card (.reader d)) rfl rfl
    exact ⟨_, _, hexec, hopened.session, hopened.state, hopened.order, hopened.card, hopened.cause, hopened.idle, hopened.awaiting,
      hopened.windows, hopened.docks, hopened.queue, hopened.booked, hopened.falls,
      opening_allowed (u := (s.taking (.vanBooking card (.reader d))).booked card o) rfl,
      (exec_only _ _ _ hexec).mono (by simp [parts])⟩

end Sys2Proof.Machine
end


section
/-! The crew in an open session: its taps at docks and terminals, and placement passes (R137, R142 to R146). -/

namespace Sys2Proof.Machine

section
variable {s : State} {v : VanSession} {o : Order} {d : DockNo} {r : DockRecord} {card : CardId} {place : Place}

/-! ### The tap in an OPEN session (R137, R150) -/

/-- The session with its idle deadline restarted. -/
def VanSession.idleFrom (v : VanSession) (deadline : Elapsed) : VanSession := { v with idleDeadline := some deadline }

/-- The state in which a crew tap of an OPEN session is answered: the idle deadline restarted. -/
def State.tapping (s : State) (v : VanSession) (c : Instr) : State :=
  (s.taking c).onOrders fun u => { u with session := some (v.idleFrom (s.now + s.store.live.vanIdle)) }

theorem onVan_eq {u : State} (f : VanSession → VanSession) (hv : u.order.session = some v) :
    u.onVan f = u.onOrders fun w => { w with session := some (f v) } := by
  unfold State.onVan State.onOrders
  dsimp only
  rw [hv, Option.map_some]

theorem restartIdle_opened {u : State} (hv : u.order.session = some v) (hopened : v.state = .opened) :
    u.restartIdle = u.onOrders fun w => { w with session := some (v.idleFrom (u.now + u.store.live.vanIdle)) } := by
  unfold State.restartIdle
  rw [onVan_eq _ hv, if_pos hopened]
  rfl

theorem crewTap_opened {t : State} (hready : s.ready) (hv : s.order.session = some v) (hopened : v.state = .opened)
    (ht : (s.tapping v (.crewTap card place)).openTap v card place = t) (hhost : t.host = s.host) :
    exec (.crewTap card place) s = .next t := by
  simp only [exec, execCrewTap]
  refine ready_next hready t ?_ hhost
  rw [show (s.taking (.crewTap card place)).order.session = some v from hv]
  dsimp only
  rw [if_pos hopened, restartIdle_opened (u := s.taking _) hv hopened]
  exact ht

theorem crewTap_closing {t : State} (hready : s.ready) (hv : s.order.session = some v) (hclosing : v.state = .closing)
    (ht : (s.taking (.crewTap card place)).denyPlace place .busy = t) (hhost : t.host = s.host) :
    exec (.crewTap card place) s = .next t := by
  simp only [exec, execCrewTap]
  refine ready_next hready t ?_ hhost
  rw [show (s.taking (.crewTap card place)).order.session = some v from hv]
  dsimp only
  rw [if_neg (by rw [hclosing]; decide)]
  exact ht

theorem openTap_collect {u : State} (ho : u.orderOf v.order = some o) (hkind : o.kind = .collect) :
    u.openTap v card (.reader d) = u.collectTap v card d := by
  unfold State.openTap
  dsimp only
  rw [ho]
  dsimp only
  rw [hkind]

theorem openTap_deliver {u : State} (ho : u.orderOf v.order = some o) (hkind : o.kind = .deliver) :
    u.openTap v card (.reader d) = u.deliverTap v d := by
  unfold State.openTap
  dsimp only
  rw [ho]
  dsimp only
  rw [hkind]

/-- A tap in the session that the reader of its dock answers and nothing else follows. -/
theorem tap_answered {x : ReaderResult} (hready : s.ready) (hr : s.dock? d = some r) (hv : s.order.session = some v)
    (hopened : v.state = .opened)
    (ht : (s.tapping v (.crewTap card (.reader d))).openTap v card (.reader d) =
      (s.tapping v (.crewTap card (.reader d))).readerDecided d x) :
    ∃ t, exec (.crewTap card (.reader d)) s = .next t ∧ t.dock? d = some (decidedAt r x)
        ∧ t.order = { s.order with session := some { v with idleDeadline := some (s.now + s.store.live.vanIdle) } }
        ∧ HandedOn (.crewTap card (.reader d)) s t [] ∧ OtherDocksSame d s t ∧ Only [.inFlight, .dock, .order] s t := by
  have hexec := crewTap_opened hready hv hopened ht rfl
  exact ⟨_, hexec, dock?_readerDecided (s := s.tapping v _) x hr, rfl, (List.append_nil _).symm,
    (acts_readerDecided (s.tapping v (.crewTap card (.reader d))) d x).oth, by simp [State.tapping]⟩

/-! ### What stands, as the tap is taken -/

theorem marked_eq {mark : Mark} (h : v.docks.find? (fun p => p.1 == d) = some (d, mark)) : v.marked d = some mark := by
  unfold VanSession.marked
  rw [h]
  rfl

theorem marked_cases : v.marked d = none ∨ ∃ mark, v.marked d = some mark ∧ v.docks.find? (fun p => p.1 == d) = some (d, mark) := by
  unfold VanSession.marked
  cases h : v.docks.find? (fun p => p.1 == d) with
  | none => exact .inl rfl
  | some p =>
    have hd : p.1 = d := by simpa using List.find?_some h
    exact .inr ⟨p.2, rfl, by rw [← hd]⟩

theorem mem_taking {s : State} {c i : Instr} (hne : i ≠ c) : i ∈ (s.taking c).inFlight ↔ i ∈ s.inFlight :=
  List.mem_erase_of_ne hne

theorem standsIn_tapping {e : DockNo} : standsIn (s.tapping v (.crewTap card place)) v e ↔ standsIn s v e :=
  and_congr_right fun _ => not_congr (mem_taking (by simp))

theorem standsFor_tapping {e : DockNo} : (s.tapping v (.crewTap card place)).standsFor v e = true ↔ standsIn s v e :=
  (standsFor_iff _ _ _).trans standsIn_tapping

theorem canGiveUp_tapping {e : DockNo} : canGiveUp (s.tapping v (.crewTap card place)) v e ↔ canGiveUp s v e :=
  and_congr_right fun _ => and_congr standsIn_tapping (and_congr_right fun _ => and_congr_right fun _ =>
    forall_congr' fun _ => forall_congr' fun _ => not_congr (mem_taking (by simp)))

/-! ### A COLLECT session (R143, R144) -/

theorem collectTap_moves {u : State}
    (hreserved : v.docks.find? (fun p => p.1 == d) = some (d, .reserved) → u.standsFor v d = false)
    (hbooked : v.docks.find? (fun p => p.1 == d) ≠ some (d, .booked)) : u.collectTap v card d = u.moveTap v card d := by
  unfold State.collectTap
  rcases marked_cases (v := v) (d := d) with hnone | ⟨mark, hmark, hfound⟩
  · rw [hnone]
  · cases mark with
    | booked => exact absurd hfound hbooked
    | reserved =>
      rw [hmark]
      dsimp only
      rw [if_neg (by rw [hreserved hfound]; decide)]

theorem moveTap_refused {u : State} {why : DenyReason} (h : u.moveTests v d = .error why) :
    u.moveTap v card d = u.readerDecided d (.deny why) := by
  unfold State.moveTap
  rw [h]

theorem moveTap_moves {u : State} {h : DockNo} (hmoves : u.moveTests v d = .ok h) :
    u.moveTap v card d = (u.post (.reservationDrop h)).post (.vanReleaseRequest d v.order card) := by
  unfold State.moveTap
  rw [hmoves]

/-- The test that refuses the move of a reservation to the dock, before the reservation to give up is sought (R144). -/
def State.moveRefused (s : State) (d : DockNo) (r : DockRecord) (o : Order) : Option DenyReason :=
  if s.supply.power = .reserve then some .power
  else if s.claimOn d ≠ none then some .claimed
  else if r.occupancy ≠ .occupied then some .noBike
  else if r.lock ≠ .locked ∨ s.level d = .closed then some .dockLimit
  else if r.matchesClass o.cls = false then some .limit
  else none

theorem moveTests_eq {u : State} (hr : u.dock? d = some r) (ho : u.orderOf v.order = some o) : u.moveTests v d =
    match u.moveRefused d r o with
    | some why => .error why
    | none => match u.droppable v with
      | h :: _ => .ok h
      | [] => .error .limit := by
  unfold State.moveTests State.moveRefused
  rw [hr, ho]
  dsimp only
  simp only [Option.isSome_iff_ne_none, Bool.not_eq_true]
  split
  · rfl
  · split
    · rfl
    · split
      · rfl
      · split
        · rfl
        · split <;> rfl

/-! ### A DELIVER session (R146) -/

theorem windowDenied_none {u : State} (hr : u.dock? d = some r) (hclaim : u.claimOn d = none) (hempty : r.occupancy = .empty)
    (hlevel : u.level d ≠ .closed) (hopen : r.commanded = .opened ∨ r.acknowledged = .opened) : u.windowDenied v d = none := by
  have heff : r.effOpen = true := by simpa [DockRecord.effOpen] using hopen
  unfold State.windowDenied
  rw [hr, hclaim]
  simp [hempty, hlevel, heff]

/-- The record of a dock once a crew window stands there. -/
def DockRecord.windowed (w : CrewWindow) (r : DockRecord) : DockRecord := { r with crewWindow := some w }

theorem deliverTap_opens {u : State} {w : VanSession} (hw : u.order.session = some w) (h : u.windowDenied v d = none) :
    u.deliverTap v d = ((u.onDock d (.windowed ⟨u.now + u.store.live.crewWindow, v.order⟩)).onOrders fun x =>
      { x with session := some { w with windows := w.windows.filter (· != d) ++ [d] } }).readerDecided d .allow := by
  unfold State.deliverTap
  rw [h]
  exact congrArg (State.readerDecided · d .allow)
    (onVan_eq (u := u.onDock d (.windowed ⟨u.now + u.store.live.crewWindow, v.order⟩)) _ hw)

/-! ### The statement, case by case -/

theorem tap_releases (hready : s.ready) (hv : s.order.session = some v) (ho : s.orderOf v.order = some o)
    (hopened : v.state = .opened) (hkind : o.kind = .collect) (hmark : v.docks.find? (fun p => p.1 == d) = some (d, .reserved))
    (hstands : standsIn s v d) (hpower : s.supply.power ≠ .reserve) : exec (.crewTap card (.reader d)) s = .next
      { s with
        order := { s.order with session := some { v with idleDeadline := some (s.now + s.store.live.vanIdle) } }
        inFlight := s.inFlight.erase (.crewTap card (.reader d)) ++ [.vanReleaseRequest d v.order card] } := by
  refine crewTap_opened hready hv hopened ((openTap_collect (by exact ho) hkind).trans ?_) rfl
  unfold State.collectTap
  rw [marked_eq hmark]
  dsimp only
  rw [if_pos (standsFor_tapping.mpr hstands), if_neg (by exact hpower)]
  rfl

theorem tap_refusedThere {why : DenyReason} {mark : Mark} (hready : s.ready) (hr : s.dock? d = some r) (hv : s.order.session = some v)
    (ho : s.orderOf v.order = some o) (hopened : v.state = .opened) (hkind : o.kind = .collect)
    (hmark : v.docks.find? (fun p => p.1 == d) = some (d, mark))
    (hwhy : (mark = .reserved ∧ standsIn s v d ∧ s.supply.power = .reserve ∧ why = .power) ∨ (mark = .booked ∧ why = .claimed)) :
    ∃ t, exec (.crewTap card (.reader d)) s = .next t ∧ t.dock? d = some (decidedAt r (.deny why))
        ∧ t.order = { s.order with session := some { v with idleDeadline := some (s.now + s.store.live.vanIdle) } }
        ∧ HandedOn (.crewTap card (.reader d)) s t [] ∧ OtherDocksSame d s t ∧ Only [.inFlight, .dock, .order] s t := by
  refine tap_answered hready hr hv hopened ((openTap_collect (by exact ho) hkind).trans ?_)
  unfold State.collectTap
  rw [marked_eq hmark]
  rcases hwhy with ⟨rfl, hstands, hpower, rfl⟩ | ⟨rfl, rfl⟩
  · dsimp only
    rw [if_pos (standsFor_tapping.mpr hstands), if_pos (by exact hpower)]
  · rfl

theorem tap_opensWindow (hready : s.ready) (hr : s.dock? d = some r) (hv : s.order.session = some v) (ho : s.orderOf v.order = some o)
    (hopened : v.state = .opened) (hkind : o.kind = .deliver) (hclaim : s.claimOn d = none) (hempty : r.occupancy = .empty)
    (hlevel : s.level d ≠ .closed) (hslot : r.commanded = .opened ∨ r.acknowledged = .opened) :
    ∃ t, exec (.crewTap card (.reader d)) s = .next t
        ∧ t.dock? d = some { r with crewWindow := some ⟨s.now + s.store.live.crewWindow, v.order⟩, checkPending := false,
                                    readerResult := some .allow }
        ∧ t.order = { s.order with session := some { v with
            idleDeadline := some (s.now + s.store.live.vanIdle), windows := v.windows.filter (· != d) ++ [d] } }
        ∧ HandedOn (.crewTap card (.reader d)) s t [] ∧ OtherDocksSame d s t ∧ Only [.inFlight, .dock, .order] s t := by
  have hdenied := windowDenied_none (v := v) (u := s.tapping v (.crewTap card (.reader d))) hr hclaim hempty hlevel hslot
  have hexec := crewTap_opened (card := card) (place := .reader d) hready hv hopened
    ((openTap_deliver (u := s.tapping v (.crewTap card (.reader d))) ho hkind).trans (deliverTap_opens rfl hdenied)) rfl
  have hat : (s.onDock d (.windowed ⟨s.now + s.store.live.crewWindow, v.order⟩)).dock? d =
      some (r.windowed ⟨s.now + s.store.live.crewWindow, v.order⟩) := by
    rw [dock?_onDock_self, hr]
    rfl
  generalize hu : ((s.tapping v (.crewTap card (.reader d))).onDock d _).onOrders _ = u at hexec
  have hdock : u.dock = (s.onDock d (.windowed ⟨s.now + s.store.live.crewWindow, v.order⟩)).dock := by
    rw [← hu]
    rfl
  have hothers : OtherDocksSame d s (u.readerDecided d .allow) := by
    obtain ⟨hlength, hsame⟩ := (acts_readerDecided u d .allow).oth
    refine ⟨hlength.trans ?_, fun e he => (hsame e he).trans ((dock?_of_dock hdock e).trans (dock?_onDock_other s d e _ he))⟩
    rw [hdock]
    exact dockCount_onDock s d _
  refine ⟨_, hexec, dock?_readerDecided .allow ((dock?_of_dock hdock d).trans hat), ?_, ?_, hothers, ?_⟩
  · rw [← hu]
    rfl
  · rw [← hu]
    exact (List.append_nil _).symm
  · rw [← hu]
    simp [State.tapping]

/-- The head of the docks that can be given up is the highest. -/
theorem droppable_tapping {h : DockNo} (hgive : canGiveUp s v h) (hmax : ∀ e, canGiveUp s v e → e ≤ h) :
    ∃ rest, (s.tapping v (.crewTap card place)).droppable v = h :: rest := by
  have hmem := (mem_droppable _ _ _).mpr (canGiveUp_tapping (card := card) (place := place).mpr hgive)
  cases hlist : (s.tapping v (.crewTap card place)).droppable v with
  | nil =>
    rw [hlist] at hmem
    exact nomatch hmem
  | cons e rest =>
    obtain ⟨he, hbound⟩ := droppable_head_max hlist
    have heq : e = h := Nat.le_antisymm (hmax e (canGiveUp_tapping.mp he)) (hbound h (canGiveUp_tapping.mpr hgive))
    exact ⟨rest, by rw [heq]⟩

theorem tap_moves {h : DockNo} (hready : s.ready) (hr : s.dock? d = some r) (hv : s.order.session = some v)
    (ho : s.orderOf v.order = some o) (hopened : v.state = .opened) (hkind : o.kind = .collect)
    (hreserved : v.docks.find? (fun p => p.1 == d) = some (d, .reserved) → ¬ standsIn s v d)
    (hbooked : v.docks.find? (fun p => p.1 == d) ≠ some (d, .booked)) (hfree : s.moveRefused d r o = none)
    (hgive : canGiveUp s v h) (hmax : ∀ e, canGiveUp s v e → e ≤ h) : exec (.crewTap card (.reader d)) s = .next
      { s with
        order := { s.order with session := some { v with idleDeadline := some (s.now + s.store.live.vanIdle) } }
        inFlight := s.inFlight.erase (.crewTap card (.reader d)) ++ [.reservationDrop h, .vanReleaseRequest d v.order card] } := by
  obtain ⟨rest, hhead⟩ := droppable_tapping (card := card) (place := .reader d) hgive hmax
  have htests : (s.tapping v (.crewTap card (.reader d))).moveTests v d = .ok h := by
    rw [moveTests_eq (u := s.tapping v _) hr ho,
      show (s.tapping v (.crewTap card (.reader d))).moveRefused d r o = none from hfree, hhead]
  refine crewTap_opened hready hv hopened ((openTap_collect (by exact ho) hkind).trans ((collectTap_moves (fun hmark => ?_) hbooked).trans
    ((moveTap_moves htests).trans ?_))) rfl
  · exact Bool.eq_false_iff.mpr fun hstands => hreserved hmark (standsFor_tapping.mp hstands)
  · exact congrArg (fun l => { s with
        order := { s.order with session := some { v with idleDeadline := some (s.now + s.store.live.vanIdle) } }
        inFlight := l })
      (List.append_assoc (s.inFlight.erase (.crewTap card (.reader d))) [.reservationDrop h] [.vanReleaseRequest d v.order card])

theorem moveRefused_getD : (if s.supply.power = .reserve then some .power
          else if s.claimOn d ≠ none then some .claimed
          else if r.occupancy ≠ .occupied then some .noBike
          else if r.lock ≠ .locked ∨ s.level d = .closed then some .dockLimit
          else if r.matchesClass o.cls = false then some .limit
          else some DenyReason.limit) = some ((s.moveRefused d r o).getD .limit) := by
  unfold State.moveRefused
  split_ifs <;> rfl

theorem matches_of_free (h : s.moveRefused d r o = none) : r.matchesClass o.cls = true := by
  unfold State.moveRefused at h
  split_ifs at h with _ _ _ _ hclass
  exact Bool.not_eq_false _ ▸ hclass

theorem tap_refusedElsewhere {why : DenyReason} (hready : s.ready) (hr : s.dock? d = some r) (hv : s.order.session = some v)
    (ho : s.orderOf v.order = some o) (hopened : v.state = .opened) (hkind : o.kind = .collect)
    (hreserved : v.docks.find? (fun p => p.1 == d) = some (d, .reserved) → ¬ standsIn s v d)
    (hbooked : v.docks.find? (fun p => p.1 == d) ≠ some (d, .booked)) (hwhy : why = (s.moveRefused d r o).getD .limit)
    (hnone : why = .limit → r.matchesClass o.cls = true → ∀ h, ¬ canGiveUp s v h) :
    ∃ t, exec (.crewTap card (.reader d)) s = .next t ∧ t.dock? d = some (decidedAt r (.deny why))
        ∧ t.order = { s.order with session := some { v with idleDeadline := some (s.now + s.store.live.vanIdle) } }
        ∧ HandedOn (.crewTap card (.reader d)) s t [] ∧ OtherDocksSame d s t ∧ Only [.inFlight, .dock, .order] s t := by
  have htests : (s.tapping v (.crewTap card (.reader d))).moveTests v d = .error why := by
    rw [moveTests_eq (u := s.tapping v _) hr ho,
      show (s.tapping v (.crewTap card (.reader d))).moveRefused d r o = s.moveRefused d r o from rfl]
    cases hrefused : s.moveRefused d r o with
    | some x =>
      rw [hrefused] at hwhy
      rw [hwhy]
      rfl
    | none =>
      rw [hrefused] at hwhy
      have hempty : (s.tapping v (.crewTap card (.reader d))).droppable v = [] := List.eq_nil_iff_forall_not_mem.mpr fun h hmem =>
        hnone hwhy (matches_of_free hrefused) h (canGiveUp_tapping.mp ((mem_droppable _ _ _).mp hmem))
      rw [hempty, hwhy]
      rfl
  refine tap_answered hready hr hv hopened ((openTap_collect (by exact ho) hkind).trans ((collectTap_moves (fun hmark => ?_) hbooked).trans
    (moveTap_refused htests)))
  exact Bool.eq_false_iff.mpr fun hstands => hreserved hmark (standsFor_tapping.mp hstands)

theorem tap_closes {x : TerminalId} {attempt : Nat} (hready : s.ready) (hv : s.order.session = some v) (hopened : v.state = .opened)
    (hdocks : v.docks ≠ []) : ∃ t, exec (.crewTap card (.terminal x attempt)) s = .next t
        ∧ t.order = { s.order with session := some { v with state := .closing, cause := some .terminal, idleDeadline := none,
                                                            windows := [] } }
        ∧ HandedOn (.crewTap card (.terminal x attempt)) s t (.checkResultAtSession x attempt .vanClosed
            :: (v.docks.filter fun p => p.2 == .reserved).map fun p => .reservationDrop p.1)
        ∧ (∀ w ∈ v.windows, ∀ r', t.dock? w = some r' → r'.crewWindow = none) ∧ Only [.inFlight, .dock, .order] s t := by
  have hcloses := enterClosing_waits (v := v.idleFrom (s.now + s.store.live.vanIdle)) .terminal
    (s := (s.tapping v (.crewTap card (.terminal x attempt))).tellPlace (.terminal x attempt) .vanClosed) rfl hopened hdocks
  have hbefore : Only [.inFlight, .order] s ((s.tapping v (.crewTap card (.terminal x attempt))).tellPlace (.terminal x attempt) .vanClosed) := by
    simp [State.tellPlace, State.tapping]
  refine ⟨_, crewTap_opened (place := .terminal x attempt) hready hv hopened rfl ?_, hcloses.order, ?_, hcloses.windows,
    (hbefore.mono (by simp)).trans hcloses.only⟩
  · exact hcloses.only .host (by decide)
  · exact hcloses.inFlight.trans (List.append_assoc _ _ _)

theorem placementPass_takes {taken : List DockNo} (hready : s.ready) (hv : s.order.session = some v) (ho : s.orderOf v.order = some o)
    (hopened : v.state = .opened) (hpower : s.supply.power ≠ .reserve)
    (htaken : taken = passTakes (o.quantity - o.done - v.awaiting) v.docks
          ((List.range s.dockCount).filter fun e => s.reservable o e && (s.requestOn e).isNone)) :
    exec .placementPass s = .next
      { s with
        release := { s.release with claims := s.release.claims ++ taken.map fun e => reservation e v.order }
        order := { s.order with session := some { v with
          docks := taken.foldl (fun docks e => docks.filter (fun p => p.1 != e) ++ [(e, .reserved)]) v.docks } }
        inFlight := s.inFlight.erase .placementPass ++ taken.map .dockClaimNotice } := by
  subst htaken
  simp only [exec, execPlacementPass]
  exact ready_next hready _ (placementPass_eq (s := s.taking _) hv ho hopened hpower) rfl

end

/-- Settles O46: crew taps by where they fall and what they find, and placement passes. -/
theorem crewWorksInTheSession : Obligations.CrewWorksInTheSession := by
  intro s d r card v o hready hr hv ho
  refine ⟨fun hopened hkind hmark hstands hpower => tap_releases hready hv ho hopened hkind hmark hstands hpower,
    fun why mark hopened hkind hmark hwhy => tap_refusedThere hready hr hv ho hopened hkind hmark hwhy,
    fun hopened hkind hclaim hempty hlevel hslot => tap_opensWindow hready hr hv ho hopened hkind hclaim hempty hlevel hslot,
    fun hclosing => reader_only (.deny .busy) hr (crewTap_closing hready hv hclosing rfl rfl),
    fun hopened hkind hreserved hbooked hpower hclaim hoccupied hlocked hlevel hclass h hgive hmax => ?_,
    fun why hopened hkind hreserved hbooked hwhy hnone => ?_, fun x attempt hopened hdocks => tap_closes hready hv hopened hdocks,
    fun hopened hpower taken htaken => placementPass_takes hready hv ho hopened hpower htaken, fun h => ?_, fun u hu hnone => ?_⟩
  · refine tap_moves hready hr hv ho hopened hkind hreserved hbooked ?_ hgive hmax
    simp [State.moveRefused, hpower, hclaim, hoccupied, hlocked, hlevel, hclass]
  · rw [moveRefused_getD, Option.some_inj] at hwhy
    exact tap_refusedElsewhere hready hr hv ho hopened hkind hreserved hbooked hwhy hnone
  · refine onlyTaken_of_same hready (by simp only [exec, execPlacementPass]) (placementPass_none (h.imp_left fun hclosing => ?_))
    simp [State.sessionOpen, hv, hclosing]
  · refine onlyTaken_of_same hu (by simp only [exec, execPlacementPass]) (placementPass_none (.inl ?_))
    simp [State.sessionOpen, hnone]

end Sys2Proof.Machine
end


section
/-! The machine after its first power-up (R175, R179, R180). -/

namespace Sys2Proof.Machine

/-- After the reset every dock has the record that a dock without a controller has. -/
theorem reset_dock {d : DockNo} {r : DockRecord} (h : State.reset.dock? d = some r) : r = {} :=
  List.eq_of_mem_replicate (List.mem_of_getElem? h)

/-- No dock is OPEN or withheld, and no bike is held. -/
theorem reset_docksKept : slotsKept State.reset ∧ bikesKept State.reset := by
  refine ⟨fun d r hr hslot => ?_, ?_⟩
  · rw [reset_dock hr] at hslot
    rcases hslot with h | h <;> exact nomatch h
  · have hnone : State.reset.dock.table.filterMap (fun r => r.bike.map (·.id)) = [] :=
      List.filterMap_eq_nil_iff.mpr fun r hr => by rw [List.eq_of_mem_replicate hr]; rfl
    rw [bikesKept, hnone]
    exact List.nodup_nil

/-- The journal begins empty, its next entry numbered 1. -/
theorem reset_numbered : State.reset.numbered := ⟨by decide, fun _ h => (nomatch h), trivial⟩

theorem reset_configured : State.reset.configured :=
  ⟨by decide, by decide, fun _ h => (nomatch h), by decide, by decide⟩

theorem reset_hostBounded : State.reset.hostBounded := ⟨by decide, by decide, by decide, by decide⟩

/-- The tables begin empty. -/
theorem reset_tablesKept : State.reset.faultsKept ∧ State.reset.cardsKept ∧ State.reset.queriesKept ∧ State.reset.claimsKept
    ∧ State.reset.levelsKept ∧ State.reset.graceKept ∧ State.reset.ordersKept :=
  ⟨⟨by decide, List.nodup_nil, fun _ h => (nomatch h), by decide⟩, ⟨by decide, List.nodup_nil, fun _ h => nomatch h⟩,
    ⟨by decide, List.nodup_nil, List.nodup_nil, fun _ h => (nomatch h), by decide⟩,
    ⟨List.nodup_nil, List.nodup_nil, fun _ h => (nomatch h), fun _ h => (nomatch h), fun _ h => nomatch h⟩, fun _ h => (nomatch h),
    ⟨by decide, List.nodup_nil⟩, ⟨by decide, List.nodup_nil, fun _ h => nomatch h⟩⟩

theorem reset_terminalsKept : State.reset.terminalsKept := fun x => by cases x <;> exact ⟨by decide, fun _ => rfl⟩

/-- Settles O55: each field of the cold start, and each property that every step keeps. -/
theorem stateAfterReset : Obligations.StateAfterReset := by
  obtain ⟨hslots, hbikes⟩ := reset_docksKept
  obtain ⟨hfaults, hcards, hqueries, hclaims, hlevels, hgrace, horders⟩ := reset_tablesKept
  exact ⟨rfl, rfl, rfl, rfl, rfl, rfl, rfl, rfl, rfl, rfl, by decide, rfl, rfl, rfl, rfl, rfl, by decide, by decide, ⟨rfl, by decide⟩,
    reset_numbered, reset_configured, reset_hostBounded, hfaults, hcards, hqueries, hclaims, hlevels, hslots, hbikes, hgrace, horders,
    reset_terminalsKept⟩

end Sys2Proof.Machine
end


section
/-! The session counts its bikes, and ends with its entry (R139, R145, R147, R148, R150 to R152). -/

namespace Sys2Proof.Machine

section
variable {s u : State} {v w : VanSession} {o : Order} {d : DockNo}

/-! ### A count that rises (R145, R148) -/

/-- An order as one more bike leaves it. -/
def Order.countedIf (id : OrderId) (x : Order) : Order := if x.id = id then { x with done := min x.quantity (x.done + 1) } else x

theorem countedIf_id (id : OrderId) (x : Order) : (x.countedIf id).id = x.id := by
  unfold Order.countedIf
  split <;> rfl

/-- The state in which the count of the bound order has risen and its session is `w`. -/
def State.counting (s : State) (w : VanSession) : State :=
  s.onOrders fun x => { queue := x.queue.map (Order.countedIf w.order), session := some w }

theorem orderOf_counting (ho : s.orderOf w.order = some o) (hmore : o.done + 1 ≤ o.quantity) :
    (s.counting w).orderOf w.order = some { o with done := o.done + 1 } := by
  have hof : s.order.queue.find? (fun x => x.id == w.order) = some o := ho
  unfold State.orderOf State.counting State.onOrders
  rw [find?_map_order (countedIf_id w.order), hof, Option.map_some, Order.countedIf, if_pos (orderOf_id ho), Nat.min_eq_right hmore]

/-- The queue as the statements have it: no other order has this id. -/
theorem counted_queue (hkept : s.ordersKept) (ho : s.orderOf w.order = some o) (hmore : o.done + 1 ≤ o.quantity) :
    s.order.queue.map (Order.countedIf w.order) =
      s.order.queue.map fun x => if x.id = o.id then { x with done := o.done + 1 } else x := by
  obtain ⟨-, hnodup, -⟩ := hkept
  have hid := orderOf_id ho
  refine List.map_congr_left fun x hx => ?_
  unfold Order.countedIf
  rw [hid]
  split
  case isFalse => rfl
  case isTrue hx' =>
    obtain rfl : x = o := List.inj_on_of_nodup_map hnodup hx (orderOf_mem ho) (hx'.trans hid.symm)
    rw [Nat.min_eq_right hmore]

theorem filter_counted (id : OrderId) (queue : List Order) :
    (queue.map (Order.countedIf id)).filter (fun y => y.id != id) = queue.filter fun y => y.id != id := by
  rw [List.filter_map, show ((fun y : Order => y.id != id) ∘ Order.countedIf id) = fun y => y.id != id from
    funext fun x => by simp [countedIf_id]]
  refine (List.map_congr_left fun x hx => ?_).trans (List.map_id _)
  have hne : x.id ≠ id := by simpa using (List.mem_filter.mp hx).2
  exact if_neg hne

theorem countDone_restarts (hv : u.order.session = some v) (hopened : v.state = .opened) :
    (u.countDone v.order).restartIdle = u.counting (v.idleFrom (u.now + u.store.live.vanIdle)) :=
  restartIdle_opened (u := u.countDone v.order) hv hopened

/-! ### Held to the target (R139) -/

theorem holdToTarget_within (hw : u.order.session = some w) (h : w.docks.length ≤ u.target w) : u.holdToTarget = u := by
  have hstanding : u.standingDocks w ≤ u.target w := Nat.le_trans (List.length_filter_le _ _) h
  unfold State.holdToTarget
  rw [hw]
  dsimp only
  rw [Nat.sub_eq_zero_of_le hstanding]
  split
  · exact congrArg (fun l => { u with inFlight := l }) (List.append_nil u.inFlight)
  · rfl

theorem afterDone_more (ho : s.orderOf w.order = some o) (hmore : o.done + 1 < o.quantity)
    (hdocks : w.docks.length ≤ o.quantity - (o.done + 1) - w.awaiting) : (s.counting w).afterDone w.order = s.counting w := by
  have hof := orderOf_counting ho (Nat.le_of_lt hmore)
  have htarget : (s.counting w).target w = o.quantity - (o.done + 1) - w.awaiting := by
    unfold State.target
    rw [hof]
  unfold State.afterDone
  rw [hof, if_neg (by simpa using Nat.ne_of_lt hmore)]
  exact holdToTarget_within rfl (by rw [htarget]; exact hdocks)

theorem afterDone_reached (ho : s.orderOf w.order = some o) (hall : o.done + 1 = o.quantity) :
    (s.counting w).afterDone w.order = (s.counting w).enterClosing .done := by
  unfold State.afterDone
  rw [orderOf_counting ho (Nat.le_of_eq hall), if_pos (by simpa using hall)]

/-! ### The entry that ends a session (R152) -/

theorem windowless_slots {t : State} (h : SlotsOnly s t) (hd : s.windowless d) : t.windowless d := by
  intro r hr
  have hat := slotless_at h d
  rw [hr] at hat
  obtain ⟨r', hr', hsame⟩ := Option.map_eq_some_iff.mp hat.symm
  exact (congrArg DockRecord.crewWindow hsame).symm.trans (hd r' hr')

theorem windowless_arrival (s : State) (f : State → State) (h : (f s).windowless d) : (s.journalArrival f).windowless d := by
  have hslots : SlotsOnly (f s) (f s).admitWithheld :=
    admitUpTo_keeps (P := fun t => SlotsOnly (f s) t) (fun t e ht => ht.trans (slotsOnly_admitDock t e)) _ (.refl _)
  exact windowless_of_dock (windowless_slots hslots h) (journalArrival_only s f .dock (by decide))

/-- A session that has ended: its entry is written, and its order has left the queue. -/
structure SessionEnds (id : OrderId) (done quantity : Nat) (outcome : CloseOutcome) (s t : State) (e : Entry) : Prop where
  session : t.order.session = none
  queue : t.order.queue = s.order.queue.filter fun y => y.id != id
  entries : t.journal.entries = s.journal.entries ++ [e]
  kind : e.kind = .orderClosed
  seq : e.seq = s.store.nextSeq
  reference : e.reference = some (id.setWidth 32)
  done : e.done = some done
  quantity : e.quantity = some quantity
  outcome : e.outcome = some outcome
  vanBooked : t.journal.vanBooked = false
  noticed : NoticeKind.orderClosed.inSet t.host.noticeSet = true

/-- The arrival at the Journal Unit that writes the entry of the ending. -/
def State.closingWritten (s : State) (w : VanSession) (o : Order) : State :=
  s.writeEntry (.orderClosed w.order (closeOutcome w.cause o.done o.quantity) o.done o.quantity)

theorem closeSession_eq (ho : u.orderOf w.order = some o) : u.closeSession w =
    ((u.closingWritten w o).onOrders fun x => { queue := x.queue.filter fun y => y.id != w.order, session := none }).join .orderClosed := by
  unfold State.closeSession
  rw [ho]
  rfl

theorem closeSession_ends (ho : u.orderOf w.order = some o) :
    ∃ e, SessionEnds w.order o.done o.quantity (closeOutcome w.cause o.done o.quantity) u
      ((u.closeSession w).onHost HostLink.beginSending) e := by
  have harrived := arrived_journalArrival u (·.writeRequested (.orderClosed w.order (closeOutcome w.cause o.done o.quantity) o.done o.quantity))
  have horder : (u.closingWritten w o).order = u.order := harrived.only .order (by decide)
  rw [closeSession_eq ho]
  exact ⟨_,
    { session := rfl
      queue := congrArg (fun x : OrderUnit => x.queue.filter fun y : Order => y.id != w.order) horder
      entries := harrived.entries
      kind := rfl, seq := rfl, reference := rfl, done := rfl, quantity := rfl, outcome := rfl
      vanBooked := harrived.vanBooked
      noticed := joined_inSet _ _ }⟩

theorem closeSession_windowless (ho : u.orderOf w.order = some o) (hd : u.windowless d) :
    ((u.closeSession w).onHost HostLink.beginSending).windowless d := by
  rw [closeSession_eq ho]
  have hwritten : (u.closingWritten w o).windowless d := windowless_arrival u
    (·.writeRequested (.orderClosed w.order (closeOutcome w.cause o.done o.quantity) o.done o.quantity)) (windowless_of_dock hd rfl)
  exact windowless_of_dock hwritten rfl

/-- An OPEN session without session docks ends in the act that closes it. -/
theorem enterClosing_ends (cause : CloseCause) (hw : u.order.session = some w) (hopened : w.state = .opened) (hdocks : w.docks = [])
    (ho : u.orderOf w.order = some o) : (u.enterClosing cause).order.session = none
      ∧ (∃ e, SessionEnds w.order o.done o.quantity (closeOutcome (some cause) o.done o.quantity) u
          ((u.enterClosing cause).onHost HostLink.beginSending) e)
      ∧ ∀ d ∈ w.windows, ((u.enterClosing cause).onHost HostLink.beginSending).windowless d := by
  have hcloses := closes_closingAs cause hw
  have hqueue : (u.closingAs w cause).order.queue = u.order.queue := by rw [hcloses.order]
  have hjournal : (u.closingAs w cause).journal = u.journal := hcloses.only .journal (by decide)
  have hstore : (u.closingAs w cause).store = u.store := hcloses.only .store (by decide)
  have hof : (u.closingAs w cause).orderOf (w.closing cause).order = some o := by
    unfold State.orderOf
    rw [hqueue]
    exact ho
  obtain ⟨e, hends⟩ := closeSession_ends hof
  rw [enterClosing_eq cause hw hopened,
    testComplete_closes (v := w.closing cause) (congrArg OrderUnit.session hcloses.order) rfl hdocks]
  exact ⟨hends.session,
    ⟨e, { hends with
      queue := hends.queue.trans (by rw [hqueue]; rfl), entries := hends.entries.trans (by rw [hjournal])
      seq := hends.seq.trans (by rw [hstore]) }⟩,
    fun d hd => closeSession_windowless hof (hcloses.windows d hd)⟩

end

end Sys2Proof.Machine
end


section
/-! What reaches a session: claims that end, deliveries, crew insertions and its idle deadline (R145, R147, R148, R150). -/

namespace Sys2Proof.Machine

section
variable {s u : State} {v w : VanSession} {o : Order} {d : DockNo} {c : Instr}

/-! ### The count that has risen (R139, R151, R152) -/

/-- What an act makes of the count of the order `id` whose session is `w`, its session docks held to the target or the session closed. -/
def State.countedBy (s : State) (c : Instr) (w : VanSession) (id : OrderId) : State := ((s.taking c).counting w).afterDone id

section
variable {id : OrderId} (c : Instr) (hkept : s.ordersKept) (hid : w.order = id) (ho : s.orderOf id = some o) (hopened : w.state = .opened)
include hid ho hopened

theorem countedBy_more (hmore : o.done + 1 < o.quantity) (hdocks : w.docks.length ≤ o.quantity - (o.done + 1) - w.awaiting) :
    s.countedBy c w id = (s.taking c).counting w ∧ (s.countedBy c w id).testComplete = (s.taking c).counting w := by
  subst hid
  have hafter := afterDone_more (s := s.taking c) ho hmore hdocks
  unfold State.countedBy
  rw [hafter]
  exact ⟨rfl, testComplete_opened (v := w) rfl hopened⟩

/-- The session closes with cause DONE, session docks outstanding. -/
theorem countedBy_closes (hall : o.done + 1 = o.quantity) (hdocks : w.docks ≠ []) :
    Closes w .done ((s.taking c).counting w) (s.countedBy c w id)
      ∧ (s.countedBy c w id).testComplete = s.countedBy c w id := by
  subst hid
  have hcloses := enterClosing_waits (v := w) .done (s := (s.taking c).counting w) rfl hopened hdocks
  unfold State.countedBy
  rw [afterDone_reached (s := s.taking c) ho hall]
  exact ⟨hcloses, testComplete_waits (v := w.closing .done) (congrArg OrderUnit.session hcloses.order) hdocks⟩

/-- The session ends with cause DONE at once. -/
theorem countedBy_ends (hall : o.done + 1 = o.quantity) (hdocks : w.docks = []) :
    (s.countedBy c w id).testComplete = s.countedBy c w id
      ∧ (∃ e, SessionEnds id o.quantity o.quantity .done s ((s.countedBy c w id).onHost HostLink.beginSending) e)
      ∧ ∀ e ∈ w.windows, ((s.countedBy c w id).onHost HostLink.beginSending).windowless e := by
  subst hid
  obtain ⟨hnone, ⟨e, hends⟩, hwindows⟩ := enterClosing_ends .done (u := (s.taking c).counting w) rfl hopened hdocks
    (orderOf_counting (s := s.taking c) ho (Nat.le_of_eq hall))
  have houtcome : closeOutcome (some .done) (o.done + 1) o.quantity = .done := by
    rw [hall]
    exact (if_neg (by decide)).trans (if_pos rfl)
  unfold State.countedBy
  rw [afterDone_reached (s := s.taking c) ho hall]
  exact ⟨testComplete_none hnone, ⟨e, { hends with
    queue := hends.queue.trans (filter_counted w.order s.order.queue), done := hall ▸ hends.done
    outcome := houtcome ▸ hends.outcome }⟩, hwindows⟩

end

/-- The order unit of a session that closes with its count, as the statements have it. -/
theorem closes_order {t : State} {id : OrderId} (hkept : s.ordersKept) (hid : w.order = id) (ho : s.orderOf id = some o)
    (hall : o.done + 1 = o.quantity) (h : Closes w .done ((s.taking c).counting w) t) : t.order =
      { queue := s.order.queue.map fun x => if x.id = o.id then { x with done := o.quantity } else x
        session := some (w.closing .done) } := by
  subst hid
  have hqueue := counted_queue hkept ho (Nat.le_of_eq hall)
  rw [hall] at hqueue
  rw [h.order, ← hqueue]
  rfl

theorem closes_only {t : State} (h : Closes w .done ((s.taking c).counting w) t) : Only [.inFlight, .dock, .order] s t :=
  (show Only [.inFlight, .dock, .order] s ((s.taking c).counting w) by simp [State.counting]).trans h.only

/-! ### VAN_CLAIM_NOTICE (R145) -/

theorem leaveDock_leaves (hv : u.order.session = some v) (hnot : ¬ countsAt u d v.order) :
    u.leaveDock d v.order = u.onOrders fun x => { x with session := some (v.leave d) } := by
  unfold State.leaveDock
  rw [if_neg fun h => hnot ((countsClaim_iff _ _ _).mp h), onVan_eq _ hv]

theorem leaveDock_stays (hcounts : countsAt u d v.order) : u.leaveDock d v.order = u :=
  if_pos ((countsClaim_iff _ _ _).mpr hcounts)

theorem claim_counts (c : Instr) (hv : s.order.session = some v) (hopened : v.state = .opened) (hnot : ¬ countsAt s d v.order) :
    ((((s.taking c).leaveDock d v.order).countDone v.order).restartIdle) =
      (s.taking c).counting ((v.leave d).idleFrom (s.now + s.store.live.vanIdle)) := by
  rw [leaveDock_leaves (u := s.taking c) hv hnot]
  exact countDone_restarts (v := v.leave d) rfl hopened

theorem exec_claimTaken (hready : s.ready) (hv : s.order.session = some v) (hopened : v.state = .opened) (hmarked : v.marked d ≠ none)
    (hnot : ¬ countsAt s d v.order) : exec (.vanClaimNotice d v.order .taken) s = .next
      ((s.countedBy (.vanClaimNotice d v.order .taken) ((v.leave d).idleFrom (s.now + s.store.live.vanIdle)) v.order).testComplete.onHost
        HostLink.beginSending) := by
  simp only [exec, execVanClaimNotice]
  rw [act_running hready.1, boundTo_own (s := s.taking _) hv]
  dsimp only
  rw [if_neg (by simpa using hmarked), claim_counts _ hv hopened hnot]
  rfl

/-- An act that leaves the host as it is sends nothing. -/
theorem next_same {i : Instr} {t : State} (hready : s.ready) (hexec : exec i s = .next (t.onHost HostLink.beginSending))
    (hhost : t.host = s.host) : exec i s = .next t := by
  have hsame : t.onHost HostLink.beginSending = t := by
    unfold State.onHost
    rw [hhost, beginSending_of_begun hready.2, ← hhost]
  rw [hexec, hsame]

theorem claim_lost {t : State} (hready : s.ready) (hv : s.order.session = some v) (hmarked : v.marked d ≠ none)
    (ht : (((s.taking (.vanClaimNotice d v.order .lapsedOrFailed)).leaveDock d v.order).postPass).testComplete = t) (hhost : t.host = s.host) :
    exec (.vanClaimNotice d v.order .lapsedOrFailed) s = .next t := by
  simp only [exec, execVanClaimNotice]
  refine ready_next hready t ?_ hhost
  rw [boundTo_own (s := s.taking _) hv]
  dsimp only
  rw [if_neg (by simpa using hmarked)]
  exact ht

/-- The pass that is due while the session is OPEN. -/
theorem pass_due (hw : u.order.session = some w) (hopened : w.state = .opened) :
    u.postPass.testComplete = { u with inFlight := u.inFlight ++ [.placementPass] } := by
  have hdue : passDue u = [.placementPass] := if_pos (by simp [State.sessionOpen, hw, hopened])
  rw [postPass_eq, hdue]
  exact testComplete_opened (v := w) hw hopened

theorem claimTaken_more (hready : s.ready) (hkept : s.ordersKept) (hv : s.order.session = some v) (ho : s.orderOf v.order = some o)
    (hopened : v.state = .opened) (hmarked : v.marked d ≠ none) (hnot : ¬ countsAt s d v.order) (hmore : o.done + 1 < o.quantity)
    (hdocks : v.docks.length ≤ o.quantity - o.done - v.awaiting) (hone : (v.docks.filter fun p => p.1 == d).length = 1) :
    exec (.vanClaimNotice d v.order .taken) s = .next
      { s with
        order := { queue := s.order.queue.map fun x => if x.id = o.id then { x with done := o.done + 1 } else x
                   session := some { v with docks := v.docks.filter (fun p => p.1 != d)
                                            idleDeadline := some (s.now + s.store.live.vanIdle) } }
        inFlight := s.inFlight.erase (.vanClaimNotice d v.order .taken) } := by
  have hleft : (v.docks.filter fun p => p.1 != d).length ≤ o.quantity - (o.done + 1) - v.awaiting := by
    have hsum := List.length_eq_length_filter_add (l := v.docks) fun p : DockNo × Mark => p.1 == d
    have hsame : (v.docks.filter fun p => !(p.1 == d)) = v.docks.filter fun p => p.1 != d := rfl
    rw [hone, hsame] at hsum
    omega
  have hexec := exec_claimTaken hready hv hopened hmarked hnot
  obtain ⟨-, hafter⟩ := countedBy_more (id := v.order) (.vanClaimNotice d v.order .taken)
    (w := (v.leave d).idleFrom (s.now + s.store.live.vanIdle)) rfl ho hopened hmore hleft
  rw [hafter] at hexec
  rw [next_same hready hexec rfl, ← counted_queue hkept ho (Nat.le_of_lt hmore)]
  rfl

theorem leave_drops : (v.leave d).drops = (v.docks.filter fun p => p.1 != d && p.2 == .reserved).map fun p => .reservationDrop p.1 := by
  unfold VanSession.drops VanSession.leave
  dsimp only
  rw [List.filter_filter]
  congr 2
  exact funext fun p => Bool.and_comm _ _

theorem claimTaken_closes (hready : s.ready) (hkept : s.ordersKept) (hv : s.order.session = some v) (ho : s.orderOf v.order = some o)
    (hopened : v.state = .opened) (hmarked : v.marked d ≠ none) (hnot : ¬ countsAt s d v.order) (hall : o.done + 1 = o.quantity)
    (hleft : ∃ p ∈ v.docks, p.1 ≠ d) : ∃ t, exec (.vanClaimNotice d v.order .taken) s = .next t
        ∧ t.order = { queue := s.order.queue.map fun x => if x.id = o.id then { x with done := o.quantity } else x
                      session := some { v with docks := v.docks.filter (fun p => p.1 != d), state := .closing
                                               cause := some .done, idleDeadline := none, windows := [] } }
        ∧ HandedOn (.vanClaimNotice d v.order .taken) s t
            ((v.docks.filter fun p => p.1 != d && p.2 == .reserved).map fun p => .reservationDrop p.1)
        ∧ (∀ w ∈ v.windows, ∀ r', t.dock? w = some r' → r'.crewWindow = none) ∧ Only [.inFlight, .dock, .order] s t := by
  have hdocks : (v.docks.filter fun p => p.1 != d) ≠ [] := by
    obtain ⟨p, hp, hne⟩ := hleft
    exact List.ne_nil_of_mem (List.mem_filter.mpr ⟨hp, by simpa using hne⟩)
  have hexec := exec_claimTaken hready hv hopened hmarked hnot
  obtain ⟨hcloses, hsame⟩ := countedBy_closes (id := v.order) (.vanClaimNotice d v.order .taken)
    (w := (v.leave d).idleFrom (s.now + s.store.live.vanIdle)) rfl ho hopened hall hdocks
  rw [hsame] at hexec
  have honly := closes_only hcloses
  refine ⟨_, next_same hready hexec (honly .host (by decide)),
    closes_order (w := (v.leave d).idleFrom (s.now + s.store.live.vanIdle)) hkept rfl ho hall hcloses, ?_,
    hcloses.windows, honly⟩
  rw [← leave_drops]
  exact hcloses.inFlight

theorem claimTaken_ends (hready : s.ready) (hv : s.order.session = some v) (ho : s.orderOf v.order = some o)
    (hopened : v.state = .opened) (hmarked : v.marked d ≠ none) (hnot : ¬ countsAt s d v.order) (hall : o.done + 1 = o.quantity)
    (hlast : ∀ p ∈ v.docks, p.1 = d) : ∃ t e, exec (.vanClaimNotice d v.order .taken) s = .next t
        ∧ SessionEnds v.order o.quantity o.quantity .done s t e
        ∧ (∀ w ∈ v.windows, ∀ r', t.dock? w = some r' → r'.crewWindow = none) := by
  have hdocks : (v.docks.filter fun p => p.1 != d) = [] := List.filter_eq_nil_iff.mpr fun p hp => by simp [hlast p hp]
  have hexec := exec_claimTaken hready hv hopened hmarked hnot
  obtain ⟨hsame, ⟨e, hends⟩, hwindows⟩ := countedBy_ends (id := v.order) (.vanClaimNotice d v.order .taken)
    (w := (v.leave d).idleFrom (s.now + s.store.live.vanIdle)) rfl ho hopened hall hdocks
  rw [hsame] at hexec
  exact ⟨_, e, hexec, hends, hwindows⟩

/-! ### CREW_INSERTION_NOTICE and VAN_IN_NOTICE (R147, R148) -/

theorem holdToTarget_empty (hw : u.order.session = some w) (hdocks : w.docks = []) : u.holdToTarget = u :=
  holdToTarget_within hw (by rw [hdocks]; exact Nat.zero_le _)

theorem crewInsertion_awaits (hready : s.ready) (hv : s.order.session = some v) (hopened : v.state = .opened) (hdocks : v.docks = []) :
    exec (.crewInsertionNotice d (.inserted (some v.order))) s = .next
      { s with
        order := { s.order with session := some { v with awaiting := min 64 (v.awaiting + 1)
                                                         windows := v.windows.filter (· != d) } }
        inFlight := s.inFlight.erase (.crewInsertionNotice d (.inserted (some v.order))) } := by
  have hnone : (v.docks.filter fun p => !(p.1 == d && p.2 == .reserved)) = v.docks := by rw [hdocks]; rfl
  simp only [exec, execCrewInsertionNotice]
  refine ready_next hready _ ?_ rfl
  rw [show (s.taking (.crewInsertionNotice d (.inserted (some v.order)))).order.session = some v from hv]
  dsimp only
  rw [if_pos rfl, onVan_eq (u := s.taking _) _ hv, hnone,
    holdToTarget_empty (w := { v with awaiting := min 64 (v.awaiting + 1), windows := v.windows.filter (· != d) }) rfl hdocks]
  exact testComplete_opened (v := { v with awaiting := min 64 (v.awaiting + 1), windows := v.windows.filter (· != d) }) rfl hopened

/-- The session with one delivery less to await. -/
def VanSession.delivered (v : VanSession) : VanSession := { v with awaiting := v.awaiting - 1 }

theorem exec_vanIn {seq : SeqNo} {identified : Bool} (hready : s.ready) (hv : s.order.session = some v) (hopened : v.state = .opened) :
    exec (.vanInNotice v.order d seq identified) s = .next
      ((s.countedBy (.vanInNotice v.order d seq identified) (v.delivered.idleFrom (s.now + s.store.live.vanIdle)) v.order).onHost
        HostLink.beginSending) := by
  simp only [exec, execVanInNotice]
  rw [act_running hready.1, boundTo_own (s := s.taking _) hv]
  dsimp only
  rw [onVan_eq (u := (s.taking _).countDone v.order) (v := v) _ hv, restartIdle_opened (v := v.delivered) rfl hopened]
  rfl

theorem vanIn_more (seq : SeqNo) (identified : Bool) (hready : s.ready) (hkept : s.ordersKept) (hv : s.order.session = some v)
    (ho : s.orderOf v.order = some o) (hopened : v.state = .opened) (hmore : o.done + 1 < o.quantity) (hdocks : v.docks = []) :
    exec (.vanInNotice v.order d seq identified) s = .next
      { s with
        order := { queue := s.order.queue.map fun x => if x.id = o.id then { x with done := o.done + 1 } else x
                   session := some { v with awaiting := v.awaiting - 1
                                            idleDeadline := some (s.now + s.store.live.vanIdle) } }
        inFlight := s.inFlight.erase (.vanInNotice v.order d seq identified) } := by
  have hexec := exec_vanIn (d := d) (seq := seq) (identified := identified) hready hv hopened
  obtain ⟨hafter, -⟩ := countedBy_more (id := v.order) (.vanInNotice v.order d seq identified)
    (w := v.delivered.idleFrom (s.now + s.store.live.vanIdle)) rfl ho hopened hmore (by
      rw [show (v.delivered.idleFrom (s.now + s.store.live.vanIdle)).docks = [] from hdocks]
      exact Nat.zero_le _)
  rw [hafter] at hexec
  rw [next_same hready hexec rfl, ← counted_queue hkept ho (Nat.le_of_lt hmore)]
  rfl

theorem vanIn_closes (seq : SeqNo) (identified : Bool) (hready : s.ready) (hkept : s.ordersKept) (hv : s.order.session = some v)
    (ho : s.orderOf v.order = some o) (hopened : v.state = .opened) (hall : o.done + 1 = o.quantity) (hdocks : v.docks ≠ []) :
    ∃ t, exec (.vanInNotice v.order d seq identified) s = .next t
        ∧ t.order = { queue := s.order.queue.map fun x => if x.id = o.id then { x with done := o.quantity } else x
                      session := some { v with awaiting := v.awaiting - 1, state := .closing, cause := some .done
                                               idleDeadline := none, windows := [] } }
        ∧ HandedOn (.vanInNotice v.order d seq identified) s t
            ((v.docks.filter fun p => p.2 == .reserved).map fun p => .reservationDrop p.1)
        ∧ (∀ w ∈ v.windows, ∀ r', t.dock? w = some r' → r'.crewWindow = none) ∧ Only [.inFlight, .dock, .order] s t := by
  have hexec := exec_vanIn (d := d) (seq := seq) (identified := identified) hready hv hopened
  obtain ⟨hcloses, -⟩ := countedBy_closes (id := v.order) (.vanInNotice v.order d seq identified)
    (w := v.delivered.idleFrom (s.now + s.store.live.vanIdle)) rfl ho hopened hall hdocks
  have honly := closes_only hcloses
  exact ⟨_, next_same hready hexec (honly .host (by decide)),
    closes_order (w := v.delivered.idleFrom (s.now + s.store.live.vanIdle)) hkept rfl ho hall hcloses,
    hcloses.inFlight, hcloses.windows, honly⟩

/-! ### The idle deadline (R150) -/

theorem idle_ends {x : Elapsed} (hready : s.ready) (hv : s.order.session = some v) (ho : s.orderOf v.order = some o)
    (hopened : v.state = .opened) (hdeadline : v.idleDeadline = some x) (hdue : x ≤ s.now) (hdocks : v.docks = []) :
    ∃ t e, exec .vanIdleDeadline s = .next t
      ∧ SessionEnds v.order o.done o.quantity (if o.done = o.quantity then .done else .partly) s t e := by
  obtain ⟨-, ⟨e, hends⟩, -⟩ := enterClosing_ends .idle (u := s.taking .vanIdleDeadline) hv hopened hdocks ho
  refine ⟨_, e, ?_, { hends with }⟩
  simp only [exec, execVanIdleDeadline]
  rw [act_running hready.1, if_pos]
  rw [show (s.taking .vanIdleDeadline).order.session = some v from hv]
  simp [hopened, reached_of_le (s := s.taking .vanIdleDeadline) hdeadline hdue]

theorem idle_early {x : Elapsed} (hready : s.ready) (hv : s.order.session = some v) (hdeadline : v.idleDeadline = some x) (hnot : s.now < x) :
    OnlyTaken .vanIdleDeadline s := by
  refine onlyTaken_of_same hready (by simp only [exec, execVanIdleDeadline]; rfl) (if_neg ?_)
  rw [show (s.taking .vanIdleDeadline).order.session = some v from hv]
  simp [hdeadline, State.reached, Nat.not_le.mpr hnot]

end

/-- Settles O47: claims that end, deliveries, insertions and the idle deadline, by what they leave of the session. -/
theorem sessionCountsItsBikes : Obligations.SessionCountsItsBikes := by
  intro s d v o hready hkept hv ho hopened
  refine ⟨fun hmarked hnot hmore hdocks _ hone => claimTaken_more hready hkept hv ho hopened hmarked hnot hmore hdocks hone,
    fun hmarked hnot hall hleft => claimTaken_closes hready hkept hv ho hopened hmarked hnot hall hleft,
    fun hmarked hnot hall hlast => ?_, fun hmarked hnot => ?_, fun hmarked hcounts => ?_, fun hmarked news => ?_,
    fun hdocks => crewInsertion_awaits hready hv hopened hdocks,
    fun seq identified hmore hdocks => vanIn_more seq identified hready hkept hv ho hopened hmore hdocks,
    fun seq identified hall hdocks => vanIn_closes seq identified hready hkept hv ho hopened hall hdocks,
    fun seq identified hall hdocks => ?_, fun x hdeadline hdue hdocks _ => ?_,
    fun x hdeadline hnot => idle_early hready hv hdeadline hnot⟩
  · obtain ⟨t, e, hexec, hends, hwindows⟩ := claimTaken_ends hready hv ho hopened hmarked hnot hall hlast
    exact ⟨t, e, hexec, hends.session, hends.queue, hends.entries, hends.kind, hends.seq, hends.reference, hends.done, hends.quantity,
      hends.outcome, hends.vanBooked, hends.noticed, hwindows, (exec_only _ _ _ hexec).mono (by simp [parts])⟩
  · refine claim_lost hready hv hmarked ?_ rfl
    rw [leaveDock_leaves (u := s.taking _) hv hnot]
    exact pass_due (w := v.leave d) rfl hopened
  · refine claim_lost hready hv hmarked ?_ rfl
    rw [leaveDock_stays (u := s.taking _) hcounts]
    exact pass_due (w := v) hv hopened
  · refine onlyTaken_of_same hready (by simp only [exec, execVanClaimNotice]; rfl) ?_
    rw [boundTo_own (s := s.taking _) hv]
    exact if_pos (by rw [hmarked]; rfl)
  · have hexec := exec_vanIn (d := d) (seq := seq) (identified := identified) hready hv hopened
    obtain ⟨-, ⟨e, hends⟩, hwindows⟩ := countedBy_ends (id := v.order) (.vanInNotice v.order d seq identified)
      (w := v.delivered.idleFrom (s.now + s.store.live.vanIdle)) rfl ho hopened hall hdocks
    exact ⟨_, e, hexec, hends.session, hends.queue, hends.entries, hends.kind, hends.seq, hends.reference, hends.done, hends.quantity,
      hends.outcome, hends.vanBooked, hends.noticed, hwindows, (exec_only _ _ _ hexec).mono (by simp [parts])⟩
  · obtain ⟨t, e, hexec, hends⟩ := idle_ends hready hv ho hopened hdeadline hdue hdocks
    exact ⟨t, e, hexec, hends.session, hends.queue, hends.entries, hends.kind, hends.seq, hends.reference, hends.done, hends.quantity,
      hends.outcome, hends.vanBooked, hends.noticed, (exec_only _ _ _ hexec).mono (by simp [parts])⟩

end Sys2Proof.Machine
end

section
/-! Proofs. The claims beside their owners, the requests in hand and the levels of the docks: what of the operations leaves them as they
were. -/

namespace Sys2Proof.Machine

/-- The claim without its owner, which no law of the claims reads. -/
def Claim.unowned (c : Claim) : Claim := { c with owner := .nobody }

/-- What the laws of the claims are read from: the claims beside their owners, the requests, and what each level is derived from. -/
structure Holding where
  claims : List Claim
  requests : List ClaimRequest
  docks : List (Level × DockHolds × BikeHolds)
  caps : DockCaps

def State.holding (s : State) : Holding where
  claims := s.release.claims.map Claim.unowned
  requests := s.release.requests
  docks := s.dock.table.map fun r => r.fixed.2
  caps := s.dock.caps

/-- A change that leaves the Release Controller and what is fixed of every dock. -/
theorem holding_of_release {s t : State} (hr : t.release = s.release) (hf : t.view.fixtures = s.view.fixtures) :
    t.holding = s.holding := by
  have docks : ∀ u : State, (u.dock.table.map fun r => r.fixed.2) = u.view.fixtures.docks.map Prod.snd := fun u => by
    simp only [State.view, List.map_map]
    rfl
  have caps : t.dock.caps = s.dock.caps := congrArg Fixtures.caps hf
  unfold State.holding
  rw [hr, docks, docks, hf, caps]

theorem holding_of_fixtures {s t : State}
    (h : Only [.phase, .now, .inFlight, .host, .dock, .card, .term, .journal, .order, .fault, .supply, .store] s t)
    (hf : t.view.fixtures = s.view.fixtures) : t.holding = s.holding := holding_of_release (h .release (by decide)) hf

/-! ### One update -/

@[simp] theorem holding_onHost (s : State) (f : HostLink → HostLink) : (s.onHost f).holding = s.holding := rfl
@[simp] theorem holding_onJournal (s : State) (f : Journal → Journal) : (s.onJournal f).holding = s.holding := rfl
@[simp] theorem holding_onStore (s : State) (f : Store → Store) : (s.onStore f).holding = s.holding := rfl
@[simp] theorem holding_onOrders (s : State) (f : OrderUnit → OrderUnit) : (s.onOrders f).holding = s.holding := rfl
@[simp] theorem holding_onVan (s : State) (f : VanSession → VanSession) : (s.onVan f).holding = s.holding := rfl
@[simp] theorem holding_onTerminal (s : State) (x : TerminalId) (f : Terminal → Terminal) : (s.onTerminal x f).holding = s.holding := rfl
@[simp] theorem holding_onSession (s : State) (x : TerminalId) (f : Session → Session) : (s.onSession x f).holding = s.holding := rfl
@[simp] theorem holding_post (s : State) (i : Instr) : (s.post i).holding = s.holding := rfl
@[simp] theorem holding_postAll (s : State) (l : List Instr) : (s.postAll l).holding = s.holding := rfl

/-- The update of a record leaves what its level is read from. -/
def KeepsLevel (f : DockRecord → DockRecord) : Prop := ∀ r, (f r).fixed.2 = r.fixed.2

@[simp] theorem keepsLevel_iff (f : DockRecord → DockRecord) : KeepsLevel f ↔
    (∀ r, (f r).hostSetting = r.hostSetting) ∧ (∀ r, (f r).dockHolds = r.dockHolds) ∧ ∀ r, (f r).bikeHolds = r.bikeHolds := by
  simp [KeepsLevel, forall_and]

@[simp] theorem holding_onDock (s : State) (d : DockNo) (f : DockRecord → DockRecord) (h : KeepsLevel f) :
    (s.onDock d f).holding = s.holding := by
  have docks : (s.dock.table.modify d f).map (fun r => r.fixed.2) = s.dock.table.map fun r => r.fixed.2 :=
    map_modify_same (v := fun r : DockRecord => r.fixed.2) h
  simp only [State.holding, onDock_dock, docks]
  rfl

theorem holding_onRelease (s : State) (f : ReleaseUnit → ReleaseUnit)
    (hc : (f s.release).claims.map Claim.unowned = s.release.claims.map Claim.unowned)
    (hq : (f s.release).requests = s.release.requests) : (s.onRelease f).holding = s.holding := by
  simp [State.holding, hc, hq]

theorem holding_foldl {α : Type} {f : State → α → State} (h : ∀ s a, (f s a).holding = s.holding) (l : List α) (s : State) :
    (l.foldl f s).holding = s.holding := by
  induction l generalizing s with
  | nil => rfl
  | cons a l ih => rw [List.foldl_cons, ih, h]

/-! ### Each operation -/

@[simp] theorem holding_postIf (s : State) (b : Bool) (i : Instr) : (s.postIf b i).holding = s.holding :=
  holding_of_fixtures (by simp) (by simp)
@[simp] theorem holding_postPass (s : State) : (s.postPass).holding = s.holding :=
  holding_of_fixtures (by simp) (by simp)
@[simp] theorem holding_join (s : State) (k : NoticeKind) : (s.join k).holding = s.holding := rfl
@[simp] theorem holding_reply (s : State) (k : Nat) (g : Byte) (c : ReplyCode) (y : Payload) :
    (s.reply k g c y).holding = s.holding := rfl
@[simp] theorem holding_readerDecided (s : State) (d : DockNo) (r : ReaderResult) : (s.readerDecided d r).holding = s.holding :=
  holding_of_fixtures (by simp) (by simp)
@[simp] theorem holding_sendTerminal (s : State) (x : TerminalId) (r : TermRecord) :
    (s.sendTerminal x r).holding = s.holding := rfl
@[simp] theorem holding_tellPlace (s : State) (p : Place) (r : CheckResult) : (s.tellPlace p r).holding = s.holding :=
  holding_of_fixtures (by simp) (by simp)
@[simp] theorem holding_denyPlace (s : State) (p : Place) (y : DenyReason) : (s.denyPlace p y).holding = s.holding :=
  holding_of_fixtures (by simp) (by simp)
@[simp] theorem holding_raise (s : State) (x : FaultSubject) (k : FaultKind) (d : Option DockNo) (c : Carried) :
    (s.raise x k d c).holding = s.holding := rfl
@[simp] theorem holding_setCommand (s : State) (d : DockNo) (c : LockCommand) : (s.setCommand d c).holding = s.holding :=
  holding_of_fixtures (by simp) (by simp)
@[simp] theorem holding_onAccount (s : State) (d : DockNo) (f : DockAccount → DockAccount) :
    (s.onAccount d f).holding = s.holding := rfl
@[simp] theorem holding_relamp (s : State) (d : DockNo) : (s.relamp d).holding = s.holding :=
  holding_of_fixtures (by simp) (by simp)
@[simp] theorem holding_takeSlot (s : State) (d : DockNo) : (s.takeSlot d).holding = s.holding :=
  holding_of_fixtures (by simp) (by simp)
@[simp] theorem holding_appendEntry (s : State) (e : Entry) : (s.appendEntry e).holding = s.holding := rfl
@[simp] theorem holding_dropGrace (s : State) (b : BikeId) : (s.dropGrace b).holding = s.holding := rfl
@[simp] theorem holding_writeReturn (s : State) (d : DockNo) (b : Option BikeId) (l : Bool) (c : Option OrderId) :
    (s.writeReturn d b l c).holding = s.holding := by
  unfold State.writeReturn
  split <;> simp
@[simp] theorem holding_writeRequested (s : State) (q : EntryRequest) : (s.writeRequested q).holding = s.holding := by
  unfold State.writeRequested
  split <;> simp
@[simp] theorem holding_admitWithheld (s : State) : (s.admitWithheld).holding = s.holding :=
  holding_of_fixtures (by simp) (by simp)
theorem holding_journalArrival (s : State) (f : State → State) (h : (f s).holding = s.holding) :
    (s.journalArrival f).holding = s.holding := by
  unfold State.journalArrival
  dsimp only
  (repeat' split) <;> simp [h]
@[simp] theorem holding_writeEntry (s : State) (q : EntryRequest) : (s.writeEntry q).holding = s.holding :=
  holding_journalArrival s _ (by simp)
@[simp] theorem holding_endSession (s : State) (x : TerminalId) : (s.endSession x).holding = s.holding := rfl
@[simp] theorem holding_refuseSession (s : State) (x : TerminalId) (y : DenyReason) :
    (s.refuseSession x y).holding = s.holding := rfl
@[simp] theorem holding_askAllocation (s : State) (x : TerminalId) (k : BikeClass) (e : Option DockNo) :
    (s.askAllocation x k e).holding = s.holding := rfl
@[simp] theorem holding_leaveQueries (s : State) (x : TerminalId) : (s.leaveQueries x).holding = s.holding := rfl
@[simp] theorem holding_disown (s : State) (x : TerminalId) : (s.disown x).holding = s.holding := by
  refine holding_onRelease _ _ ?_ rfl
  rw [List.map_map]
  refine List.map_congr_left fun c _ => ?_
  dsimp only [Function.comp]
  split <;> rfl
@[simp] theorem holding_abortSession (s : State) (x : TerminalId) : (s.abortSession x).holding = s.holding := by
  unfold State.abortSession
  split <;> simp
@[simp] theorem holding_setLine (s : State) (x : TerminalId) (l : LineState) : (s.setLine x l).holding = s.holding := rfl
@[simp] theorem holding_lineLeavesUp (s : State) (x : TerminalId) (l : LineState) :
    (s.lineLeavesUp x l).holding = s.holding := by simp [State.lineLeavesUp]
@[simp] theorem holding_lineComesUp (s : State) (x : TerminalId) : (s.lineComesUp x).holding = s.holding := rfl
@[simp] theorem holding_tapOrPaid (s : State) (x : TerminalId) (c : CardId) (f : Nat → Instr) :
    (s.tapOrPaid x c f).holding = s.holding :=
  holding_of_fixtures (by simp) (by simp)
theorem holding_goodRecord (s : State) (x : TerminalId) (f : State → State) (h : ∀ u, (f u).holding = u.holding) :
    (s.goodRecord x f).holding = s.holding := by
  unfold State.goodRecord
  split <;> simp [h]
theorem holding_goodRecordUp (s : State) (x : TerminalId) (f : State → State) (h : ∀ u, (f u).holding = u.holding) :
    (s.goodRecordUp x f).holding = s.holding := by
  refine holding_goodRecord s x _ fun u => ?_
  split <;> simp [h]
@[simp] theorem holding_abandonChoice (s : State) (x : TerminalId) : (s.abandonChoice x).holding = s.holding := rfl
@[simp] theorem holding_badRecord (s : State) (x : TerminalId) : (s.badRecord x).holding = s.holding := by
  unfold State.badRecord
  dsimp only
  (repeat' split) <;> simp
@[simp] theorem holding_takeHello (s : State) (x : TerminalId) : (s.takeHello x).holding = s.holding :=
  holding_goodRecord s x _ fun u => by split <;> simp
@[simp] theorem holding_takeTap (s : State) (x : TerminalId) (card : CardId) : (s.takeTap x card).holding = s.holding :=
  holding_goodRecordUp s x _ fun u => by split <;> simp
@[simp] theorem holding_takePaid (s : State) (x : TerminalId) (code : CardId) (rights : Byte) (expiry : ClockTime) :
    (s.takePaid x code rights expiry).holding = s.holding :=
  holding_goodRecordUp s x _ fun u => by simp
@[simp] theorem holding_takePick (s : State) (x : TerminalId) (cls : BikeClass) : (s.takePick x cls).holding = s.holding :=
  holding_goodRecordUp s x _ fun u => by dsimp only; (repeat' split) <;> simp
@[simp] theorem holding_takeCancel (s : State) (x : TerminalId) : (s.takeCancel x).holding = s.holding :=
  holding_goodRecordUp s x _ fun u => by split <;> simp
@[simp] theorem holding_lineFalls (s : State) (x : TerminalId) : (s.lineFalls x).holding = s.holding := by
  unfold State.lineFalls
  split <;> simp
@[simp] theorem holding_takeLine (s : State) (x : TerminalId) (a : LineArrival) : (s.takeLine x a).holding = s.holding := by
  unfold State.takeLine
  split <;> simp [holding_goodRecord]
@[simp] theorem holding_lineTakes (s : State) (x : TerminalId) (a : LineArrival) : (s.lineTakes x a).holding = s.holding := by
  unfold State.lineTakes
  split <;> simp
@[simp] theorem holding_allocationAnswered (s : State) (x : TerminalId) : (s.allocationAnswered x).holding = s.holding := by
  unfold State.allocationAnswered
  exact holding_foldl (fun _ _ => by simp) _ _
@[simp] theorem holding_sessionOffered (s : State) (x : TerminalId) (d : DockNo) (n : Nat) :
    (s.sessionOffered x d n).holding = s.holding := by simp [State.sessionOffered]
@[simp] theorem holding_sessionRefused (s : State) (x : TerminalId) (y : DenyReason) :
    (s.sessionRefused x y).holding = s.holding := by simp [State.sessionRefused]
@[simp] theorem holding_tellDock (s : State) (d : DockNo) : (s.tellDock d).holding = s.holding := rfl
@[simp] theorem holding_tellOwner (s : State) (c : Claim) (n : ClaimNews) : (s.tellOwner c n).holding = s.holding :=
  holding_of_fixtures (by simp) (by simp)
@[simp] theorem holding_refuseRequest (s : State) (o : Owner) (y : DenyReason) : (s.refuseRequest o y).holding = s.holding := by
  unfold State.refuseRequest
  (repeat' split) <;> simp
@[simp] theorem holding_tellGrant (s : State) (d : DockNo) (o : Owner) (n : Nat) : (s.tellGrant d o n).holding = s.holding := by
  unfold State.tellGrant
  split <;> simp
@[simp] theorem holding_leaveReserved (s : State) (d : DockNo) (o : Option OrderId) : (s.leaveReserved d o).holding = s.holding :=
  holding_of_fixtures (by simp) (by simp)
@[simp] theorem holding_refuseGrant (s : State) (q : ClaimRequest) (y : DenyReason) :
    (s.refuseGrant q y).holding = s.holding := by
  unfold State.refuseGrant
  split <;> simp
@[simp] theorem holding_refuseVan (s : State) (d : DockNo) (y : DenyReason) : (s.refuseVan d y).holding = s.holding :=
  holding_of_fixtures (by simp) (by simp)
@[simp] theorem holding_graceHire (s : State) (c : Claim) (b : Option BikeId) (n : SeqNo) :
    (s.graceHire c b n).holding = s.holding := by
  unfold State.graceHire
  (repeat' split) <;> rfl
@[simp] theorem holding_dropQueries (s : State) : (s.dropQueries).holding = s.holding :=
  holding_of_fixtures (by simp) (by simp)
@[simp] theorem holding_changePower (s : State) (p : PowerState) : (s.changePower p).holding = s.holding :=
  holding_of_fixtures (by simp) (by simp)
@[simp] theorem holding_newLimit (s : State) (n : Nat) : (s.newLimit n).holding = s.holding :=
  holding_of_fixtures (by simp) (by simp)
@[simp] theorem holding_switchIfDue (s : State) : s.switchIfDue.holding = s.holding := by
  unfold State.switchIfDue State.switchSettings
  (repeat' split) <;> simp
@[simp] theorem holding_endPoll (s : State) (d : DockNo) (r : DockRecord) : (s.endPoll d r).holding = s.holding :=
  holding_of_fixtures (by simp) (by simp)
@[simp] theorem holding_stepLock (s : State) (d : DockNo) (l : LockState) : (s.stepLock d l).holding = s.holding :=
  holding_of_fixtures (by simp) (by simp)
@[simp] theorem holding_stepSlot (s : State) (d : DockNo) (m : SlotMode) : (s.stepSlot d m).holding = s.holding :=
  holding_of_fixtures (by simp) (by simp)
@[simp] theorem holding_settleEntry (s : State) (d : DockNo) (b : Option BikeId) : (s.settleEntry d b).holding = s.holding :=
  holding_of_fixtures (by simp) (by simp)
@[simp] theorem holding_takeTag (s : State) (d : DockNo) (b : Bike) (o : Bool) : (s.takeTag d b o).holding = s.holding := by
  unfold State.takeTag
  split <;> simp
@[simp] theorem holding_missTag (s : State) (d : DockNo) (r : DockRecord) : (s.missTag d r).holding = s.holding :=
  holding_of_fixtures (by simp) (by simp)
@[simp] theorem holding_stepTag (s : State) (d : DockNo) (b : Option Bike) : (s.stepTag d b).holding = s.holding := by
  unfold State.stepTag
  (repeat' split) <;> simp
@[simp] theorem holding_noteChatter (s : State) (d : DockNo) : (s.noteChatter d).holding = s.holding :=
  holding_of_fixtures (by simp) (by simp)
@[simp] theorem holding_takeOrder (s : State) (d : DockNo) : (s.takeOrder d).holding = s.holding :=
  holding_of_fixtures (by simp) (by simp)
@[simp] theorem holding_countedInsertion (s : State) (d : DockNo) (r : DockRecord) (b : Bool) :
    (s.countedInsertion d r b).holding = s.holding :=
  holding_of_fixtures (by simp) (by simp)
@[simp] theorem holding_uncountedInsertion (s : State) (d : DockNo) : (s.uncountedInsertion d).holding = s.holding :=
  holding_of_fixtures (by simp) (by simp)
@[simp] theorem holding_tellRemoval (s : State) (d : DockNo) (b : Option BikeId) : (s.tellRemoval d b).holding = s.holding :=
  holding_of_fixtures (by simp) (by simp)
@[simp] theorem holding_removal (s : State) (d : DockNo) (r : DockRecord) :
    (s.removal d r).holding = s.holding := by simp [State.removal]
@[simp] theorem holding_applyDecision (s : State) (d : DockNo) (b : Bool) (q : Decision) :
    (s.applyDecision d b q).holding = s.holding := by
  unfold State.applyDecision
  (repeat' split) <;> simp
@[simp] theorem holding_testSensor (s : State) (d : DockNo) : (s.testSensor d).holding = s.holding :=
  holding_of_fixtures (by simp) (by simp)
@[simp] theorem holding_stepPresence (s : State) (d : DockNo) (x : Nat) (late : Bool) :
    (s.stepPresence d x late).holding = s.holding := by
  unfold State.stepPresence
  split
  case h_1 => rfl
  case h_2 r hr =>
    have put : (s.onDock d fun _ => (r.sensed x s.settings.threshold s.settings.hysteresis).1).holding = s.holding := by
      refine holding_of_fixtures (by simp) (congrArg View.fixtures (view_putDock hr ?_ ?_))
      all_goals
        unfold DockRecord.sensed
        dsimp only
        split <;> rfl
    simp [put]
@[simp] theorem holding_stepTap (s : State) (d : DockNo) (c : Option CardId) : (s.stepTap d c).holding = s.holding :=
  holding_of_fixtures (by simp) (by simp)
@[simp] theorem holding_stepPress (s : State) (d : DockNo) (n : Nat) : (s.stepPress d n).holding = s.holding :=
  holding_of_fixtures (by simp) (by simp)
@[simp] theorem holding_stepBattery (s : State) (d : DockNo) (n : Option Nat) : (s.stepBattery d n).holding = s.holding :=
  holding_of_fixtures (by simp) (by simp)
@[simp] theorem holding_stepJoin (s : State) (d : DockNo) (b : Bool) : (s.stepJoin d b).holding = s.holding :=
  holding_of_fixtures (by simp) (by simp)
@[simp] theorem holding_missPoll (s : State) (d : DockNo) (r : DockRecord) : (s.missPoll d r).holding = s.holding :=
  holding_of_fixtures (by simp) (by simp)
@[simp] theorem holding_recordRaise (s : State) (x : FaultSubject) (k : FaultKind) (c : Option DockContext) :
    (s.recordRaise x k c).holding = s.holding :=
  holding_of_fixtures (by simp) (by simp)
@[simp] theorem holding_resolveRecord (s : State) (x : FaultSubject) (k : FaultKind) :
    (s.resolveRecord x k).holding = s.holding := rfl
@[simp] theorem holding_tellJamCleared (s : State) (d : DockNo) : (s.tellJamCleared d).holding = s.holding :=
  holding_of_fixtures (by simp) (by simp)
@[simp] theorem holding_restartIdle (s : State) : (s.restartIdle).holding = s.holding := rfl
@[simp] theorem holding_countDone (s : State) (o : OrderId) : (s.countDone o).holding = s.holding := rfl
@[simp] theorem holding_holdToTarget (s : State) : (s.holdToTarget).holding = s.holding :=
  holding_of_fixtures (by simp) (by simp)
@[simp] theorem holding_leaveDock (s : State) (d : DockNo) (o : OrderId) : (s.leaveDock d o).holding = s.holding :=
  holding_of_fixtures (by simp) (by simp)
@[simp] theorem holding_closeSession (s : State) (v : VanSession) : (s.closeSession v).holding = s.holding := by
  unfold State.closeSession
  split <;> simp
@[simp] theorem holding_testComplete (s : State) : (s.testComplete).holding = s.holding := by
  unfold State.testComplete
  (repeat' split) <;> simp
@[simp] theorem holding_enterClosing (s : State) (cause : CloseCause) : (s.enterClosing cause).holding = s.holding := by
  unfold State.enterClosing
  split
  case h_1 => rfl
  case h_2 =>
    split
    case isTrue =>
      dsimp only
      rw [holding_testComplete, holding_onVan, holding_foldl fun _ _ => holding_onDock _ _ _ (by simp), holding_postAll]
    case isFalse => rfl
@[simp] theorem holding_afterDone (s : State) (o : OrderId) : (s.afterDone o).holding = s.holding := by
  unfold State.afterDone
  split <;> simp
@[simp] theorem holding_collectTap (s : State) (v : VanSession) (c : CardId) (d : DockNo) :
    (s.collectTap v c d).holding = s.holding :=
  holding_of_fixtures (by simp) (by simp)
@[simp] theorem holding_deliverTap (s : State) (v : VanSession) (d : DockNo) : (s.deliverTap v d).holding = s.holding :=
  holding_of_fixtures (by simp) (by simp)
@[simp] theorem holding_openTap (s : State) (v : VanSession) (c : CardId) (p : Place) :
    (s.openTap v c p).holding = s.holding := by
  unfold State.openTap
  (repeat' split) <;> simp
@[simp] theorem holding_cancelSession (s : State) : (s.cancelSession).holding = s.holding := by
  unfold State.cancelSession
  split <;> simp
@[simp] theorem holding_powerTerminal (s : State) (p : PowerState) (x : TerminalId) :
    (s.powerTerminal p x).holding = s.holding := by
  unfold State.powerTerminal
  split <;> simp
@[simp] theorem holding_enableLine (s : State) (x : TerminalId) : (s.enableLine x).holding = s.holding := by
  unfold State.enableLine State.resolveFault State.setHold
  split <;> rfl

end Sys2Proof.Machine
end


section
/-! Proofs. The laws of the claims and the requests (R70, R74, R88), and what each ending, move and entry makes of them. -/

namespace Sys2Proof.Machine

/-! ### The laws, on the lists -/

/-- The laws of R70 and R74, read from the claims and the requests. -/
structure ClaimList (claims : List Claim) (requests : List ClaimRequest) : Prop where
  docks : (claims.map (·.dock)).Nodup
  held : (requests.map (·.dock)).Nodup
  shaped : ∀ c ∈ claims, c.shaped
  orders : ∀ q ∈ requests, q.order.isSome ↔ q.kind = .van
  holders : ∀ c ∈ claims, ∀ e ∈ claims, c.state.releasing → e.state.releasing → c.holder = e.holder → c.dock = e.dock

theorem claimsKept_iff (s : State) : s.claimsKept ↔ ClaimList s.release.claims s.release.requests :=
  ⟨fun ⟨docks, held, shaped, orders, holders⟩ => ⟨docks, held, shaped, orders, holders⟩,
    fun h => ⟨h.docks, h.held, h.shaped, h.orders, h.holders⟩⟩

theorem ClaimList.unowned {claims : List Claim} {requests : List ClaimRequest} :
    ClaimList (claims.map Claim.unowned) requests ↔ ClaimList claims requests := by
  have docks : (claims.map Claim.unowned).map (·.dock) = claims.map (·.dock) := List.map_map ..
  constructor
  · intro h
    exact ⟨docks ▸ h.docks, h.held, fun c hc => h.shaped c.unowned (List.mem_map_of_mem hc), h.orders,
      fun c hc e he => h.holders c.unowned (List.mem_map_of_mem hc) e.unowned (List.mem_map_of_mem he)⟩
  · intro h
    refine ⟨docks.symm ▸ h.docks, h.held, fun x hx => ?_, h.orders, fun x hx y hy => ?_⟩
    · obtain ⟨c, hc, rfl⟩ := List.mem_map.mp hx
      exact h.shaped c hc
    · obtain ⟨c, hc, rfl⟩ := List.mem_map.mp hx
      obtain ⟨e, he, rfl⟩ := List.mem_map.mp hy
      exact h.holders c hc e he

section
variable {claims : List Claim} {requests : List ClaimRequest} {d : DockNo}

theorem ClaimList.filter (h : ClaimList claims requests) (p : Claim → Bool) : ClaimList (claims.filter p) requests :=
  ⟨h.docks.sublist (List.Sublist.map _ List.filter_sublist), h.held, fun c hc => h.shaped c (List.mem_filter.mp hc).1, h.orders,
    fun c hc e he => h.holders c (List.mem_filter.mp hc).1 e (List.mem_filter.mp he).1⟩

theorem ClaimList.add (h : ClaimList claims requests) {c : Claim} (hnew : ∀ e ∈ claims, e.dock ≠ c.dock) (hshaped : c.shaped)
    (hholder : c.state.releasing → ∀ e ∈ claims, e.state.releasing → e.holder ≠ c.holder) : ClaimList (claims ++ [c]) requests := by
  refine ⟨?_, h.held, fun e he => ?_, h.orders, fun e he x hx hereleasing hxreleasing hsame => ?_⟩
  · rw [List.map_append, List.nodup_append]
    refine ⟨h.docks, List.nodup_singleton _, fun a ha b hb => ?_⟩
    obtain ⟨e, he, rfl⟩ := List.mem_map.mp ha
    obtain rfl : b = c.dock := by simpa using hb
    exact hnew e he
  · rcases List.mem_append.mp he with he | he
    · exact h.shaped e he
    · exact List.mem_singleton.mp he ▸ hshaped
  · rcases List.mem_append.mp he with he | he <;> rcases List.mem_append.mp hx with hx | hx
    · exact h.holders e he x hx hereleasing hxreleasing hsame
    · have hxc := List.mem_singleton.mp hx
      exact absurd (hxc ▸ hsame) (hholder (hxc ▸ hxreleasing) e he hereleasing)
    · have hec := List.mem_singleton.mp he
      exact absurd (hec ▸ hsame.symm) (hholder (hec ▸ hereleasing) x hx hxreleasing)
    · rw [List.mem_singleton.mp he, List.mem_singleton.mp hx]

/-- What a move of the claim on one dock must keep. -/
structure Moves (claims : List Claim) (d : DockNo) (f : Claim → Claim) : Prop where
  dock : ∀ c, (f c).dock = c.dock
  holder : ∀ c, (f c).holder = c.holder
  shaped : ∀ c ∈ claims, c.dock = d → (f c).shaped
  releasing : ∀ c ∈ claims, c.dock = d → (f c).state.releasing → c.state.releasing
    ∨ ∀ e ∈ claims, e.dock ≠ d → e.state.releasing → e.holder ≠ c.holder
  state : ∀ c ∈ claims, c.dock = d → (f c).state ≠ .reserved ∧ (f c).state ≠ .releaseSent

theorem ClaimList.move (h : ClaimList claims requests) {f : Claim → Claim} (hf : Moves claims d f) :
    ClaimList (claims.map fun c => if c.dock = d then f c else c) requests := by
  have docks : (claims.map fun c => if c.dock = d then f c else c).map (·.dock) = claims.map (·.dock) := by
    rw [List.map_map]
    refine List.map_congr_left fun c _ => ?_
    dsimp only [Function.comp]
    split
    · exact hf.dock c
    · rfl
  refine ⟨docks.symm ▸ h.docks, h.held, fun x hx => ?_, h.orders, fun x hx y hy hxr hyr hsame => ?_⟩
  · obtain ⟨c, hc, rfl⟩ := List.mem_map.mp hx
    split
    case isTrue hd => exact hf.shaped c hc hd
    case isFalse => exact h.shaped c hc
  · obtain ⟨c, hc, rfl⟩ := List.mem_map.mp hx
    obtain ⟨e, he, rfl⟩ := List.mem_map.mp hy
    by_cases hcd : c.dock = d <;> by_cases hed : e.dock = d
    · rw [if_pos hcd, if_pos hed, hf.dock, hf.dock, hcd, hed]
    · rw [if_pos hcd] at hxr hsame ⊢
      rw [if_neg hed] at hyr hsame ⊢
      rw [hf.holder] at hsame
      rw [hf.dock]
      rcases hf.releasing c hc hcd hxr with hcr | hother
      · exact h.holders c hc e he hcr hyr hsame
      · exact absurd hsame.symm (hother e he hed hyr)
    · rw [if_neg hcd] at hxr hsame ⊢
      rw [if_pos hed] at hyr hsame ⊢
      rw [hf.holder] at hsame
      rw [hf.dock]
      rcases hf.releasing e he hed hyr with her | hother
      · exact h.holders c hc e he hxr her hsame
      · exact absurd hsame (hother c hc hcd hxr)
    · rw [if_neg hcd] at hxr hsame ⊢
      rw [if_neg hed] at hyr hsame ⊢
      exact h.holders c hc e he hxr hyr hsame

theorem ClaimList.hold (h : ClaimList claims requests) {q : ClaimRequest} (hnew : ∀ p ∈ requests, p.dock ≠ q.dock)
    (horder : q.order.isSome ↔ q.kind = .van) : ClaimList claims (requests ++ [q]) := by
  refine ⟨h.docks, ?_, h.shaped, fun p hp => ?_, h.holders⟩
  · rw [List.map_append, List.nodup_append]
    refine ⟨h.held, List.nodup_singleton _, fun a ha b hb => ?_⟩
    obtain ⟨p, hp, rfl⟩ := List.mem_map.mp ha
    obtain rfl : b = q.dock := by simpa using hb
    exact hnew p hp
  · rcases List.mem_append.mp hp with hp | hp
    · exact h.orders p hp
    · exact List.mem_singleton.mp hp ▸ horder

theorem ClaimList.drop (h : ClaimList claims requests) (p : ClaimRequest → Bool) : ClaimList claims (requests.filter p) :=
  ⟨h.docks, h.held.sublist (List.Sublist.map _ List.filter_sublist), h.shaped, fun q hq => h.orders q (List.mem_filter.mp hq).1, h.holders⟩

end

/-! ### The laws, on the state -/

/-- The claim's kind needs its dock's level: it is RESERVED or in RELEASE_SENT (R88). -/
def Claim.needsLevel (c : Claim) : Prop := c.state = .reserved ∨ c.state = .releaseSent

/-- The law of R88 at one dock. -/
def LevelAt (s : State) (d : DockNo) : Prop :=
  ∀ c ∈ s.release.claims, c.dock = d → c.needsLevel → (s.level d).permits c.kind

theorem levelsKept_iff (s : State) : s.levelsKept ↔ ∀ d, LevelAt s d :=
  ⟨fun h _ c hc hd hneeds => hd ▸ h c hc hneeds, fun h c hc hneeds => h c.dock c hc rfl hneeds⟩

/-- The laws of R70, R74 and R88. -/
def State.claimed (s : State) : Prop := ClaimList s.release.claims s.release.requests ∧ ∀ d, LevelAt s d

theorem level_of_holding {s t : State} (h : t.holding = s.holding) (d : DockNo) : t.level d = s.level d := by
  have read : ∀ u : State, u.level d = match u.holding.docks[d]? with
      | some (l, x, y) => ({ hostSetting := l, dockHolds := x, bikeHolds := y } : DockRecord).level u.holding.caps
      | none => .closed := fun u => by
    unfold State.level State.dock?
    simp only [State.holding, List.getElem?_map]
    cases u.dock.table[d]? <;> rfl
  rw [read, read, h]

theorem claimed_of_holding {s t : State} (h : t.holding = s.holding) (hs : s.claimed) : t.claimed := by
  obtain ⟨hlist, hlevels⟩ := hs
  have claims : t.release.claims.map Claim.unowned = s.release.claims.map Claim.unowned := congrArg Holding.claims h
  have requests : t.release.requests = s.release.requests := congrArg Holding.requests h
  refine ⟨?_, fun d c hc hd hneeds => ?_⟩
  · rw [← ClaimList.unowned, claims, requests, ClaimList.unowned]
    exact hlist
  · obtain ⟨e, he, hsame⟩ := List.mem_map.mp (claims ▸ List.mem_map_of_mem (f := Claim.unowned) hc)
    have hdock : e.unowned.dock = c.unowned.dock := congrArg Claim.dock hsame
    have hstate : e.unowned.state = c.unowned.state := congrArg Claim.state hsame
    have hkind : e.unowned.kind = c.unowned.kind := congrArg Claim.kind hsame
    rw [level_of_holding h, show c.kind = e.kind from hkind.symm]
    exact hlevels d e he (hdock.trans hd) (hneeds.imp hstate.trans hstate.trans)

theorem claimed_readsOnly : ReadsOnly [.dock, .release] State.claimed := by
  intro s t h hs
  have hdock : t.dock = s.dock := h .dock (by decide)
  have hrelease : t.release = s.release := h .release (by decide)
  unfold State.claimed LevelAt State.level State.dock? at *
  rwa [hdock, hrelease]

section
variable {s t : State} {d : DockNo}

/-- The claim on a dock has ended. -/
theorem claimed_ends (hs : s.claimed) (hclaims : t.release.claims = s.release.claims.filter fun c => c.dock != d)
    (hrequests : t.release.requests = s.release.requests) (hlevel : ∀ e, t.level e = s.level e) : t.claimed := by
  obtain ⟨hlist, hlevels⟩ := hs
  refine ⟨?_, fun e c hc hd hneeds => ?_⟩
  · rw [hclaims, hrequests]
    exact hlist.filter _
  · rw [hclaims] at hc
    rw [hlevel]
    exact hlevels e c (List.mem_filter.mp hc).1 hd hneeds

/-- The claim on a dock has moved to a later state. -/
theorem claimed_moves (hs : s.claimed) {f : Claim → Claim} (hf : Moves s.release.claims d f)
    (hclaims : t.release.claims = s.release.claims.map fun c => if c.dock = d then f c else c)
    (hrequests : t.release.requests = s.release.requests) (hlevel : ∀ e, t.level e = s.level e) : t.claimed := by
  obtain ⟨hlist, hlevels⟩ := hs
  refine ⟨?_, fun e c hc hd hneeds => ?_⟩
  · rw [hclaims, hrequests]
    exact hlist.move hf
  · rw [hclaims] at hc
    obtain ⟨x, hx, rfl⟩ := List.mem_map.mp hc
    by_cases hxd : x.dock = d
    case pos =>
      rw [if_pos hxd] at hneeds
      obtain ⟨hreserved, hsent⟩ := hf.state x hx hxd
      exact hneeds.elim (fun h => absurd h hreserved) fun h => absurd h hsent
    case neg =>
      rw [if_neg hxd] at hd hneeds ⊢
      rw [hlevel]
      exact hlevels e x hx hd hneeds

/-- A claim has entered the table on a dock that carried none. -/
theorem claimed_enters (hs : s.claimed) {c : Claim} (hnew : ∀ e ∈ s.release.claims, e.dock ≠ c.dock) (hshaped : c.shaped)
    (hholder : c.state.releasing → ∀ e ∈ s.release.claims, e.state.releasing → e.holder ≠ c.holder)
    (hpermits : (s.level c.dock).permits c.kind) (hclaims : t.release.claims = s.release.claims ++ [c])
    (hrequests : t.release.requests = s.release.requests) (hlevel : ∀ e, t.level e = s.level e) : t.claimed := by
  obtain ⟨hlist, hlevels⟩ := hs
  refine ⟨?_, fun e x hx hd hneeds => ?_⟩
  · rw [hclaims, hrequests]
    exact hlist.add hnew hshaped hholder
  · rw [hclaims] at hx
    rw [hlevel]
    rcases List.mem_append.mp hx with hx | hx
    · exact hlevels e x hx hd hneeds
    · obtain rfl := List.mem_singleton.mp hx
      exact hd ▸ hpermits

end

end Sys2Proof.Machine
end


section
/-! Proofs. The operations on claims and requests keep their laws (R72 to R88). -/

namespace Sys2Proof.Machine

section
variable {s : State} {c : Claim} {d : DockNo}

/-! ### The claim of a dock -/

theorem claimOn_dock (hc : s.claimOn d = some c) : c.dock = d := by simpa using List.find?_some hc

theorem claimOn_mem (hc : s.claimOn d = some c) : c ∈ s.release.claims := List.mem_of_find?_eq_some hc

/-- The claim found on a dock is the only one there. -/
theorem claim_unique (hs : ClaimList s.release.claims s.release.requests) (hc : s.claimOn d = some c) {e : Claim}
    (he : e ∈ s.release.claims) (hd : e.dock = d) : e = c :=
  List.inj_on_of_nodup_map hs.docks he (claimOn_mem hc) (hd.trans (claimOn_dock hc).symm)

theorem claimOn_none_iff : s.claimOn d = none ↔ ∀ e ∈ s.release.claims, e.dock ≠ d := by
  simp [State.claimOn]

/-! ### Endings (R84 to R86) -/

theorem claimed_endClaim (hs : s.claimed) (d : DockNo) : (s.endClaim d).claimed := by
  rw [endClaim_state]
  exact claimed_ends hs rfl rfl fun _ => rfl

theorem claimed_dropClaim (hs : s.claimed) (c : Claim) (news : VanNews) : (s.dropClaim c news).claimed :=
  claimed_endClaim hs c.dock

theorem claimed_endUntaken (hs : s.claimed) (c : Claim) (news : ClaimNews) : (s.endUntaken c news).claimed := by
  rw [endUntaken_eq]
  exact claimed_ends hs rfl rfl fun _ => rfl

theorem claimed_lapse (hs : s.claimed) (c : Claim) (command : LockCommand) : (s.lapse c command).claimed :=
  claimed_endUntaken (claimed_of_holding (by simp) hs) c .lapsed

theorem claimed_fail (hs : s.claimed) (c : Claim) (command : LockCommand) : (s.fail c command).claimed :=
  claimed_endUntaken (claimed_of_holding (by simp) hs) c .failed

theorem claimed_take (hs : s.claimed) (c : Claim) (bike : Option BikeId) (late reset : Bool) : (s.take c bike late reset).claimed := by
  have written : (s.writeEntry (.claimEnding c.dock c.kind bike c.holder c.reference c.offline late reset)).claimed :=
    claimed_of_holding (by simp) hs
  have ended := claimed_endClaim written c.dock
  unfold State.take
  dsimp only
  split <;> exact claimed_of_holding (by simp) ended

/-! ### Moves (R78 to R83, R88) -/

/-- The update of the claim on a dock moves it, when it does so for the one claim there. -/
theorem moves_of_claim {f : Claim → Claim} (hs : ClaimList s.release.claims s.release.requests)
    (hc : s.claimOn d = some c) (hdock : ∀ c, (f c).dock = c.dock)
    (hholder : ∀ c, (f c).holder = c.holder) (hshaped : c.shaped → (f c).shaped)
    (hreleasing : c.state.releasing ∨ (f c).state.releasing = false
      ∨ ∀ e ∈ s.release.claims, e.dock ≠ d → e.state.releasing → e.holder ≠ c.holder)
    (hstate : (f c).state ≠ .reserved ∧ (f c).state ≠ .releaseSent) : Moves s.release.claims d f := by
  refine ⟨hdock, hholder, fun e he hd => ?_, fun e he hd hr => ?_, fun e he hd => ?_⟩
  · obtain rfl := claim_unique hs hc he hd
    exact hshaped (hs.shaped e he)
  · obtain rfl := claim_unique hs hc he hd
    rcases hreleasing with h | h | h
    · exact .inl h
    · rw [h] at hr
      exact nomatch hr
    · exact .inr h
  · obtain rfl := claim_unique hs hc he hd
    exact hstate

theorem claimed_onClaim {f : Claim → Claim} (hs : s.claimed) (hf : Moves s.release.claims d f) : (s.onClaim d f).claimed :=
  claimed_moves hs hf (by rw [onClaim_release]) (by rw [onClaim_release]) fun _ => rfl

/-- A claim past RESERVED keeps its shape in a later state, when that state's own fields are as it has them. -/
theorem shaped_later {e : Claim} (h : c.shaped) (hstate : c.state ≠ .reserved) (hkind : e.kind = c.kind) (hholder : e.holder = c.holder)
    (horder : e.order = c.order) (hlater : e.state ≠ .reserved) (horphan : e.orphanCause.isSome ↔ e.state = .orphan)
    (hdeadline : e.deadline.isSome ↔ e.state.releasing) : e.shaped := by
  obtain ⟨-, holders, orders, -, -⟩ := h
  refine ⟨fun h => absurd h hlater, ?_, ?_, horphan, hdeadline⟩
  · rw [hholder]
    exact iff_of_true (holders.mpr hstate) hlater
  · rw [horder, hkind]
    exact orders

/-- A claim that is not an ORPHAN has no orphan cause. -/
theorem orphanCause_none (h : c.shaped) (hstate : c.state ≠ .orphan) : c.orphanCause.isSome = false := by
  obtain ⟨-, -, -, horphan, -⟩ := h
  exact Bool.eq_false_iff.mpr fun hsome => hstate (horphan.mp hsome)

theorem claimed_released (hs : s.claimed) (hc : s.claimOn c.dock = some c) (hstate : c.state = .releaseSent) : (s.released c).claimed := by
  have moved : (s.onClaim c.dock fun c => { c with state := .released, deadline := some (s.now + c.takeWindow) }).claimed := by
    refine claimed_onClaim hs (moves_of_claim hs.1 hc (fun _ => rfl) (fun _ => rfl) (fun hshaped => ?_)
      (.inl (by rw [hstate]; rfl)) (by simp))
    have hcause := orphanCause_none hshaped (by rw [hstate]; decide)
    exact shaped_later hshaped (by rw [hstate]; decide) rfl rfl rfl (by simp) (by simp [hcause]) (by simp [ClaimState.releasing])
  exact claimed_of_holding (by simp [State.released]) moved

theorem claimed_jam (hs : s.claimed) (hc : s.claimOn c.dock = some c) (hstate : c.state = .relocking) : (s.jam c).claimed := by
  have raised : (s.raiseLockJam c).claimed := hs
  have moved : ((s.raiseLockJam c).onClaim c.dock fun c => { c with state := .jammedOpen, deadline := none }).claimed := by
    refine claimed_onClaim raised (moves_of_claim raised.1 hc (fun _ => rfl) (fun _ => rfl) (fun hshaped => ?_) (.inr (.inl rfl)) (by simp))
    have hcause := orphanCause_none hshaped (by rw [hstate]; decide)
    exact shaped_later hshaped (by rw [hstate]; decide) rfl rfl rfl (by simp) (by simp [hcause]) (by simp [ClaimState.releasing])
  exact claimed_of_holding (by simp [State.jam]) moved

/-- A claim that is not RESERVED may move to RELOCKING when no other claim of its holder is releasing. -/
theorem claimed_relock (hs : s.claimed) (hc : s.claimOn c.dock = some c) (hstate : c.state ≠ .reserved)
    (hholder : c.state.releasing ∨ ∀ e ∈ s.release.claims, e.dock ≠ c.dock → e.state.releasing → e.holder ≠ c.holder) :
    (s.relock c).claimed := by
  have moved : (s.onClaim c.dock fun c =>
      { c with state := .relocking, orphanCause := none, deadline := some (s.now + Config.lockLimit) }).claimed := by
    refine claimed_onClaim hs (moves_of_claim hs.1 hc (fun _ => rfl) (fun _ => rfl) (fun hshaped => ?_) (hholder.imp_right .inr) (by simp))
    exact shaped_later hshaped hstate rfl rfl rfl (by simp) (by simp) (by simp [ClaimState.releasing])
  exact claimed_of_holding (by simp [State.relock]) moved

theorem claimed_orphan (hs : s.claimed) (hc : s.claimOn c.dock = some c) (hstate : c.state = .released) : (s.orphan c).claimed := by
  have moved : (s.onClaim c.dock fun c => { c with state := .orphan, orphanCause := some .link, deadline := none }).claimed := by
    refine claimed_onClaim hs (moves_of_claim hs.1 hc (fun _ => rfl) (fun _ => rfl) (fun hshaped => ?_) (.inr (.inl rfl)) (by simp))
    exact shaped_later hshaped (by rw [hstate]; decide) rfl rfl rfl (by simp) (by simp) (by simp [ClaimState.releasing])
  unfold State.orphan
  dsimp only
  split <;> exact claimed_of_holding (by simp) moved

theorem releasingHolder_false {card : CardId} (h : s.releasingHolder card (some d) = false) :
    ∀ e ∈ s.release.claims, e.dock ≠ d → e.state.releasing → e.holder ≠ some card := by
  intro e he hd hr hholder
  have := List.any_eq_false.mp h e he
  simp [hr, hholder, hd] at this

theorem claimed_reconcile (hs : s.claimed) (hc : s.claimOn c.dock = some c) (horphan : c.state = .orphan) (lock : LockState) :
    (s.reconcile c lock).claimed := by
  have relocked : c.kind ≠ .van ∧ ¬ c.holder.any (s.releasingHolder · (some c.dock)) → (s.relock c).claimed := by
    rintro ⟨-, hfree⟩
    refine claimed_relock hs hc (by rw [horphan]; decide) (.inr ?_)
    obtain ⟨card, hcard⟩ := Option.isSome_iff_exists.mp ((hs.1.shaped c (claimOn_mem hc)).2.1.mpr (by rw [horphan]; decide))
    rw [hcard] at hfree ⊢
    rw [Option.any_some] at hfree
    exact releasingHolder_false (Bool.eq_false_iff.mpr hfree)
  cases lock with
  | locked => exact claimed_lapse hs c .none
  | opened | failed =>
    unfold State.reconcile
    dsimp only
    split
    case isTrue h => exact relocked h
    case isFalse => exact claimed_lapse hs c .relock

end

end Sys2Proof.Machine
end


section
/-! Proofs. The operations that change a level keep the laws of the claims (R30, R88). -/

namespace Sys2Proof.Machine

section
variable {s : State} {d : DockNo}

/-! ### Displacement (R88) -/

theorem permits_of_not_below {after before : Level} {k : ClaimKind} (h : ¬ after.below before = true) (hbefore : before.permits k = true) :
    after.permits k = true := by
  simp only [Level.permits, Level.below, Bool.not_eq_true', decide_eq_false_iff_not, decide_eq_true_eq] at h hbefore ⊢
  omega

/-- The claim in RELEASE_SENT that a fallen level moves to RELOCKING. -/
def State.displaced (s : State) (c : Claim) : Claim := { c with state := .relocking, deadline := some (s.now + Config.lockLimit) }

theorem displaced_moves {c : Claim} (hlist : ClaimList s.release.claims s.release.requests) (hc : s.claimOn d = some c)
    (hstate : c.state = .releaseSent) : Moves s.release.claims d s.displaced := by
  refine moves_of_claim hlist hc (fun _ => rfl) (fun _ => rfl) (fun hshaped => ?_) (.inl (by rw [hstate]; rfl)) ⟨nofun, nofun⟩
  have hcause := orphanCause_none hshaped (by rw [hstate]; decide)
  exact shaped_later hshaped (by rw [hstate]; decide) rfl rfl rfl nofun (iff_of_false (by simp [State.displaced, hcause]) nofun)
    (iff_of_true rfl rfl)

/-- What a displacement makes of the claims: none that needs its level is new, and none is left that its level does not permit. -/
structure Displaces (s : State) (d : DockNo) (t : State) : Prop where
  list : ClaimList t.release.claims t.release.requests
  needs : ∀ c ∈ t.release.claims, c.needsLevel → c ∈ s.release.claims
  level : LevelAt t d

theorem displaces_displace (hlist : ClaimList s.release.claims s.release.requests) : Displaces s d (s.displace d) := by
  cases hc : s.claimOn d with
  | none =>
    have hsame : s.displace d = s := by
      unfold State.displace
      rw [hc]
    rw [hsame]
    exact ⟨hlist, fun _ hc _ => hc, fun c hmem hd => absurd hd (claimOn_none_iff.mp hc c hmem)⟩
  | some c =>
    by_cases hpermits : (s.level d).permits c.kind = true
    case pos =>
      rw [displace_permitted hc hpermits]
      exact ⟨hlist, fun _ hc _ => hc, fun e he hd _ => claim_unique hlist hc he hd ▸ hpermits⟩
    case neg =>
      have hnot := Bool.eq_false_iff.mpr hpermits
      by_cases hreserved : c.state = .reserved
      case pos =>
        rw [displace_reserved hc hnot hreserved, State.dropClaim, claimOn_dock hc, endClaim_state]
        refine ⟨hlist.filter _, fun e he _ => (List.mem_filter.mp he).1, fun e he hd => ?_⟩
        exact absurd hd (by simpa using (List.mem_filter.mp he).2)
      case neg =>
        by_cases hsent : c.state = .releaseSent
        case neg =>
          rw [displace_past hc hreserved hsent]
          exact ⟨hlist, fun _ hc _ => hc, fun e he hd hneeds => absurd hneeds
            (claim_unique hlist hc he hd ▸ fun h => h.elim hreserved hsent)⟩
        case pos =>
          rw [displace_sent hc hnot hsent]
          have moved : ∀ e ∈ s.release.claims.map (fun c => if c.dock = d then s.displaced c else c), e.needsLevel →
              e ∈ s.release.claims ∧ e.dock ≠ d := fun e he hneeds => by
            obtain ⟨x, hx, rfl⟩ := List.mem_map.mp he
            by_cases hd : x.dock = d
            case pos =>
              rw [if_pos hd] at hneeds
              exact hneeds.elim nofun nofun
            case neg =>
              rw [if_neg hd]
              exact ⟨hx, hd⟩
          exact ⟨hlist.move (displaced_moves hlist hc hsent), fun e he hneeds => (moved e he hneeds).1,
            fun e he hd hneeds => absurd hd (moved e he hneeds).2⟩

/-! ### A level taken again (R30) -/

theorem displaces_of_holding {t u : State} (h : Displaces s d t) (hu : u.release = t.release) (hlevel : u.level d = t.level d) :
    Displaces s d u := by
  obtain ⟨list, needs, level⟩ := h
  unfold LevelAt at level
  rw [← hlevel, ← hu] at level
  rw [← hu] at list needs
  exact ⟨list, needs, level⟩

/-- A level is taken again: where its claims were permitted `before`, they are permitted now. -/
theorem takeLevel_displaces {before : Level} (hlist : ClaimList s.release.claims s.release.requests) :
    ClaimList (s.takeLevel d before).release.claims (s.takeLevel d before).release.requests
      ∧ (∀ c ∈ (s.takeLevel d before).release.claims, c.needsLevel → c ∈ s.release.claims)
      ∧ ((∀ c ∈ s.release.claims, c.dock = d → c.needsLevel → before.permits c.kind) → LevelAt (s.takeLevel d before) d) := by
  have hslot : (s.takeSlot d).release = s.release := (show Only [.inFlight, .dock] s (s.takeSlot d) by simp) .release (by decide)
  by_cases hsame : s.level d = before
  case pos =>
    rw [takeLevel_same hsame]
    exact ⟨hlist, fun _ hc _ => hc, fun h c hc hd hneeds => hsame ▸ h c hc hd hneeds⟩
  case neg =>
    have hlevels := level_of_fixtures (fixtures_takeLevel s d before) d
    unfold State.takeLevel at hlevels ⊢
    dsimp only at hlevels ⊢
    rw [if_neg hsame] at hlevels ⊢
    by_cases hbelow : (s.level d).below before = true
    case pos =>
      rw [if_pos hbelow] at hlevels ⊢
      obtain ⟨list, needs, level⟩ := displaces_of_holding (u := ((s.takeSlot d).displace d).relamp d)
        (displaces_displace (s := s.takeSlot d) (d := d) (by rw [hslot]; exact hlist)) rfl (level_of_fixtures (by simp) d)
      exact ⟨list, fun c hc hneeds => hslot ▸ needs c hc hneeds, fun _ => level⟩
    case neg =>
      rw [if_neg hbelow] at hlevels ⊢
      have hrelease : ((s.takeSlot d).postPass.relamp d).release = s.release :=
        (show Only [.inFlight, .dock] s ((s.takeSlot d).postPass.relamp d) by simp) .release (by decide)
      refine ⟨by rw [hrelease]; exact hlist, fun c hc _ => hrelease ▸ hc, fun h c hc hd hneeds => ?_⟩
      rw [hlevels]
      exact permits_of_not_below hbelow (h c (hrelease ▸ hc) hd hneeds)

theorem claimed_takeLevel {before : Level} (hlist : ClaimList s.release.claims s.release.requests) (hothers : ∀ e, e ≠ d → LevelAt s e)
    (hbefore : ∀ c ∈ s.release.claims, c.dock = d → c.needsLevel → before.permits c.kind) : (s.takeLevel d before).claimed := by
  obtain ⟨list, needs, level⟩ := takeLevel_displaces (d := d) (before := before) hlist
  refine ⟨list, fun e => ?_⟩
  by_cases he : e = d
  case pos => exact he ▸ level hbefore
  case neg =>
    intro c hc hd hneeds
    rw [level_of_fixtures (fixtures_takeLevel s d before) e]
    exact hothers e he c (needs c hc hneeds) hd hneeds

theorem claimed_changeInput (hs : s.claimed) (d : DockNo) (f : DockRecord → DockRecord) : (s.changeInput d (·.onDock d f)).claimed := by
  obtain ⟨hlist, hlevels⟩ := hs
  refine claimed_takeLevel (s := s.onDock d f) hlist (fun e he c hc hd hneeds => ?_) fun c hc hd hneeds => hlevels d c hc hd hneeds
  have hlevel : (s.onDock d f).level e = s.level e := by
    unfold State.level
    rw [dock?_onDock_other s d e f he]
    rfl
  rw [hlevel]
  exact hlevels e c hc hd hneeds

theorem claimed_changeHolds (hs : s.claimed) (d : DockNo) (f : DockRecord → DockRecord) : (s.changeHolds d f).claimed := by
  have changed := claimed_changeInput hs d f
  unfold State.changeHolds
  dsimp only
  split
  case isTrue => exact claimed_of_holding (by simp) changed
  case isFalse => exact changed

/-! ### A change of the caps, dock by dock -/

/-- What is still to be done while a change of the caps is taken: the law holds, or the dock is on the list with a level before the change
that permits its claims. -/
def LevelOrListed (s : State) (l : List (Level × DockNo)) (e : DockNo) : Prop :=
  LevelAt s e ∨ ∃ p ∈ l, p.2 = e ∧ ∀ c ∈ s.release.claims, c.dock = e → c.needsLevel → p.1.permits c.kind

theorem claimed_foldl_takeLevel (l : List (Level × DockNo)) {s : State} (hlist : ClaimList s.release.claims s.release.requests)
    (h : ∀ e, LevelOrListed s l e) : (l.foldl (fun s p => s.takeLevel p.2 p.1) s).claimed := by
  induction l generalizing s with
  | nil => exact ⟨hlist, fun e => (h e).resolve_right fun ⟨_, hp, _⟩ => nomatch hp⟩
  | cons p l ih =>
    obtain ⟨list, needs, level⟩ := takeLevel_displaces (d := p.2) (before := p.1) hlist
    refine ih list fun e => ?_
    rcases h e with hat | ⟨q, hq, hqe, hpermits⟩
    · refine .inl fun c hc hd hneeds => ?_
      rw [level_of_fixtures (fixtures_takeLevel s p.2 p.1) e]
      exact hat c (needs c hc hneeds) hd hneeds
    · rcases List.mem_cons.mp hq with rfl | hq
      · exact .inl (hqe ▸ level (hqe ▸ hpermits))
      · exact .inr ⟨q, hq, hqe, fun c hc hd hneeds => hpermits c (needs c hc hneeds) hd hneeds⟩

theorem claimed_changeCaps (hs : s.claimed) (f : DockCaps → DockCaps) : (s.changeCaps f).claimed := by
  obtain ⟨hlist, hlevels⟩ := hs
  unfold State.changeCaps
  dsimp only
  refine claimed_foldl_takeLevel _ hlist fun e => ?_
  by_cases he : e < s.dockCount
  case pos =>
    refine .inr ⟨(s.level e, e), ?_, rfl, hlevels e⟩
    rw [List.mem_zipIdx_iff_getElem?]
    simp [he]
  case neg =>
    refine .inl fun c hc hd hneeds => ?_
    have hnone : s.dock? e = none := List.getElem?_eq_none (Nat.not_lt.mp he)
    have hlevel : (s.onDocks fun u => { u with caps := f u.caps }).level e = s.level e := by
      unfold State.level
      rw [show (s.onDocks fun u => { u with caps := f u.caps }).dock? e = none from hnone, hnone]
    rw [hlevel]
    exact hlevels e c hc hd hneeds

/-! ### Holds (R157, R160 to R164) -/

theorem claimed_setHold (hs : s.claimed) (x : FaultSubject) (k : FaultKind) (dock : Option DockNo) (on : Bool) :
    (s.setHold x k dock on).claimed := by
  unfold State.setHold
  split
  case h_1 => exact claimed_changeHolds hs _ _
  case h_2 =>
    split
    case isTrue => exact claimed_changeHolds hs _ _
    case isFalse => exact hs
  case h_3 | h_4 => exact hs

theorem claimed_resolveFault (hs : s.claimed) (x : FaultSubject) (k : FaultKind) (dock : Option DockNo) :
    (s.resolveFault x k dock).claimed := claimed_setHold hs x k dock false

theorem claimed_clearHolds (hs : s.claimed) (d : DockNo) (r : DockRecord) : (s.clearHolds d r).claimed := by
  have cleared := claimed_changeHolds hs d DockRecord.cleared
  have resolved : ((s.changeHolds d DockRecord.cleared).recordsCleared d r).claimed :=
    claimed_readsOnly _ _ (fun p hp => recordsCleared_same _ d r p (by revert hp; cases p <;> decide)) cleared
  rw [clearHolds_eq]
  split
  · exact claimed_of_holding (by simp) resolved
  · exact resolved

theorem claimed_clearFault (hs : s.claimed) (x : FaultSubject) (k : FaultKind) : (s.clearFault x k).2.claimed := by
  have dockKind : ∀ d k, (s.clearDockKind d k).2.claimed := fun d k => by
    have resolved := claimed_resolveFault hs (.dock d) k none
    unfold State.clearDockKind
    split
    case isTrue =>
      dsimp only
      split
      case isTrue => exact claimed_of_holding (by simp) resolved
      case isFalse => exact resolved
    case isFalse => exact hs
  have linkLoss : ∀ d, (s.clearLinkLoss d).2.claimed := fun d => by
    have resolved := claimed_resolveFault hs (.dock d) .linkLoss none
    unfold State.clearLinkLoss
    split
    case isTrue =>
      split
      case h_1 c _ => exact claimed_lapse resolved c .none
      case h_2 => split <;> [exact resolved; exact hs]
    case isFalse => exact hs
  unfold State.clearFault
  split
  case h_1 => exact linkLoss _
  case h_6 =>
    unfold State.clearRiderReport
    dsimp only
    split
    case isTrue => exact claimed_resolveFault hs _ _ _
    case isFalse => exact hs
  case h_7 => exact hs
  all_goals exact dockKind _ _

end

end Sys2Proof.Machine
end


section
/-! Proofs. Requests, grants and reservations keep the laws of the claims (R73 to R76, R142). -/

namespace Sys2Proof.Machine

section
variable {s : State} {d : DockNo} {q : ClaimRequest}

/-! ### Requests in hand (R74) -/

theorem requestOn_none_iff : s.requestOn d = none ↔ ∀ p ∈ s.release.requests, p.dock ≠ d := by
  simp [State.requestOn]

theorem claimed_holdRequest (hs : s.claimed) (hnew : s.requestOn q.dock = none) (horder : q.order.isSome ↔ q.kind = .van) :
    (s.holdRequest q).claimed := by
  obtain ⟨hlist, hlevels⟩ := hs
  exact ⟨hlist.hold (requestOn_none_iff.mp hnew) horder, hlevels⟩

theorem claimed_dropRequest (hs : s.claimed) (d : DockNo) : (s.dropRequest d).claimed := by
  obtain ⟨hlist, hlevels⟩ := hs
  exact ⟨hlist.drop _, hlevels⟩

/-- What the tests of R73 leave when none of them refuses. -/
theorem claimTests_passed {kind : ClaimKind} {holder : CardId} {own : Option DockNo} (h : s.claimTests d kind holder own = none) :
    s.releasingHolder holder = false ∧ s.claimOn d = none ∧ (s.requestOn d = none ∨ own = some d)
      ∧ (s.level d).permits kind = true := by
  unfold State.claimTests at h
  split at h
  case h_1 => exact nomatch h
  case h_2 r _ =>
    split_ifs at h with halready _ _ hclaimed _ _ hpermits
    push Not at halready hclaimed
    obtain ⟨hreleasing, -⟩ := halready
    obtain ⟨hclaim, hrequest⟩ := hclaimed
    refine ⟨by simpa using hreleasing, by simpa using hclaim, ?_, by simpa using hpermits⟩
    by_cases hnone : s.requestOn d = none
    · exact .inl hnone
    · exact .inr (hrequest (Option.isSome_iff_ne_none.mpr hnone))

/-- What the tests of R76 leave when none of them refuses. -/
theorem vanTests_passed {card : CardId} {own : Option DockNo} (h : s.vanTests d card own = none) :
    s.releasingHolder card = false ∧ (s.level d).permits .van = true := by
  unfold State.vanTests at h
  split at h
  case h_1 => exact nomatch h
  case h_2 r _ =>
    split_ifs at h with halready _ _ _ hpermits
    push Not at halready
    obtain ⟨hreleasing, -⟩ := halready
    exact ⟨by simpa using hreleasing, by simpa using hpermits⟩

theorem grantTests_passed (h : s.grantTests q = none) : s.releasingHolder q.holder = false ∧ (s.level q.dock).permits q.kind = true := by
  unfold State.grantTests at h
  split_ifs at h
  cases hkind : q.kind with
  | van =>
    rw [hkind] at h
    exact vanTests_passed h
  | member | service =>
    rw [hkind] at h
    obtain ⟨hreleasing, -, -, hpermits⟩ := claimTests_passed h
    exact ⟨hreleasing, hpermits⟩

theorem claimed_requestClaim (hs : s.claimed) {kind : ClaimKind} (hkind : kind ≠ .van) (holder : CardId) (origin : CardOrigin)
    (owner : Owner) : (s.requestClaim d kind holder origin owner).claimed := by
  unfold State.requestClaim
  split
  case h_1 => exact claimed_of_holding (by simp) hs
  case h_2 htests =>
    obtain ⟨-, -, hrequest, -⟩ := claimTests_passed htests
    exact claimed_holdRequest hs (hrequest.resolve_right nofun) (iff_of_false nofun hkind)

/-! ### The grant (R74) -/

theorem releasingHolder_none {card : CardId} (h : s.releasingHolder card = false) :
    ∀ e ∈ s.release.claims, e.state.releasing → e.holder ≠ some card := by
  intro e he hr hholder
  have := List.any_eq_false.mp h e he
  simp [hr, hholder] at this

theorem releaseSentClaim_shaped (horder : q.order.isSome ↔ q.kind = .van) (offline : Bool) : (s.releaseSentClaim q offline).shaped := by
  simp [Claim.shaped, State.releaseSentClaim, ClaimState.releasing, horder]

theorem reservation_shaped (d : DockNo) (o : OrderId) : (reservation d o).shaped := by
  simp [Claim.shaped, reservation, ClaimState.releasing]

theorem claimed_grantClaim (hs : s.claimed) (htests : s.grantTests q = none) (horder : q.order.isSome ↔ q.kind = .van)
    (offline : Bool) : (s.grantClaim q offline).claimed := by
  obtain ⟨hreleasing, hpermits⟩ := grantTests_passed htests
  have removed : (s.removeClaim q.dock).claimed := claimed_ends hs rfl rfl fun _ => rfl
  have entered : ((s.removeClaim q.dock).addClaim (s.releaseSentClaim q offline)).claimed := by
    refine claimed_enters (c := s.releaseSentClaim q offline) removed (fun e he => ?_) (releaseSentClaim_shaped horder offline)
      (fun _ e he => ?_) hpermits rfl rfl fun _ => rfl
    · exact bne_iff_ne.mp (List.mem_filter.mp he).2
    · exact releasingHolder_none hreleasing e (List.mem_filter.mp he).1
  unfold State.grantClaim
  dsimp only
  split <;> exact claimed_of_holding (by simp) entered

theorem claimed_answerGrant (hs : s.claimed) (horder : q.order.isSome ↔ q.kind = .van) (answer : GrantAnswer) :
    (s.answerGrant q answer).claimed := by
  cases answer with
  | tight | credit => exact claimed_of_holding (by simp [State.answerGrant]) hs
  | charged | free =>
    unfold State.answerGrant
    dsimp only
    split
    case h_1 htests => exact claimed_grantClaim hs htests horder _
    case h_2 => exact claimed_of_holding (by simp) hs

/-! ### Reservations (R75, R76, R142) -/

theorem reserve_claimed_kept {o : OrderId} {t : State} (hs : s.claimed) (h : s.reserve d o = .ok t) :
    t.claimed ∧ t.release.requests = s.release.requests := by
  unfold State.reserve at h
  split at h
  case h_1 | h_2 => exact nomatch h
  case h_3 =>
    split_ifs at h with hclaimed hclosed
    push Not at hclaimed
    obtain ⟨hclaim, -⟩ := hclaimed
    obtain rfl := Except.ok.inj h
    refine ⟨claimed_of_holding (s := s.addClaim (reservation d o)) (by simp; rfl) (claimed_enters (c := reservation d o) hs
      ((claimOn_none_iff (d := d)).mp (by simpa using hclaim)) (reservation_shaped d o) nofun ?_ rfl rfl fun _ => rfl), rfl⟩
    exact (permits_van _).mpr hclosed

theorem claimed_tryReserve (hs : s.claimed) (d : DockNo) (o : OrderId) : (s.tryReserve d o).claimed := by
  unfold State.tryReserve
  split
  case h_1 t h => exact (reserve_claimed_kept hs h).1
  case h_2 => exact hs

theorem claimed_releaseReserved (hs : s.claimed) (hnew : s.requestOn d = none) (o : OrderId) (card : CardId) :
    (s.releaseReserved d o card).claimed := by
  unfold State.releaseReserved
  split
  case h_1 => exact claimed_of_holding (by simp) hs
  case h_2 => exact claimed_holdRequest hs hnew (iff_of_true rfl rfl)

theorem claimed_passDock (hs : s.claimed) (d : DockNo) : (s.passDock d).claimed := by
  unfold State.passDock
  split
  case h_1 => exact hs
  case h_2 v _ =>
    split
    case h_1 => exact hs
    case h_2 =>
      split
      case isTrue => exact claimed_tryReserve hs d v.order
      case isFalse => exact hs

theorem claimed_foldl_passDock (l : List DockNo) {s : State} (hs : s.claimed) : (l.foldl State.passDock s).claimed := by
  induction l generalizing s with
  | nil => exact hs
  | cons d l ih => exact ih (claimed_passDock hs d)

theorem claimed_placementPass (hs : s.claimed) : s.placementPass.claimed := by
  unfold State.placementPass
  split
  case isTrue => exact claimed_foldl_passDock _ hs
  case isFalse => exact hs

theorem claimed_openSession (hs : s.claimed) (card : CardId) (place : Place) (o : Order) : (s.openSession card place o).claimed := by
  have booked : (s.journalArrival (·.onJournal fun j => { j with vanBooked := true })).claimed :=
    claimed_of_holding (holding_journalArrival _ _ rfl) hs
  have told : ((s.booked card o).tellPlace place .vanOpened).claimed := claimed_of_holding (by simp [State.booked]) booked
  exact claimed_placementPass told

end

end Sys2Proof.Machine
end


section
/-! Proofs. Every command keeps the laws of the claims. -/

namespace Sys2Proof.Machine

theorem claimed_actKept : ActKept State.claimed := ⟨fun _ _ h => h, fun _ h => h⟩

theorem claimed_act {i : Instr} {f : State → State} (hf : ∀ u, u.claimed → (f u).claimed) : Keeps State.claimed fun s => act i s f :=
  claimed_actKept.act hf

theorem claimed_request {α : Type} {i : Instr} {n : Nat} {tag : Byte} {x : Except ReplyCode α} {f : α → State → State}
    (hf : ∀ a u, x = .ok a → u.claimed → (f a u).claimed) : Keeps State.claimed fun s => request i n tag s x f :=
  claimed_actKept.request (fun _ _ _ _ h => h) hf

/-- An act that leaves the claims, the requests and the levels. -/
theorem holding_act {i : Instr} {f : State → State} (hf : ∀ u, (f u).holding = u.holding) : Keeps State.claimed fun s => act i s f :=
  claimed_act fun u hu => claimed_of_holding (hf u) hu

/-- A command that changes neither the Release Controller nor what is fixed of a dock. -/
theorem claimed_unchanged {c : Instr} (hp : Part.release ∉ parts c) (hc : changesFixtures c = false) : Keeps State.claimed (exec c) :=
  fun s t h hs => claimed_of_holding (holding_of_release (exec_only c s t h .release hp) (exec_fixtures c hc s t h)) hs

/-! ### Reports -/

theorem holding_takeReport (s : State) (p : Poll) (r : DockRecord) (q : DockReport) : (s.takeReport p r q).holding = s.holding := by
  simp [State.takeReport, DockRecord.heard]

theorem holding_takeAnswer (s : State) (p : Poll) (r : DockRecord) (q : Option DockReport) : (s.takeAnswer p r q).holding = s.holding := by
  unfold State.takeAnswer
  (repeat' split) <;> simp [holding_takeReport]

/-! ### Samples and resets -/

theorem claimed_changePower {s : State} (p : PowerState) (hs : s.claimed) : (s.changePower p).claimed :=
  claimed_of_holding (holding_changePower s p) hs

theorem claimed_shutDown {s : State} (hs : s.claimed) : s.shutDown.claimed := hs

theorem claimed_testLevel {s : State} (level : Nat) (hs : s.claimed) : (s.testLevel level).claimed := by
  unfold State.testLevel
  dsimp only
  (repeat' split) <;> first | exact hs | exact claimed_shutDown hs | exact claimed_changePower _ hs

theorem claimed_takeSample {s : State} (mains : Bool) (level : Byte) (hs : s.claimed) : (s.takeSample mains level).claimed := by
  have sampled : (s.tick.onSupply (·.sample mains level)).claimed := hs
  unfold State.takeSample State.followPower State.decidePower
  dsimp only
  split
  case isTrue =>
    refine claimed_testLevel _ ?_
    (repeat' split) <;> first | exact sampled | exact claimed_changePower _ sampled
  case isFalse =>
    split
    case h_1 => exact sampled
    case h_2 debounced _ =>
      have changed := claimed_changePower (s := (s.tick.onSupply (·.sample mains level)).onSupply fun m => { m with decided := true })
        ((s.tick.onSupply (·.sample mains level)).settings.powerFor debounced level.toNat) sampled
      split
      case isTrue => exact claimed_shutDown changed
      case isFalse => exact changed

theorem ClaimList.emptied {claims : List Claim} {requests : List ClaimRequest} (h : ClaimList claims requests) : ClaimList [] requests := by
  simpa using h.filter fun _ => false

theorem ClaimList.nil : ClaimList [] [] :=
  ⟨List.nodup_nil, List.nodup_nil, (fun _ h => nomatch h), (fun _ h => nomatch h), (fun _ h => nomatch h)⟩

/-- Without claims only the requests have laws to keep. -/
theorem claimed_of_noClaims {s : State} (hclaims : s.release.claims = []) (hlist : ClaimList [] s.release.requests) : s.claimed := by
  refine ⟨hclaims.symm ▸ hlist, fun d c hc => ?_⟩
  rw [hclaims] at hc
  exact nomatch hc

theorem claimed_coldStart (s : State) (cause : ResetCause) : (s.coldStart cause).claimed := claimed_of_noClaims rfl ClaimList.nil

/-- A claim as a warm start leaves it (R175). -/
def Claim.orphaned (c : Claim) : Claim := { c with state := .orphan, orphanCause := some .reset, deadline := none, owner := .nobody }

theorem claimed_warmBlocks {s : State} (cause : ResetCause) (hs : s.claimed) : (s.warmBlocks cause).claimed := by
  obtain ⟨hlist, -⟩ := hs
  have kept := hlist.filter fun c => c.state.booked
  have docks : ((s.release.claims.filter fun c => c.state.booked).map Claim.orphaned).map (·.dock) =
      (s.release.claims.filter fun c => c.state.booked).map (·.dock) := List.map_map ..
  have orphans : ∀ c ∈ s.release.warm.claims, c.state = .orphan ∧ c.shaped := fun c hc => by
    obtain ⟨e, he, rfl⟩ := List.mem_map.mp hc
    have hbooked := (List.mem_filter.mp he).2
    refine ⟨rfl, shaped_later (kept.shaped e he) (fun h => ?_) rfl rfl rfl nofun (iff_of_true rfl rfl) (iff_of_false nofun nofun)⟩
    rw [h] at hbooked
    exact nomatch hbooked
  refine ⟨⟨docks.symm ▸ kept.docks, List.nodup_nil, fun c hc => (orphans c hc).2, nofun, fun c hc _ _ hr => ?_⟩, fun d c hc _ hneeds => ?_⟩
  · rw [(orphans c hc).1] at hr
    exact nomatch hr
  · unfold Claim.needsLevel at hneeds
    rw [(orphans c hc).1] at hneeds
    exact hneeds.elim nofun nofun

theorem claimed_warmStart {s : State} (cause : ResetCause) (hs : s.claimed) : (s.warmStart cause).claimed := by
  have blocks := claimed_warmBlocks cause hs
  have closed : (s.warmBlocks cause).closeForRestart.holding = (s.warmBlocks cause).holding := by
    unfold State.closeForRestart
    split
    case h_1 => rfl
    case h_2 => split <;> simp
  have resolved : (s.warmBlocks cause).closeForRestart.resolveLines.holding = (s.warmBlocks cause).closeForRestart.holding :=
    holding_foldl (fun _ _ => by simp) _ _
  have retaken : (s.warmBlocks cause).closeForRestart.resolveLines.retakeDocks.holding =
      (s.warmBlocks cause).closeForRestart.resolveLines.holding := holding_foldl (fun _ _ => by simp) _ _
  have counted : (s.warmBlocks cause).closeForRestart.resolveLines.retakeDocks.recountJournal.claimed :=
    claimed_of_holding (retaken.trans (resolved.trans closed)) blocks
  exact claimed_of_holding (holding_admitWithheld _) counted

theorem claimed_restart {s : State} (cause : ResetCause) (hs : s.claimed) : (s.restart cause).claimed := by
  unfold State.restart
  split
  case isTrue => exact claimed_warmStart cause hs
  case isFalse => exact claimed_coldStart s cause

theorem claimed_restartUnlessHeld {s : State} (cause : ResetCause) (hs : s.claimed) : (s.restartUnlessHeld cause).claimed := by
  have restarted := claimed_restart cause hs
  unfold State.restartUnlessHeld
  dsimp only
  split <;> exact restarted

theorem execSupplySample_claimed (mains : Bool) (level : Byte) : Keeps State.claimed (execSupplySample mains level) := by
  intro s t h hs
  unfold execSupplySample at h
  cases hp : s.phase <;> simp only [hp] at h
  case running => exact claimed_act (fun u hu => claimed_takeSample mains level hu) s t h hs
  case supplyReset =>
    refine next_inj h ▸ ?_
    unfold State.sampleInReset
    dsimp only
    split
    case isTrue => exact claimed_restartUnlessHeld (s := s.tick.onSupply _) _ hs
    case isFalse => exact hs
  all_goals exact next_inj h ▸ hs

/-! ### Requests of the host -/

theorem execTimeSet_claimed (tag : Byte) (body : List Byte) : Keeps State.claimed (execTimeSet tag body) :=
  claimed_request fun _ _ _ hu => claimed_of_holding (by simp) hu

theorem execSettingsStage_claimed (tag : Byte) (body : List Byte) : Keeps State.claimed (execSettingsStage tag body) :=
  claimed_request fun _ _ _ hu => claimed_of_holding (by simp) hu

theorem execLayoutSet_claimed (tag : Byte) (body : List Byte) : Keeps State.claimed (execLayoutSet tag body) := by
  refine claimed_request fun l u _ hu => ?_
  split
  case isTrue => exact hu
  case isFalse =>
    split
    case isTrue => exact hu
    case isFalse =>
      have hrelease : u.dropQueries.release.requests = u.release.requests := congrArg Holding.requests (holding_dropQueries u)
      exact claimed_of_noClaims rfl (hrelease ▸ hu.1.emptied)

theorem execDockSetService_claimed (tag : Byte) (body : List Byte) : Keeps State.claimed (execDockSetService tag body) := by
  refine claimed_request fun q u _ hu => ?_
  split
  case isTrue => exact claimed_of_holding (by simp) (claimed_changeInput hu q.1 fun r => { r with hostSetting := q.2 })
  case isFalse => exact hu

theorem execOrderCancel_claimed (tag : Byte) (body : List Byte) : Keeps State.claimed (execOrderCancel tag body) := by
  refine claimed_request fun id u _ hu => ?_
  split
  case h_1 => exact hu
  case h_2 o _ =>
    cases o.state with
    | queued => exact hu
    | active => exact claimed_of_holding (by simp) hu

/-! ### The Release Controller -/

theorem execClaimRequest_claimed (d : DockNo) (kind : ClaimKind) (holder : CardId) (origin : CardOrigin) (owner : Owner) :
    Keeps State.claimed (execClaimRequest d kind holder origin owner) := by
  refine claimed_act fun u hu => ?_
  cases kind with
  | van => exact hu
  | member => exact claimed_requestClaim (d := d) (kind := .member) hu (by decide) holder origin owner
  | service => exact claimed_requestClaim (d := d) (kind := .service) hu (by decide) holder origin owner

theorem execAllocation_claimed (x : TerminalId) (cls : BikeClass) (holder : CardId) (origin : CardOrigin) (exclude : Option DockNo) :
    Keeps State.claimed (execAllocation x cls holder origin exclude) := by
  refine claimed_act fun u hu => ?_
  split
  case h_1 => exact claimed_of_holding (by simp) hu
  case h_2 => exact claimed_requestClaim (kind := .member) hu (by decide) holder origin _

theorem execClaimGrant_claimed (d : DockNo) (answer : GrantAnswer) : Keeps State.claimed (execClaimGrant d answer) := by
  refine claimed_act fun u hu => ?_
  split
  case h_1 => exact hu
  case h_2 q hq => exact claimed_answerGrant (claimed_dropRequest hu d) (hu.1.orders q (List.mem_of_find?_eq_some hq)) answer

theorem execReservationDrop_claimed (d : DockNo) : Keeps State.claimed (execReservationDrop d) := by
  refine claimed_act fun u hu => ?_
  split
  case h_1 => exact hu
  case h_2 c _ =>
    split
    case isTrue => exact claimed_dropClaim hu c _
    case isFalse => exact hu

theorem execVanReleaseRequest_claimed (d : DockNo) (o : OrderId) (card : CardId) :
    Keeps State.claimed (execVanReleaseRequest d o card) := by
  refine claimed_act fun u hu => ?_
  split
  case isTrue => exact claimed_of_holding (by simp) hu
  case isFalse hrequest =>
    have hnew : u.requestOn d = none := by simpa using hrequest
    split
    case isTrue => exact claimed_releaseReserved hu hnew o card
    case isFalse =>
      split
      case isTrue => exact claimed_of_holding (by simp) hu
      case isFalse =>
        split
        case h_1 => exact claimed_of_holding (by simp) hu
        case h_2 t ht =>
          obtain ⟨kept, hrequests⟩ := reserve_claimed_kept hu ht
          refine claimed_releaseReserved kept ?_ o card
          unfold State.requestOn
          rw [hrequests]
          exact hnew

theorem execClaimLockChange_claimed (d : DockNo) (lock : LockState) (completed : Bool) :
    Keeps State.claimed (execClaimLockChange d lock completed) := by
  refine claimed_act fun u hu => ?_
  split
  case h_1 => exact hu
  case h_2 c hc =>
    have hown : u.claimOn c.dock = some c := claimOn_dock hc ▸ hc
    split
    case h_1 _ _ hstate => exact claimed_released hu hown hstate
    case h_2 => exact claimed_fail (s := u.raiseLockJam c) hu c _
    case h_4 | h_7 | h_10 => exact claimed_lapse hu c _
    case h_8 _ _ hstate => exact claimed_jam hu hown hstate
    all_goals exact hu

theorem execClaimRemoval_claimed (d : DockNo) (bike : Option BikeId) : Keeps State.claimed (execClaimRemoval d bike) := by
  refine claimed_act fun u hu => ?_
  split
  case h_1 => exact hu
  case h_2 c _ =>
    split
    case h_1 => exact claimed_dropClaim hu c _
    case h_2 => exact claimed_fail hu c _
    all_goals exact claimed_take hu c bike _ _

theorem execClaimInsertion_claimed (d : DockNo) (crew : Option OrderId) : Keeps State.claimed (execClaimInsertion d crew) := by
  refine claimed_act fun u hu => ?_
  split
  case h_1 => exact hu
  case h_2 =>
    split
    case isTrue => exact claimed_endClaim hu d
    case isFalse => exact hu

theorem dueClaim_some {u : State} {d : DockNo} {st : ClaimState} {c : Claim} (h : u.dueClaim d st = some c) :
    u.claimOn c.dock = some c ∧ c.state = st := by
  obtain ⟨hc, hdue⟩ := Option.filter_eq_some_iff.mp h
  simp only [Bool.and_eq_true, beq_iff_eq] at hdue
  exact ⟨claimOn_dock hc ▸ hc, hdue.1⟩

theorem execReleaseDeadline_claimed (d : DockNo) : Keeps State.claimed (execReleaseDeadline d) := by
  refine claimed_act fun u hu => ?_
  split
  case h_1 => exact hu
  case h_2 c _ => exact claimed_fail (s := u.raiseLockJam c) hu c _

theorem execTakeWindowDeadline_claimed (d : DockNo) : Keeps State.claimed (execTakeWindowDeadline d) := by
  refine claimed_act fun u hu => ?_
  split
  case h_1 => exact hu
  case h_2 c hdue =>
    obtain ⟨hc, hstate⟩ := dueClaim_some hdue
    split
    case isTrue => exact claimed_orphan hu hc hstate
    case isFalse => exact claimed_relock hu hc (by rw [hstate]; decide) (.inl (by rw [hstate]; rfl))

theorem execRelockDeadline_claimed (d : DockNo) : Keeps State.claimed (execRelockDeadline d) := by
  refine claimed_act fun u hu => ?_
  split
  case h_1 => exact hu
  case h_2 c hdue =>
    obtain ⟨hc, hstate⟩ := dueClaim_some hdue
    split
    case isTrue => exact claimed_lapse hu c _
    case isFalse => exact claimed_jam hu hc hstate

theorem claimed_displace {s : State} (d : DockNo) (hs : s.claimed) : (s.displace d).claimed := by
  obtain ⟨hlist, hlevels⟩ := hs
  obtain ⟨list, needs, -⟩ := displaces_displace (d := d) hlist
  refine ⟨list, fun e c hc hd hneeds => ?_⟩
  rw [level_of_fixtures (s := s) (t := s.displace d) (by simp) e]
  exact hlevels e c (needs c hc hneeds) hd hneeds

theorem execLockJamCleared_claimed (d : DockNo) : Keeps State.claimed (execLockJamCleared d) := by
  refine claimed_act fun u hu => ?_
  split
  case h_1 => exact hu
  case h_2 c _ =>
    split
    case isTrue => exact claimed_lapse hu c _
    case isFalse => exact hu

theorem execOrphanReconcile_claimed (d : DockNo) (occupancy : Occupancy) (lock : LockState) :
    Keeps State.claimed (execOrphanReconcile d occupancy lock) := by
  refine claimed_act fun u hu => ?_
  split
  case h_1 => exact hu
  case h_2 c hc =>
    split
    case isTrue h => exact claimed_reconcile hu (claimOn_dock hc ▸ hc) h.1 lock
    case isFalse => exact hu

/-! ### The van session -/

theorem execVanBooking_claimed (card : CardId) (place : Place) : Keeps State.claimed (execVanBooking card place) := by
  refine claimed_act fun u hu => ?_
  split
  case isTrue => exact claimed_of_holding (by simp) hu
  case isFalse =>
    split
    case h_1 | h_2 => exact claimed_of_holding (by simp) hu
    case h_3 =>
      split
      case isTrue => exact claimed_openSession hu card place _
      case isFalse => exact claimed_of_holding (by simp) hu

theorem execCrewTap_claimed (card : CardId) (place : Place) : Keeps State.claimed (execCrewTap card place) :=
  holding_act fun u => by (repeat' split) <;> simp

theorem execVanClaimNotice_claimed (d : DockNo) (o : OrderId) (news : VanNews) : Keeps State.claimed (execVanClaimNotice d o news) :=
  holding_act fun u => by cases news <;> (repeat' split) <;> simp

theorem execCrewInsertionNotice_claimed (d : DockNo) (news : CrewInsertion) : Keeps State.claimed (execCrewInsertionNotice d news) :=
  holding_act fun u => by (repeat' split) <;> simp

theorem execVanInNotice_claimed (o : OrderId) (d : DockNo) (n : SeqNo) (identified : Bool) :
    Keeps State.claimed (execVanInNotice o d n identified) :=
  holding_act fun u => by split <;> simp

theorem execVanIdleDeadline_claimed : Keeps State.claimed execVanIdleDeadline :=
  holding_act fun u => by split <;> simp

/-! ### Faults and holds -/

theorem execFaultRaise_claimed (x : FaultSubject) (k : FaultKind) (dock : Option DockNo) (carried : Carried) :
    Keeps State.claimed (execFaultRaise x k dock carried) := by
  refine claimed_act fun u hu => ?_
  split
  case isTrue => exact claimed_of_holding (by simp) (claimed_setHold hu x k dock true)
  case isFalse => exact hu

theorem execHoldClear_claimed (d : DockNo) : Keeps State.claimed (execHoldClear d) := by
  refine claimed_act fun u hu => ?_
  split
  case h_1 => exact hu
  case h_2 r _ => exact claimed_of_holding (by simp) (claimed_clearHolds hu d r)

theorem execBikeArrivalNotice_claimed (d : DockNo) (bike : BikeId) : Keeps State.claimed (execBikeArrivalNotice d bike) := by
  refine claimed_act fun u hu => ?_
  split
  case isTrue => exact claimed_setHold hu _ _ _ _
  case isFalse => exact hu

theorem execFaultRemovalNotice_claimed (d : DockNo) (bike : Option BikeId) : Keeps State.claimed (execFaultRemovalNotice d bike) := by
  refine claimed_act fun u hu => ?_
  have changed := claimed_changeHolds hu d (·.bikeGone bike)
  cases bike <;> exact changed

theorem execFaultClear_claimed (tag : Byte) (body : List Byte) : Keeps State.claimed (execFaultClear tag body) := by
  intro s t h hs
  refine claimed_request (fun q u _ hu => ?_) s t h hs
  exact claimed_of_holding (holding_reply _ _ _ _ .nothing) (claimed_clearFault hu q.1 q.2)

/-! ### Docks, terminals and the grace list -/

theorem execDockReport_claimed (bytes : List Byte) : Keeps State.claimed (execDockReport bytes) := by
  refine holding_act fun u => ?_
  split
  case h_1 => rfl
  case h_2 => exact holding_takeAnswer _ _ _ _

theorem execTerminalEnable_claimed (tag : Byte) (body : List Byte) : Keeps State.claimed (execTerminalEnable tag body) :=
  claimed_request fun _ _ _ hu => claimed_of_holding (by simp) hu

theorem lineArrival_claimed (i : Instr) (x : TerminalId) (a : LineArrival) : Keeps State.claimed (lineArrival i x a) :=
  holding_act fun u => holding_lineTakes u x a

theorem execOfferedDeadline_claimed (x : TerminalId) : Keeps State.claimed (execOfferedDeadline x) :=
  holding_act fun u => by split <;> simp

theorem execGraceExpiry_claimed (bike : BikeId) : Keeps State.claimed (execGraceExpiry bike) := holding_act fun _ => rfl

theorem execBikeTakenNotice_claimed (bike : BikeId) (entryWritten : Bool) : Keeps State.claimed (execBikeTakenNotice bike entryWritten) :=
  holding_act fun _ => by split <;> rfl

/-! ### Every command -/

theorem exec_claimed (c : Instr) : Keeps State.claimed (exec c) := by
  by_cases hparts : ∀ p ∈ [Part.dock, .release], p ∉ parts c
  case pos => exact claimed_readsOnly.exec hparts
  by_cases hsame : Part.release ∉ parts c ∧ changesFixtures c = false
  case pos => exact claimed_unchanged hsame.1 hsame.2
  cases c
  case timeSet => exact execTimeSet_claimed _ _
  case settingsStage => exact execSettingsStage_claimed _ _
  case settingsSwitch => exact holding_act fun _ => holding_switchIfDue _
  case layoutSet => exact execLayoutSet_claimed _ _
  case reset tag body =>
    exact claimed_request (f := fun _ u => (u.reply 0x04 tag .ok).stopped .resetAsked) fun _ _ _ hu => hu
  case dockSetService => exact execDockSetService_claimed _ _
  case orderCancel => exact execOrderCancel_claimed _ _
  case faultClear => exact execFaultClear_claimed _ _
  case terminalEnable => exact execTerminalEnable_claimed _ _
  case dockReport => exact execDockReport_claimed _
  case dockCapChange c => exact claimed_act fun _ hu => claimed_changeCaps hu c.apply
  case claimRequest => exact execClaimRequest_claimed _ _ _ _ _
  case claimGrant => exact execClaimGrant_claimed _ _
  case reservationRequest d o => exact claimed_act fun _ hu => claimed_tryReserve hu d o
  case reservationDrop => exact execReservationDrop_claimed _
  case vanReleaseRequest => exact execVanReleaseRequest_claimed _ _ _
  case claimLockChange => exact execClaimLockChange_claimed _ _ _
  case claimRemoval => exact execClaimRemoval_claimed _ _
  case claimInsertion => exact execClaimInsertion_claimed _ _
  case releaseDeadline => exact execReleaseDeadline_claimed _
  case takeWindowDeadline => exact execTakeWindowDeadline_claimed _
  case relockDeadline => exact execRelockDeadline_claimed _
  case displacement d => exact claimed_act fun _ hu => claimed_displace d hu
  case lockJamCleared => exact execLockJamCleared_claimed _
  case orphanReconcile => exact execOrphanReconcile_claimed _ _ _
  case allocation => exact execAllocation_claimed _ _ _ _ _
  case graceExpiry => exact execGraceExpiry_claimed _
  case bikeTakenNotice => exact execBikeTakenNotice_claimed _ _
  case vanBooking => exact execVanBooking_claimed _ _
  case journalEntryWrite q => exact holding_act fun _ => holding_writeEntry _ q
  case crewTap => exact execCrewTap_claimed _ _
  case placementPass => exact claimed_act fun _ hu => claimed_placementPass hu
  case vanClaimNotice => exact execVanClaimNotice_claimed _ _ _
  case crewInsertionNotice => exact execCrewInsertionNotice_claimed _ _
  case vanInNotice => exact execVanInNotice_claimed _ _ _ _
  case vanIdleDeadline => exact execVanIdleDeadline_claimed
  case faultRaise => exact execFaultRaise_claimed _ _ _ _
  case faultResolution x k dock => exact claimed_act fun _ hu => claimed_resolveFault hu x k dock
  case holdClear => exact execHoldClear_claimed _
  case bikeArrivalNotice => exact execBikeArrivalNotice_claimed _ _
  case faultRemovalNotice => exact execFaultRemovalNotice_claimed _ _
  case terminalHello => exact lineArrival_claimed _ _ _
  case terminalBadRecord => exact lineArrival_claimed _ _ _
  case lineBreak => exact lineArrival_claimed _ _ _
  case terminalPowerSet => exact holding_act fun _ => holding_foldl (fun _ _ => by simp) _ _
  case offeredDeadline => exact execOfferedDeadline_claimed _
  case supplySample => exact execSupplySample_claimed _ _
  case requestReset =>
    refine keeps_next fun u hu => ?_
    split
    case isTrue => exact claimed_restartUnlessHeld _ hu
    case isFalse => exact hu
  case supplyResetEntry =>
    refine keeps_next fun u hu => ?_
    split <;> exact hu
  case resetLineLow => exact keeps_next fun u hu => by cases u.phase <;> exact hu
  case resetLineRelease =>
    refine keeps_next fun u hu => ?_
    split
    case isTrue => exact claimed_restart (s := { u with resetLow := false }) _ hu
    case isFalse => exact hu
  case powerUp =>
    refine keeps_next fun u hu => ?_
    split
    case isTrue => exact claimed_restartUnlessHeld _ hu
    case isFalse => exact hu
  case supplyPinsFall =>
    refine keeps_next fun u hu => ?_
    split <;> exact hu
  all_goals first | exact absurd ⟨by simp [parts], rfl⟩ hsame | exact absurd (by simp [parts]) hparts

/-- Settles O59: a claim enters the table on a free dock, for a holder without another that is being released and at a level that permits
it; it moves, ends and becomes an ORPHAN within the laws; and a level that falls displaces what it no longer permits. -/
theorem claimsAreKept : Obligations.ClaimsAreKept := by
  have kept : ∀ s : State, (s.claimsKept ∧ s.levelsKept) ↔ s.claimed := fun s =>
    and_congr (claimsKept_iff s) (levelsKept_iff s)
  unfold Obligations.ClaimsAreKept
  rw [funext fun s => propext (kept s)]
  exact keptByStep_of_exec (fun _ _ h => h) exec_claimed

end Sys2Proof.Machine
end
